-- ==== Sys2Proof/Word.lean ====
section
/-! DEFINITION. The word types of the model: bytes and the register widths the spec uses. -/

namespace Sys2Proof

/-- One byte (00 Notation). -/
abbrev Byte := BitVec 8

/-- A 16-bit field. -/
abbrev U16 := BitVec 16

/-- A 32-bit register or field. -/
abbrev U32 := BitVec 32

/-- A 64-bit register or field. -/
abbrev U64 := BitVec 64

/-- A digest or a key of 32 bytes (13 Table 13.4). -/
abbrev U256 := BitVec 256

end Sys2Proof
end

