-- ==== Sys2Proof/Syntax.lean ====
section
/-! DEFINITION. The commands of the block: one constructor of `Instr` per row of spec/opcode_table.json,
with the operands the spec gives the row (notes/assumptions/4.md), and the plain data those operands carry. -/

namespace Sys2Proof

/-- A physical function of the PCIe endpoint; PF0 serves tenant 0 and PF1 tenant 1 (13 R305). -/
inductive Fn where
  | pf0 | pf1
deriving DecidableEq, Repr

/-- What a flit from Laurel says of custody (01 Table 1.9): nothing, a control message with the epoch it carries, an act on a domain, a
sensor or a key that R6 gives to Gorse, or a claim of ownership of a domain. -/
inductive LinkMsg where
  | data
  | control (epoch : U32)
  | gorseAct
  | domainClaim (dom : Nat)
deriving DecidableEq, Repr

/-- A die-link flit that arrives (01 R9): whether its CRC is right, and what it says of custody. -/
structure Flit where
  crcOk : Bool
  msg : LinkMsg := .data
deriving DecidableEq, Repr

/-- Which of the two register interfaces an access uses (21 Table 21.1, Table 21.4). -/
inductive Bus where
  | bar0 (fn : Fn)
  | i3c
deriving DecidableEq, Repr

/-- A submission packet as the DMA read it from the ring (05 Table 5.4, Table 5.6), without its opcode, which
the constructor names. `body` holds bytes 24 onward (40 bytes on PF0, 88 on PF1; ciphertext when `SEALED`),
`tag` bytes 112-127 of a PF1 packet, and `block` the bytes read at the block address when `INDIRECT` is set
(R104: packet and block are read once, before `FETCHED` passes the packet). -/
structure Packet where
  ring : Nat := 0
  flags : BitVec 8 := 0
  plen : Nat := 0
  seq : U32 := 0
  ctx : U32 := 0
  layerId : U16 := 0
  opId : U16 := 0
  notBefore : U32 := 0
  deadline : U32 := 0
  body : List Byte := []
  tag : List Byte := []
  block : List Byte := []
deriving DecidableEq, Repr

/-- Why the Gorse power-on reset is entered (19 Table 19.3 `BOOT_CAUSE`). -/
inductive ResetCause where
  | vddAon | grstN
deriving DecidableEq, Repr

/-- The rails the voltage monitors watch (20 R421). -/
inductive Rail where
  | vddAon | vddGorse | vddSram | vddLaurel | vddPcie | vddIo18 | vdd1 | vdd2h | vdd2l | vddq | vccNand | vccqNand
deriving DecidableEq, Repr

/-- The clocks the clock monitors watch (14 Table 14.3, sources 0x18 and 0x19). -/
inductive ClockMon where
  | crystal | gorse | laurel
deriving DecidableEq, Repr

/-- The STB watchdogs (14 Table 14.3, sources 0x1C and 0x1D). -/
inductive Watchdog where
  | gorse | cp0 | cp1
deriving DecidableEq, Repr

/-- The SRAM a scrubbed line lies in (14 Table 14.3, sources 0x01 to 0x04). -/
inductive SramRegion where
  | tileBuffer | coppiceBuffer | laurelControl | gorse | gateBoundary | rootEngine
deriving DecidableEq, Repr

/-- What a read of one DRAM line found (12 R291, R294). -/
inductive LineResult where
  | clean | corrected | uncorrectable
deriving DecidableEq, Repr

/-- The kinds of demand that abort an entry (15 R356). -/
inductive Demand where
  | work (dom : Nat)
  | time (dom : Nat)
  | dependant (dom : Nat)
  | cascade
  | host
deriving DecidableEq, Repr

/-- State of the PCIe link (05 R127, R128; 19 R410). -/
inductive LinkState where
  | down | l0 | l1 | l11 | l12 | l2
deriving DecidableEq, Repr

/-- What a PDM data line of Table 3.1 carries over a frame, decimated (03 Table 3.2): the slot sampled on the rising and the slot sampled on
the falling clock edge. -/
structure PdmLine where
  rising : List (BitVec 24) := []
  falling : List (BitVec 24) := []
deriving DecidableEq, Repr

/-- One audio frame as the front end takes it in at a frame boundary (03 R47, R48, R51): the levels stage 0 tests, in 0.25 dB units and /256;
the decimated samples of PDM_DAT_A and of PDM_DAT0 to PDM_DAT3, at 16 kHz and at 48 kHz; the 160 TDM frames of the vibration sensor, 64 bit
clocks each, the first clock in bit 63; and the beam that the beamformer forms. The levels and the beam come as operands
(notes/assumptions/31.md). -/
structure AudioIn where
  energy : Int := -384
  share : Nat := 0
  vibEnergy : Int := -384
  datA : PdmLine := {}
  dat : List PdmLine := []
  tdm : List (BitVec 64) := []
  datA48 : PdmLine := {}
  dat48 : List PdmLine := []
  beam : List (BitVec 24) := []
  beam48 : List (BitVec 24) := []
deriving DecidableEq, Repr

/-- State of a CSI-2 packet header's ECC (04 Table 4.6). -/
inductive HeaderEcc where
  | ok | corrected | bad
deriving DecidableEq, Repr

/-- A frame-start short packet: its virtual channel and the state of its ECC (04 Table 4.6). -/
structure FrameStart where
  vc : Nat
  ecc : HeaderEcc := .ok
deriving DecidableEq, Repr

/-- A CSI-2 packet at a camera receiver (04 Table 4.1, Table 4.6). `pixels` holds the samples of a line, one a pixel, or Cb, Y, Cr, Y for two
pixels of YUV422; `data` carries embedded data bytes; `overflow` says that the line buffer overflowed. -/
structure CsiPacket where
  vc : Nat := 0
  dataType : Nat := 0
  ecc : HeaderEcc := .ok
  crcOk : Bool := true
  pixels : List Nat := []
  overflow : Bool := false
  data : List Byte := []
deriving DecidableEq, Repr

/-- The work a tile or edge command belongs to: an in-flight command, or a batch step of a model. -/
inductive WorkRef where
  | cmd (id : Nat)
  | step (fn : Fn) (model : Nat)
deriving DecidableEq, Repr

/-- One tile or edge command as the command processor cut it (06 R154; 08 R189, R197): the unit that runs it
and the block of outputs and of the K range it covers. The cut is the device's own choice. -/
structure WorkCut where
  work : WorkRef
  coppice : Nat := 0
  tile : Nat := 0
  batch : Nat := 0
  m0 : Nat := 0
  m1 : Nat := 0
  n0 : Nat := 0
  n1 : Nat := 0
  k0 : Nat := 0
  k1 : Nat := 0
deriving DecidableEq, Repr

/-- What an error of the hardware does to a tile or edge command: it moves the sum of one pass's columns, by an integer or by an FP32
pattern. A pass is known by its place among the command's passes (06 R144, R145; 14 R339). -/
structure Upset where
  pass : Nat
  delta : Int
deriving DecidableEq, Repr

/-- What the PMU measured when a command asks for admission (15 R361 to R363): the energy charged to the limit of the command's tenant in the
current windows of 30,720 tk and 3,072 tk, in µJ, and the baseline, in mW. -/
structure Energies where
  window : Nat := 0
  recent : Nat := 0
  baseline : Nat := 0
deriving DecidableEq, Repr

/-- A peer's control block (16 Table 16.4). -/
structure ControlBlock where
  groupId : U32 := 0
  joinGen : U16 := 0
  pstate : Nat := 0
  writer : Nat := 0
  creditRet : U32 := 0
  rxLen : Nat := 0
  stamp : Nat := 0
  rxNext : U32 := 0
deriving DecidableEq, Repr

/-- A slot header written by a peer (16 Table 16.3). -/
structure SlotHeader where
  pseq : U32 := 0
  dstOff : Nat := 0
  dstFmt : Nat := 0
  last : Bool := false
  ucrc : U32 := 0
  stamp : Nat := 0
  layerId : U16 := 0
  opId : U16 := 0
  xseq : U32 := 0
deriving DecidableEq, Repr

/-- The commands the block takes. Each constructor with a `Packet` is the step in which the device fetches
that packet from its ring (05 R112); the others are accesses, pin events and the device's own events. -/
inductive Instr where
  /-- `NOP` (R112). Fetched NOP passes the fetch checks and completes OK, echoing parameter bytes 24-35. -/
  | nop (p : Packet)
  /-- `BAD_OPCODE` (R112). A packet with a reserved opcode fails fetch check 2 and completes BAD_OPCODE with no effect. -/
  | badOpcode (opc : Byte) (p : Packet)
  /-- `CAPS_READ` (R438). Writes the 512-byte capability descriptor, as it stands at the command's single commit. -/
  | capsRead (p : Packet)
  /-- `SESSION_OPEN` (R121). Phase 0 issues a nonce challenge; phase 1 checks the KMAC proof, opens the session and binds the admin ring. -/
  | sessionOpen (p : Packet)
  /-- `SESSION_CLOSE` (R123). Cancels the session's packets, destroys its rings, frees its objects, drops its pins and unbinds the admin ring. -/
  | sessionClose (p : Packet)
  /-- `ATTEST` (R314). Forms and signs the attestation report for the function's tenant, optionally followed by the certificate chain. -/
  | attest (p : Packet)
  /-- `KEY_EXCHANGE` (R317). Decapsulates the ML-KEM ciphertext, derives the tenant-1 key K1 and draws a new KEM pair. -/
  | keyExchange (p : Packet)
  /-- `CANCEL` (R118). Matches earlier-fetched packets on a ring by scope and ends each one CANCELLED at its next commit point. -/
  | cancel (p : Packet)
  /-- `RING_CREATE` (R120). Creates a ring pair, binds it to the session and assigns its ring generation. -/
  | ringCreate (p : Packet)
  /-- `RING_DESTROY` (R120). Cancels every packet fetched from the ring, writes their completions and removes the ring. -/
  | ringDestroy (p : Packet)
  /-- `SEM_CREATE` (R266). Creates a semaphore with an owner and initial count, or destroys one and cancels its waiters. -/
  | semCreate (p : Packet)
  /-- `SEM_SIGNAL` (R267). Adds COUNT to the semaphore, completes waiters that can now proceed and ends wait-for edges. -/
  | semSignal (p : Packet)
  /-- `SEM_WAIT` (R267). Parks until it is the first waiter and the count suffices, then subtracts the count; boosts the owner meanwhile. -/
  | semWait (p : Packet)
  /-- `FENCE` (R119). Completes once every packet fetched earlier on the named rings has completed. -/
  | fence (p : Packet)
  /-- `ALLOC` (R285). Places an allocation in the tiers of the try order under quota and pool rules, or completes QUOTA. -/
  | alloc (p : Packet)
  /-- `FREE` (R288). Waits for earlier commands that use the allocation, then releases its range and charge. -/
  | free (p : Packet)
  /-- `COPY` (R289). Moves bytes unchanged, committing each 64 KiB of destination in address order. -/
  | copy (p : Packet)
  /-- `PLACE_HINT` (R287). Sets a session placement hint for AUTO allocations, KV frames, carried states or pool models. -/
  | placeHint (p : Packet)
  /-- `QUOTA_SET` (R282). Sets or reads a quota limit; a raise serves parked and waiting charges. -/
  | quotaSet (p : Packet)
  /-- `TABLE_BUILD` (R175). Histograms each segment of a tensor and writes the compression header and prefix tables. -/
  | tableBuild (p : Packet)
  /-- `COMPRESS` (R176). Compresses a tensor to ZMASK or ENTROPY, or expands one to NONE, in the order of R177. -/
  | compress (p : Packet)
  /-- `MODEL_LOAD` (R274). Installs a model package into the store and/or makes a model resident in tier 2. -/
  | modelLoad (p : Packet)
  /-- `MODEL_PIN` (R273). Pins a model in tier 2 or places copies in coppice buffers, or drops its pins. -/
  | modelPin (p : Packet)
  /-- `MODEL_EVICT` (R274). Evicts a model from tiers 1 and 2 and optionally deletes it from the store. -/
  | modelEvict (p : Packet)
  /-- `MODEL_INFO` (R446). Reports a model's tiers and last use, and optionally writes its info record. -/
  | modelInfo (p : Packet)
  /-- `SEQ_CREATE` (R275). Creates a sequence or conversation, charging its directory and page lists to the KV quota. -/
  | seqCreate (p : Packet)
  /-- `SEQ_FREE` (R275). Cancels the sequence's appends and forks, then frees its directory, lists and entries and lowers frame counts. -/
  | seqFree (p : Packet)
  /-- `SEQ_APPEND` (R214). Feeds positions into a sequence through batch steps, writing KV pages and outputs. -/
  | seqAppend (p : Packet)
  /-- `SEQ_FORK` (R209). Creates a child sequence that shares the parent's pages up to position AT. -/
  | seqFork (p : Packet)
  /-- `STREAM_OPEN` (R246). Opens a stream bound to a recurrence model, with its initial state and carried state. -/
  | streamOpen (p : Packet)
  /-- `STREAM_CHUNK` (R248). Runs positions of a stream in whole scan chunks, committing the carried state at each chunk end. -/
  | streamChunk (p : Packet)
  /-- `STREAM_CLOSE` (R252). Optionally cancels lower-SSEQ commands, waits its turn and frees the stream. -/
  | streamClose (p : Packet)
  /-- `STATE_SWAP` (R251). Moves, saves, loads or resets a stream's carried state in one commit. -/
  | stateSwap (p : Packet)
  /-- `GRAPH_RUN` (R276). Runs one forward pass of a model graph as a batch step member. -/
  | graphRun (p : Packet)
  /-- `STEP_POLICY` (R277). Sets or reads a model's step policy, or reads a sequence-table slot or context entry. -/
  | stepPolicy (p : Packet)
  /-- `MATMUL` (R159). OP_RUN matrix product with gate-pipeline stages, cut into tile commands. -/
  | matmul (p : Packet)
  /-- `CONV2D` (R193). OP_RUN convolution on tiles or edge engines, with stripes and tap decomposition. -/
  | conv2d (p : Packet)
  /-- `POOL2D` (R196). OP_RUN max or average pooling through the gate-pipeline reduction adder. -/
  | pool2d (p : Packet)
  /-- `ATTENTION` (R228). OP_RUN forward attention over sequence pages or tensor keys, with online softmax. -/
  | attention (p : Packet)
  /-- `TRAIN_STEP` (R231). Runs forward and backward passes of a base model with an adapter and writes gradients. -/
  | trainStep (p : Packet)
  /-- `LISTEN_POLICY` (R69). Sets the listening mode, armed sources, thresholds and stage-3 wake resources at a frame boundary. -/
  | listenPolicy (p : Packet)
  /-- `WAKE_ARM` (R70). Sets the armed wake sources, or makes a manual wake now. -/
  | wakeArm (p : Packet)
  /-- `AUDIO_READ` (R72). Reads released audio frames at or after the release point, parking for frames or a wake when WAIT is set. -/
  | audioRead (p : Packet)
  /-- `CAMERA_CONFIG` (R75). Configures a camera port, opens or closes its image gate, or disables it. -/
  | cameraConfig (p : Packet)
  /-- `CAMERA_PARAMS` (R84). Schedules exposure, gain and white-balance writes so that they take effect on one target frame. -/
  | cameraParams (p : Packet)
  /-- `FRAME_READ` (R96). Reads stored frame records, statistics or embedded data while the image gate is open. -/
  | frameRead (p : Packet)
  /-- `DOMAIN_POLICY` (R365). Sets a domain's timers and ceiling, requests an entry or return, sets the retention set, or reads a domain. -/
  | domainPolicy (p : Packet)
  /-- `POWER_LIMIT` (R367). Sets or reads the package power limit. -/
  | powerLimit (p : Packet)
  /-- `POWER_STATS` (R368). Writes the power header and domain records, optionally clearing the refusal counts. -/
  | powerStats (p : Packet)
  /-- `FW_STAGE` (R325). Copies a firmware image into the G0 staging region and checks it. -/
  | fwStage (p : Packet)
  /-- `FW_ACTIVATE` (R326). Re-checks the staged image, waits for the component's quiescent point and switches to it. -/
  | fwActivate (p : Packet)
  /-- `FW_QUERY` (R327). Writes the firmware record with versions, NOR state and staged images. -/
  | fwQuery (p : Packet)
  /-- `FAULT_READ` (R345). Writes the fault records the tenant may read, in log order. -/
  | faultRead (p : Packet)
  /-- `FAULT_CLEAR` (R346). Removes the named fault records and re-arms their source instances. -/
  | faultClear (p : Packet)
  /-- `FAULT_INJECT` (R347). Arms a checker to receive inverted check bits on its next operation. -/
  | faultInject (p : Packet)
  /-- `COUNTER_READ` (R390). Takes or returns a counter snapshot and writes counter or bin records. -/
  | counterRead (p : Packet)
  /-- `TRACE_CONFIG` (R395). Replaces the trace settings of the named destinations. -/
  | traceConfig (p : Packet)
  /-- `WATCH_SET` (R396). Arms or disarms a tensor-watch slot. -/
  | watchSet (p : Packet)
  /-- `TIME_SYNC` (R384). Sets how peer-record stamps relate to the time bases of other units. -/
  | timeSync (p : Packet)
  /-- `GROUP_JOIN` (R374). Joins a Kraotas group and completes once every peer is present. -/
  | groupJoin (p : Packet)
  /-- `PEER_SEND` (R377). Cuts a source into wire units and sends each, under credit, to a peer's staging slot. -/
  | peerSend (p : Packet)
  /-- `PEER_CREDIT` (R381). Returns credits to a peer and writes the control block. -/
  | peerCredit (p : Packet)
  /-- `GROUP_LEAVE` (R376). Waits for or cancels peer sends, writes PSTATE 2 to peers and leaves the group. -/
  | groupLeave (p : Packet)
  /-- `NOT_BEFORE_REACHED` (R42). A held packet's NOT_BEFORE target tick arrives and the packet may start. -/
  | notBeforeReached (id : Nat)
  /-- `DEADLINE_PASSED` (R43). A command's deadline passes uncommitted; its uncommitted work is killed and it completes with the R43 status. -/
  | deadlinePassed (id : Nat)
  /-- `DOORBELL` (R101). An 8-byte doorbell write publishes SQ_TAIL and CQ_HEAD, or is refused with DB_ERROR. -/
  | doorbell (fn : Fn) (ring : Nat) (size : Nat) (v : U64)
  /-- `ADMIN_ENABLE` (R431). A write to ADMIN_ENABLE enables the admin ring (zeroing its completion word) or disables it, or is refused with ADMIN_ERROR. -/
  | adminEnable (fn : Fn) (v : U32)
  /-- `RING_SPLIT` (R97). A write sets how many rings PF1 owns, accepted only while both admin rings are disabled. -/
  | ringSplit (fn : Fn) (v : U32)
  /-- `PARTITION` (R306). A write sets the tenant partition and starts clearing of the moved units. -/
  | partition (fn : Fn) (v : U32)
  /-- `MEM_CONFIG` (R290). A write sets grains, disturbance threshold and NAND read limit; a grain change evicts pool models and empties frame stores. -/
  | memConfig (fn : Fn) (v : U64)
  /-- `RING_STATUS_READ` (R430). A read of RING_STATUS returns the ring state and clears DB_IGNORED; `half` names the half read by 4 bytes, `true` the upper. -/
  | ringStatusRead (fn : Fn) (ring : Nat) (half : Option Bool)
  /-- `REGISTER_WRITE` (R429). A write to a BAR0 or I3C register that has no row of its own updates its writable fields. -/
  | registerWrite (bus : Bus) (offset : Nat) (data : List Byte)
  /-- `PROGRAM_OEM_KEY` (R313). PROV_OP 1 programs OEM_KEY from PROV_DATA and blows OEM_KEY_SET, subject to the provisioning conditions. -/
  | programOemKey
  /-- `BLOW_OEM_LOCK` (R313). PROV_OP 2 blows OEM_LOCK, subject to the provisioning conditions. -/
  | blowOemLock
  /-- `BLOW_DBG_OFF` (R329). PROV_OP 3 blows DBG_OFF, removing trace, watch and binned counters. -/
  | blowDbgOff
  /-- `WAKE_PENDING` (R436). A write of 1 to WAKE_PENDING clears the flag. -/
  | wakePending (v : Byte)
  /-- `WAKE_COUNTS_READ` (R63). A read of WAKE_COUNTS returns and clears the extra-wake and privacy-press counts. -/
  | wakeCountsRead
  /-- `TEST_STOP` (R437). A write to TEST_STOP starts or ends the suppression of ALIVE edges. -/
  | testStop (v : Bool)
  /-- `TEST_STOP_EXPIRY` (R437). 12,288 tk after the write, TEST_STOP clears itself and ALIVE edges resume. -/
  | testStopExpiry
  /-- `RCV_CTRL_GO` (R414). A write of GO starts fetching, checking and writing a recovery image. -/
  | rcvCtrlGo (v : U64)
  /-- `RECOVERY_LOAD_DONE` (R414). A recovery load ends, writing REASON and clearing the component's FAILED bit if the image was accepted. -/
  | recoveryLoadDone (hostOk : Bool) (norOk : Bool)
  /-- `RECOVERY_RESET` (R414). 3,072 tk after FAILED becomes 0, the loader performs a Gorse power-on reset with BOOT_CAUSE 2. -/
  | recoveryReset
  /-- `ENTDAA` (R370). The I3C target takes part in dynamic address assignment. -/
  | entdaa (addr : BitVec 7)
  /-- `RSTDAA` (R370). The I3C target drops its dynamic address. -/
  | rstdaa
  /-- `SETNEWDA` (R435). The I3C target takes a new dynamic address. -/
  | setnewda (addr : BitVec 7)
  /-- `GETPID` (R370). The I3C target returns its 48-bit provisional ID. -/
  | getpid
  /-- `GETBCR` (R370). The I3C target returns BCR 0x00. -/
  | getbcr
  /-- `GETDCR` (R370). The I3C target returns DCR 0x00. -/
  | getdcr
  /-- `GETSTATUS` (R435). The I3C target returns its protocol-error bit and zeros elsewhere. -/
  | getstatus
  /-- `SYNC_MARK` (R383). On the broadcast vendor CCC 0x7B, the unit latches its STB and the mark number. -/
  | syncMark (mark : Byte)
  /-- `GORSE_POWER_ON_RESET` (R403). GRST_N low or a low Gorse rail puts Gorse, and with it the whole device, in reset. -/
  | gorsePowerOnReset (cause : ResetCause)
  /-- `GORSE_RESET_RELEASE` (R403). 8,192 tk after the reset conditions end, the reset releases, the STB starts at 0 and the boot chain begins. -/
  | gorseResetRelease
  /-- `ROM_CHECKS_DONE` (R405). The mask ROM finishes checking the six NOR images and starts GORSE_MAIN or enters recovery. -/
  | romChecksDone (dirOk : Bool)
  /-- `LAUREL_RELEASE` (R17). After its firmware is verified, Laurel is released from reset and asks for the custody lease. -/
  | laurelRelease
  /-- `TRAINING_DONE` (R406). DRAM training finishes, with spares applied and the training record written; the FTL mount starts. -/
  | trainingDone (full : Bool) (failedCh : List Nat)
  /-- `FTL_MOUNT_DONE` (R301). The FTL mount of the NAND channels ends, CAPS_VALID is set and the boot reaches stage 0x4. -/
  | ftlMountDone (failedNand : List Nat)
  /-- `PERST_N_ASSERT` (R124). PERST_N assertion acts as a function-level reset of both functions. -/
  | perstNAssert
  /-- `PERST_N_RISE` (R410). PERST_N rises and LTSSM Detect begins once LINK is ON. -/
  | perstNRise
  /-- `CONFIG_REQUEST` (R412). A PCIe configuration request receives Retry Status until CAPS_VALID or 900 ms, then completes normally. -/
  | configRequest (fn : Fn)
  /-- `FUNCTION_LEVEL_RESET` (R124). A function-level reset closes the function's session without completions and disables its admin ring. -/
  | functionLevelReset (fn : Fn)
  /-- `D3COLD_ENTRY` (R124). Entry to D3cold closes both sessions and stops fetch and host writes. -/
  | d3coldEntry
  /-- `D3HOT_ENTRY` (R127). Entry to D3hot stops fetch and host writes; completions are held. -/
  | d3hotEntry (fn : Fn)
  /-- `D0_RETURN` (R127). When the function is back in D0 with the link in L0, held completions are written in order and PEWAKE_N is released. -/
  | d0Return (fn : Fn)
  /-- `PRIV_N_LOW` (R65). PRIV_N low forces mic, vibration and camera domains OFF, closes the gates and wipes the ring. -/
  | privNLow
  /-- `PRIV_N_RELEASE` (R67). After PRIV_N has read high for 20 ms, Gorse returns the forced domains with an empty ring. -/
  | privNRelease
  /-- `TALK_N_PRESS` (R59). A TALK_N falling edge that passes the 5 ms debounce is a wake source with its release point. -/
  | talkNPress (edge : Nat)
  /-- `TALK_N_RELEASE` (R63). A debounced TALK_N release while the gate is open sets END_OF_TURN in the frame. -/
  | talkNRelease (edge : Nat)
  /-- `VOLTAGE_MONITOR_TRIP` (R421). A rail more than 6 % below nominal for 1 µs raises a FATAL or INTEGRITY fault. -/
  | voltageMonitorTrip (rail : Rail)
  /-- `CLOCK_MONITOR_TRIP` (R426). A crystal or clock out of range or stopped raises the clock-monitor fault. -/
  | clockMonitorTrip (clk : ClockMon)
  /-- `THERMAL_CAP` (R364). The junction crossing 100 °C or falling below 95 °C sets or clears the 8 W cap of the effective limit. -/
  | thermalCap (temp : Int)
  /-- `AUDIO_FRAME_BOUNDARY` (R51). At each 30,720-tk boundary the frame is recorded, stage 0 tests it and frame-boundary changes take effect. -/
  | audioFrameBoundary (a : AudioIn)
  /-- `CANDIDATE_OPEN` (R53). A keyword score at or above S1_THRESHOLD opens a candidate and starts MICB. -/
  | candidateOpen (score : Nat)
  /-- `STAGE_2_DECISION` (R54). Stage 2 accepts or rejects the candidate; an acceptance is a wake decision that fixes the release point and requests stage 3. -/
  | stage2Decision (ver : Nat) (spk : Nat) (phraseEnd : Nat) (dir : Option Nat)
  /-- `CANDIDATE_TIMEOUT` (R55). A candidate still undecided 2 s after opening is rejected. -/
  | candidateTimeout
  /-- `GATE_OPEN` (R60). After older frames are invalidated and zero-filled, the privet gate opens for the wake. -/
  | gateOpen
  /-- `RELEASE_MAX_ELAPSED` (R62). RELEASE_MAX after the release point, the gate is due to close at the next frame boundary. -/
  | releaseMaxElapsed
  /-- `CSI2_PACKET` (R74). A CSI-2 packet arrives at a camera receiver and is used, corrected, repaired or discarded and counted. -/
  | csi2Packet (port : Nat) (k : CsiPacket)
  /-- `FRAME_START` (R90). A frame start arrives: settings writes begin, the image gate may open or close, and CAMERA_PARAMS complete. -/
  | frameStart (port : Nat) (h : FrameStart)
  /-- `FRAME_END` (R88). A frame ends; the ISP finishes the frame, statistics and motion, and vision stage 1 may fire. -/
  | frameEnd (port : Nat) (ecc : HeaderEcc)
  /-- `STREAM_STALL` (R88). No frame start for 4 frame periods logs a CORRECTED fault. -/
  | streamStall (port : Nat)
  /-- `CAMERA_TRIGGER` (R41). On a tick congruent to SYNC_PHASE, CAMn_SYNC pulses in trigger mode. -/
  | cameraTrigger (port : Nat)
  /-- `INIT_WAIT` (R78). After INIT_WAIT on camera power-up, the initialisation list is written and the receiver arms. -/
  | initWait (port : Nat)
  /-- `I2C_TRANSFER_DONE` (R77). A camera I2C write ends, with success, late completion, or retry and failure after three attempts. -/
  | i2cTransferDone (port : Nat) (ok : Bool) (late : Bool)
  /-- `PRESENCE_SCORE` (R93). Vision stage 1 scores a presence frame every 1,536,000 tk; stage 2 may fire. -/
  | presenceScore (port : Nat) (score : Nat) (att : Nat) (faces : Nat)
  /-- `ABSENT_HOLD` (R91). Presence or motion below threshold for ABSENT_HOLD closes a stage-2 image gate or stops stage 1. -/
  | absentHold (port : Nat)
  /-- `RENEWAL_DUE` (R18). Every 2,048 tk by its mirror, Laurel sends a custody renewal carrying the epoch. -/
  | renewalDue
  /-- `RENEWAL` (R18). Gorse receives a renewal, acknowledges a valid one and moves the expiry, or revokes on an epoch mismatch. -/
  | renewal (epoch : U32)
  /-- `ACKNOWLEDGEMENT` (R19). Laurel receives a renewal acknowledgement and keeps the lease. -/
  | acknowledgement (expiry : Nat)
  /-- `LEASE_GUARD` (R19). Laurel's mirror reaches the expiry less 16 tk and Laurel stops fetch and non-contest writes. -/
  | leaseGuard
  /-- `LEASE_EXPIRY` (R20). Gorse's expiry passes unacknowledged: state REVOKED, cause MISSED_RENEWAL, custody line low. -/
  | leaseExpiry
  /-- `REVOKE` (R20). Laurel receives the revoke message, latches ring tails, kills uncommitted work and writes CONTESTED completions. -/
  | revoke
  /-- `QUIET` (R21). Gorse receives Laurel's quiet report and grants the next epoch, or resets Laurel after a FATAL. -/
  | quiet
  /-- `QUIET_TIMEOUT` (R21). 4,096 tk after a revoke with no quiet report, Gorse resets the Laurel domains. -/
  | quietTimeout
  /-- `GRANT` (R25). Gorse receives Laurel's grant request after release or CTRL return and grants the next epoch. -/
  | grant
  /-- `RELINQUISH` (R24). Gorse receives a relinquish message and sets RELINQUISHED with no cause. -/
  | relinquish (epoch : U32)
  /-- `FLIT_RECEIVED` (R9). A die-link flit arrives; a bad CRC is refused and replayed, and the replay limit starts retraining. -/
  | flitReceived (dir : Nat) (f : Flit)
  /-- `RETRAINING_ATTEMPT` (R9). A die-link retraining attempt ends; success resumes the link, failure repeats it. -/
  | retrainingAttempt (ok : Bool)
  /-- `RETRAIN_LIMIT` (R9). The link not trained within 8,192 tk of the replay limit raises FATAL source 0x10. -/
  | retrainLimit
  /-- `CHECK_MESSAGE` (R32). A mirror compares itself with Gorse's STB check value and logs a fault and reloads on a mismatch. -/
  | checkMessage (dom : Nat) (v : Nat)
  /-- `EXACT_RELOAD` (R36). A region's mirror loads the exact STB value, ending its uncertainty window. -/
  | exactReload (dom : Nat) (v : Nat)
  /-- `STROBE_LOST` (R34). A running region that registers no strobe edge for 1 µs raises a FATAL fault. -/
  | strobeLost (dom : Nat)
  /-- `HEALTH_MESSAGE` (R350). Every 1,024 tk the Laurel collector sends a health message to the master. -/
  | healthMessage
  /-- `HEALTH_LOST` (R350). 3,072 tk with no Laurel health message raises FATAL source 0x1E. -/
  | healthLost
  /-- `WATCHDOG_EXPIRY` (R350). A Gorse or CP watchdog expires without a kick and raises FATAL. -/
  | watchdogExpiry (which : Watchdog)
  /-- `ALIVE_EDGE` (R349). On each multiple of 1,536 tk, ALIVE toggles unless a fault, watchdog or missing health message suppresses it. -/
  | aliveEdge
  /-- `CAPTURE_FORWARD` (R330). The master collector receives a forwarded Laurel capture and logs it. -/
  | captureForward
  /-- `LAUREL_FATAL` (R332). A Laurel FATAL halts Laurel engines at commit boundaries and makes Gorse revoke with FATAL_LAUREL. -/
  | laurelFatal (src : Nat) (inst : Nat)
  /-- `GORSE_FATAL` (R335). A Gorse FATAL halts the Gorse controller and listen core and revokes Laurel, which is not returned. -/
  | gorseFatal (src : Nat) (inst : Nat)
  /-- `INTEGRITY_FAULT` (R336). An INTEGRITY fault closes the gates, stops all release and holds Laurel in reset. -/
  | integrityFault (src : Nat) (inst : Nat)
  /-- `TILE_RETIREMENT` (R12). Gorse firmware retires a failed tile or row and maps a spare at the next tile-command boundary. -/
  | tileRetirement (tile : Nat) (row : Bool)
  /-- `SRAM_SCRUB` (R338). The periodic SRAM scrub checks lines and corrects or classes errors. -/
  | sramScrub (reg : SramRegion) (unit : Nat) (bits : Nat) (addr : Nat)
  /-- `STEP_RELEASE` (R255). A model's next batch step is built and released, pre-empting lower-class steps. -/
  | stepRelease (fn : Fn) (model : Nat)
  /-- `TILE_COMMAND_ADMIT` (R362). At a tile-command boundary a coppice admits a tile or edge command in class order under the power limit. -/
  | tileCommandAdmit (t : WorkCut) (measured : Energies)
  /-- `TILE_COMMAND_COMMIT` (R155). A tile command ends, its checksum comparisons pass or fail, and its outputs commit or are discarded and re-run. -/
  | tileCommandCommit (t : WorkCut) (upset : Option Upset)
  /-- `EDGE_COMMAND_COMMIT` (R339). An edge command ends, its check lane is compared and its outputs commit or are re-run. -/
  | edgeCommandCommit (t : WorkCut) (upset : Option Upset)
  /-- `SCAN_CHUNK_COMMIT` (R248). The scan unit combines a scan chunk and commits the carried state, DONE and the chunk's outputs. -/
  | scanChunkCommit (id : Nat) (compareOk : Bool)
  /-- `STEP_COMMIT` (R258). A batch step commits lengths, KV pages, statistics and states, and completes finished member commands. -/
  | stepCommit (fn : Fn) (model : Nat)
  /-- `PAGE_WAIT_END` (R219). Frames become available and parked sequences are tried in class and park order and served. -/
  | pageWaitEnd (fn : Fn)
  /-- `SLOT_GRANT` (R254). A command waiting for a sequence-table slot is given one in class and start order. -/
  | slotGrant (fn : Fn)
  /-- `PREFETCH_COMMIT` (R250). A stream-state prefetch to tier 2 commits and the waiting chunk writes RESIDENCY_END. -/
  | prefetchCommit (stream : Nat)
  /-- `MODEL_RESIDENT` (R271). A model finishes becoming resident in tier 2 and waiting commands resume. -/
  | modelResident (fn : Fn) (model : Nat)
  /-- `NOR_WRITE_DONE` (R327). Gorse's NOR write of an activated image ends and its read-back sets NOR_STATE 0 or 2; the anti-rollback target is updated. -/
  | norWriteDone (readbackOk : Bool)
  /-- `PATROL_SCRUB` (R294). The patrol scrub reads a line, rewrites a corrected one and poisons an uncorrectable one. -/
  | patrolScrub (line : Nat) (r : LineResult)
  /-- `MIGRATION_UNIT` (R296). One 64 KiB unit of a rank migration is copied; after the last, the spare takes the rank's addresses. -/
  | migrationUnit (ch : Nat) (rank : Nat) (badLines : List Nat)
  /-- `TRAINING_CHECK` (R295). The 100 ms per-channel training check may start retirement or retraining. -/
  | trainingCheck (ch : Nat) (badRank : Option Nat) (drift : Bool)
  /-- `RETRAINING_DONE` (R299). A channel's online retraining ends and its data returns from the spare. -/
  | retrainingDone (ch : Nat)
  /-- `DISTURB_WINDOW` (R293). At each 32 ms window boundary the per-bank activate tables are cleared. -/
  | disturbWindow (ch : Nat) (bank : Nat)
  /-- `READ_REFRESH` (R302). A NAND block that reaches the read limit is relocated in the background. -/
  | readRefresh (ch : Nat) (block : Nat)
  /-- `PROGRAM_FAILURE` (R302). A NAND program or erase fails; the block is retired and the channel may become read-only. -/
  | programFailure (ch : Nat) (block : Nat)
  /-- `PARTITION_CLEAR_DONE` (R307). Clearing of moved units ends and PART_BUSY clears. -/
  | partitionClearDone
  /-- `BUSY_EDGE` (R41). The PMU receives a stamped busy edge for a domain, which may abort an entry. -/
  | busyEdge (dom : Nat) (stamp : Nat) (d : Demand)
  /-- `IDLE_EDGE` (R353). The PMU receives a stamped idle edge and starts the domain's idle timers. -/
  | idleEdge (dom : Nat) (stamp : Nat)
  /-- `IDLE_TIMER_EXPIRY` (R353). A domain's RET or OFF idle timer expires. -/
  | idleTimerExpiry (dom : Nat)
  /-- `ENTRY_START` (R355). 8 tk after expiry the PMU sends the entry request, opening the refusal window. -/
  | entryStart (dom : Nat)
  /-- `CLOCK_STOP_POINT` (R355). An entry passes its clock-stop point unrefused; CTRL relinquishes the lease at this point. -/
  | clockStopPoint (dom : Nat)
  /-- `ENTRY_COMPLETE` (R355). A domain's entry to RET or OFF completes. -/
  | entryComplete (dom : Nat)
  /-- `RETURN_COMPLETE` (R358). A domain is ON after a return; its mirror loads coarse time and the next class starts. -/
  | returnComplete (dom : Nat)
  /-- `CONTROL_BLOCK_WRITE` (R372). A joined unit writes its control block to every peer at least every 1,536 tk. -/
  | controlBlockWrite
  /-- `CONTROL_BLOCK` (R373). A peer's control block arrives, updating presence, credits and pair state. -/
  | controlBlock (w : Nat) (c : ControlBlock)
  /-- `SLOT_HEADER` (R379). A slot header arrives; the receiver checks and decodes the unit and signals RX_SEM, or breaks the pair. -/
  | slotHeader (w : Nat) (h : SlotHeader) (wire : List Byte)
  /-- `PEER_ABSENT` (R373). 9,216 tk with no control block makes a peer absent. -/
  | peerAbsent (w : Nat)
  /-- `SNAPSHOT_BROADCAST` (R388). OBS issues a snapshot broadcast and each ON domain latches its counters. -/
  | snapshotBroadcast (arrivals : List (Nat × Nat))
  /-- `GROUP_JOIN_TIMEOUT` (R374). 3,072,000 tk after a GROUP_JOIN starts with DL_EN clear, peers still absent make it complete GROUP_ABSENT and the unit leaves as with ABORT. -/
  | groupJoinTimeout
  /-- `LINK_STATE_CHANGE` (R127). The PCIe link reaches L0 or enters L1, L1.1, L1.2 or L2, which changes the LINK domain state, allows held writes and releases a PEWAKE_N assertion made for L1.2. -/
  | linkStateChange (lk : LinkState)
  /-- `PROVISIONING_DONE` (R313). A fuse provisioning operation ends after its blow is read back, writing PROV_RESULT and clearing PROV_BUSY. -/
  | provisioningDone (readbackOk : Bool)
deriving DecidableEq, Repr

end Sys2Proof
end

