-- ==== Sys2Proof/Config.lean ====
section
/-! DEFINITION. What the spec leaves open or takes from outside: constants with no body. Nothing in Lean can evaluate
them, so whatever is proved holds for every value they could have (notes/assumptions/1.md, 9.md, 10.md). -/

namespace Sys2Proof.Config

/-- The n-th free byte. -/
opaque freeByte : Nat → Byte

/-- The n-th free 32-bit pattern: results that the spec only bounds, or leaves to a model's program (06 R152, R158; 11 R276). -/
opaque freeBits : Nat → U32

/-- Choices by which the device orders the additions of its n-th FP32 sum, whose order is not specified (06 R135, R158). -/
opaque sumPick : Nat → Nat → Nat

/-- The exponential the device evaluates in its n-th run of them, brought within its bound by the rule that uses it (06 R152). -/
opaque expPick : Nat → U32 → U32

/-- The n-th free number: energies, measured baselines and solo estimates (15 R363, 11 R278). -/
opaque freeNat : Nat → Nat

/-- The n-th output of the DRBG (05 R121, 13 R316). -/
opaque drbg : Nat → U256

/-- KMAC256 with a 256-bit output (05 R121, 13 R311, R317, R319): key, message, customisation string. -/
opaque kmac256 : U256 → List Byte → List Byte → U256

/-- SHA3-256 (13 R310, R314, R323). -/
opaque sha3 : List Byte → U256

/-- ML-DSA-44 signature by the key of a seed, over a message with a context string, hedged by the n-th DRBG output. -/
opaque mldsaSign : U256 → List Byte → List Byte → Nat → List Byte

/-- ML-DSA-44 verification: public key, message, context string, signature. -/
opaque mldsaVerify : List Byte → List Byte → List Byte → List Byte → Bool

/-- ML-KEM-768 encapsulation key of the n-th pair (13 R316). -/
opaque kemEk : Nat → List Byte

/-- ML-KEM-768 decapsulation of a ciphertext by the n-th pair (13 R317). -/
opaque kemDecaps : Nat → List Byte → U256

/-- AES-256-GCM sealing: key, initialisation vector, additional data, plaintext; answers ciphertext and tag. -/
opaque gcmSeal : U256 → List Byte → List Byte → List Byte → List Byte × List Byte

/-- AES-256-GCM opening: key, initialisation vector, additional data, ciphertext, tag; nothing where the tag fails. -/
opaque gcmOpen : U256 → List Byte → List Byte → List Byte → List Byte → Option (List Byte)

/-- The digests of the four firmware-signing keys in the Gorse mask ROM (13). -/
opaque romKeyDigest : Nat → U256

/-- The product-CA and device certificates in the NOR certificate area (13 R312). -/
opaque certificates : List Byte × List Byte

/-- The 64 segments (C0, C1, C2) of a built-in nonlinear table for `NL_FUNC`, `E_WK` and `E_NL` (06 R151). -/
opaque nlTable : Nat → Int → Int → List (Int × Int × Int)

/-- Which of several best sets of code lengths the compression engine takes for a histogram (07 R175). -/
opaque tableChoice : List Nat → List Nat

/-- Whether the sections of a graph image that lie outside the manual are consistent (11 R448). -/
opaque imageConsistent : List Byte → Bool

/-- The layers (CHANNELS, STATE_N) of the recurrence section of a graph image (10 R233, 11 R448). -/
opaque recurrenceLayers : List Byte → List (Nat × Nat)

/-- Fields of recurrence layer `l` of a graph image (10 R233): whether it is GATED, `HEAD_CH`, whether a gate *g* is present, and the
format, zero point and exponent of its input and of its output. -/
opaque layerGated : List Byte → Nat → Bool
opaque layerHeadCh : List Byte → Nat → Nat
opaque layerGate : List Byte → Nat → Bool
opaque layerInput : List Byte → Nat → Nat × Int × Int
opaque layerOutput : List Byte → Nat → Nat × Int × Int

/-- A layer's constants (10 Table 10.1): image, layer, which (0 *a* of a FIXED layer or *A* of a GATED one, 1 *B*, 2 *C*, 3 *D*), channel or head,
element. -/
opaque layerConst : List Byte → Nat → Nat → Nat → Nat → U32

/-- A stream that a graph's program gives a layer: image, layer, run, which (0 *x*, 1 Δ, 2 *B*, 3 *C*, 4 *g*), position, channel or head, element. -/
opaque layerIn : List Byte → Nat → Nat → Nat → Nat → Nat → Nat → U32

/-- Element n of a model's output from what its recurrence layers give in a scan chunk, and the run of open values. -/
opaque programOut : List Byte → List (List (List Nat)) → Nat → Nat → U32

/-- The power that the command processor evaluates for a table, brought within its bound by the rule that uses it (10 R235). -/
opaque powPick : U32 → Nat → U32

/-- `NARROW_E` of the layer of a state element in a graph image (10 Table 10.3). -/
opaque narrowE : List Byte → Nat → Int

/-- `CHUNK_LEN` of a graph image (10 R236); the rule that uses it brings it into 1 to 256. -/
opaque chunkLen : List Byte → Nat

/-- The attention fields of a layer of a graph image (09 R221): the mask bits of `ATTENTION`, `E_SCORE`, `WINDOW` and `PREFIX`. -/
opaque attnFields : List Byte → Nat → Nat × Int × Nat × Nat

/-- Element n of an adapter's gradient in its own layout, from the graph image, what the backward passes of its layers give and the run of open values
(09 R230, R231; 11 R448). -/
opaque adapterGrad : List Byte → List (List (List (List U32))) → Nat → Nat → U32

/-- The query heads of a graph image, for the shape of the `STATS` descriptor (09 Table 9.4). -/
opaque queryHeads : List Byte → Nat

/-- Where in its group's device reserve a group's block of the context table begins (11 R262, 12 R281). -/
opaque contextTable : Nat → Nat

/-- The solo estimate of a step in ticks: image, members, positions, coppices (11 R278). -/
opaque soloEstimate : List Byte → Nat → Nat → Nat → Nat

/-- Coppice-buffer ways that a model's working copies need (11 R261). -/
opaque workWays : List Byte → Nat

/-- The PMU's energy estimate of a tile or edge command from its mode and its cycle count, in µJ (15 R362). -/
opaque energyEstimate : Nat → Nat → Nat

/-- The estimate for a tile command of a model's program, whose mode and cycles are the program's (15 R362). -/
opaque programEnergy : List Byte → Nat

/-- The `PART_CONFIG` fuses of a part, whose bits the spec does not lay out (13 Table 13.4): by its BCD number. -/
opaque partConfig : Nat → Nat

/-- Whether the image pipeline rounds a quotient that is not whole up: numerator and denominator (04 Table 4.3). -/
opaque ispRoundsUp : Int → Nat → Bool

/-- A sample of the image pipeline that the spec does not state: a quotient by 0, a sample that a short line lacks. -/
opaque ispFree : Int → Int

/-- Where between two merged exposures the blend of the 5 % band lies (04 R80). -/
opaque mergeMix : Nat → Nat → Nat

/-- Whether dynamic detection takes a sample of a mosaic (row list, x, y) for a defect, and what a corrected sample becomes (04 Table 4.3, stage 3). -/
opaque defectSeen : List (List Nat) → Nat → Nat → Bool
opaque defectFill : List (List Nat) → Nat → Nat → Nat

/-- Demosaic (04 Table 4.3, stage 6): `BAYER`, the mosaic, x and y to R, G and B. -/
opaque demosaic : Nat → List (List Nat) → Nat → Nat → Nat × Nat × Nat

/-- Y (16 bits), Cb and Cr of a corrected colour. -/
opaque toYuv : Int × Int × Int → Nat × Byte × Byte

/-- A sample of the scalers (04 Table 4.3, stage 9): plane, output width and height, x and y. -/
opaque scale : List (List Byte) → Nat → Nat → Nat → Nat → Byte

/-- The zone mean of Y after stage 5 from those of R, G and B (04 Table 4.5). -/
opaque lumaMean : Nat → Nat → Nat → Nat

end Sys2Proof.Config
end

