-- ==== Sys2Proof/Machine/State.lean ====
section
/-! DEFINITION. The state of the block as plain data: every register, queue, buffer, counter, mode and pin the
spec gives it, the queue of waiting commands, the reasons a command can stop, and the state after reset. -/

namespace Sys2Proof.Machine

/-- The parts of the family (00 Table 0.1). -/
inductive Part where
  | wy6480 | wy6472 | wy6440
deriving DecidableEq, Repr

/-- The fused data of the package (13 Table 13.4, 16 Table 16.1, 20 R419) and the grade marked on it (00 Table 0.3). -/
structure Fuses where
  part : Part := .wy6480
  gradeE : Bool := false
  gorseDieId : U64 := 0
  laurelDieId : U64 := 0
  identitySeed : U256 := 0
  oemKey : U256 := 0
  oemKeySet : Bool := false
  oemLock : Bool := false
  dbgOff : Bool := false
  fwKeyRevoke : BitVec 4 := 0
  antiRollback : Nat := 0
  vlTarget : BitVec 5 := 0
  i3cMfr : BitVec 15 := 0
  i3cInstance : U16 := 0
deriving DecidableEq, Repr

/-- The boot chain, the capability map count and the recovery loader (19 Table 19.3, Table 19.4; 21 R439). -/
structure Boot where
  inReset : Bool := true
  stage : Nat := 0
  capsValid : Bool := false
  trainFull : Bool := false
  mountReplay : Bool := false
  recovery : Bool := false
  failed : BitVec 6 := 0
  cause : Nat := 0
  laurelReleased : Bool := false
  laurelHeld : Bool := false
  orderly : Bool := true
  mapGen : Nat := 0
  rcvSrc : U64 := 0
  rcvComponent : Nat := 0
  rcvBusy : Bool := false
  rcvReason : Nat := 0
  rcvLen : Nat := 0
  resetAt : Option Nat := none
deriving DecidableEq, Repr

/-- The mirror counter of one Laurel clock region (02 R32, R36): its offset from the STB, and whether the exact
value is still awaited. -/
structure Mirror where
  dom : Nat
  offset : Int := 0
  uncertain : Bool := false
deriving DecidableEq, Repr

/-- Custody states (01 Table 1.8). -/
inductive CustodyState where
  | none | granted | revoked | relinquished
deriving DecidableEq, Repr

/-- The custody register of Gorse and both dies' sides of the lease (01 R18 to R26). `stopped` is Laurel's own
stop of fetch and host writes under R19; `quiescing` spans from the revoke to the quiet report. -/
structure Custody where
  epoch : U32 := 0
  state : CustodyState := .none
  cause : Nat := 0
  revocations : Nat := 0
  line : Bool := false
  expiry : Nat := 0
  laurelExpiry : Nat := 0
  renewAt : Nat := 0
  renewals : List U32 := []
  acks : List Nat := []
  stopped : Bool := false
  quiescing : Bool := false
  revokedAt : Option Nat := none
  revokeSeen : Bool := false
  quietSent : Bool := false
  grantAsked : Bool := false
  heldWake : Bool := false
  noReturn : Bool := false
deriving DecidableEq, Repr

/-- The die link (01 Table 1.2, R9). -/
structure DieLink where
  trained : Bool := false
  limitAt : Option Nat := none
  limitDir : Nat := 0
  replaysGL : Nat := 0
  replaysLG : Nat := 0
  seqGL : U16 := 0
  seqLG : U16 := 0
deriving DecidableEq, Repr

/-- D-states of a PCIe function (05 R127). -/
inductive DState where
  | d0 | d3hot | d3cold
deriving DecidableEq, Repr

/-- Answer to a configuration request (19 R412). -/
inductive ConfigAnswer where
  | none | retry | normal
deriving DecidableEq, Repr

/-- The host link (05 R127, R128; 19 R410, R412). `exitAsked` says that the device leaves a low-power state of the link by itself (R127). -/
structure Pcie where
  link : LinkState := .down
  d0 : DState := .d0
  d1 : DState := .d0
  detect : Bool := false
  perstRise : Option Nat := none
  answer : ConfigAnswer := .none
  exitAsked : Bool := false
deriving DecidableEq, Repr

/-- Levels of the balls the rules drive or read (20 Table 20.2); clock fields hold the rate in kHz, 0 = stopped low. `pdmARose` and `pdmBRose` say
that PDM_CLK_A and PDM_CLK_B rose on the tick that the STB shows, `vibFs` is the level of VIB_FS (02 R28, 03 R48). -/
structure Pins where
  grstN : Bool := false
  perstN : Bool := false
  privN : Bool := true
  talkN : Bool := true
  vpp : Bool := false
  clkreqLow : Bool := false
  pewakeLow : Bool := false
  pdmClkA : Nat := 0
  pdmClkB : Nat := 0
  vibBclk : Nat := 0
  pdmARose : Bool := false
  pdmBRose : Bool := false
  vibFs : Bool := false
  camEn0 : Bool := false
  camEn1 : Bool := false
  camMclk0 : Nat := 0
  camMclk1 : Nat := 0
  camSync0 : Option Nat := none
  camSync1 : Option Nat := none
  traceClk : Bool := false
deriving DecidableEq, Repr

/-- The admin-ring registers of one function (21 Table 21.2). -/
structure Admin where
  sqBase : U64 := 0
  cqBase : U64 := 0
  cwAddr : U64 := 0
  log2 : Nat := 4
  enable : Bool := false
  error : Bool := false
deriving DecidableEq, Repr

/-- BAR0 of PF0 and PF1, the half-register latches of R429, and the answer of the last register read (21). -/
structure Regs where
  ringSplit : Nat := 0x400
  partition : U32 := 0
  clearing : U32 := 0
  memConfig : U64 := 0x0000003208004444
  admin0 : Admin := {}
  admin1 : Admin := {}
  readLatch : List (Nat × Nat) := []
  writeLatch : List (Nat × Nat) := []
  ioOut : List Byte := []
deriving DecidableEq, Repr

/-- One ring pair (05 R97 to R108, 21 Table 21.3). `boost` is a class inherited under 11 R268, `spent` a completion ring past
the limit of 05 R108. -/
structure Ring where
  num : Nat
  enabled : Bool := false
  cls : Nat := 0
  log2 : Nat := 0
  sqBase : U64 := 0
  cqBase : U64 := 0
  cwAddr : U64 := 0
  sqTail : U32 := 0
  cqHead : U32 := 0
  fetched : U32 := 0
  cqTail : U32 := 0
  dbError : Bool := false
  dbIgnored : Nat := 0
  generation : Nat := 0
  session : Nat := 0
  expSeq : U32 := 0
  dropped : Nat := 0
  latched : Option U32 := none
  boost : Option Nat := none
  spent : Bool := false
deriving DecidableEq, Repr

/-- An outstanding session challenge (05 R121). -/
structure Challenge where
  id : Nat
  nonce : U256
  expires : Nat
deriving DecidableEq, Repr

/-- The session state of one function (05 R121 to R123, Table 5.7; 13 R319, R321). `keys` are the submission,
completion, inbound and outbound keys of a PF1 session. -/
structure Sess where
  number : Nat := 0
  opened : Nat := 0
  challenge : Option Challenge := none
  nextChallenge : Nat := 0
  fails : Nat := 0
  lockedUntil : Nat := 0
  keys : List U256 := []
  bnonce : Nat := 0
  gens : List (Nat × Nat) := []
deriving DecidableEq, Repr

/-- The packet opcodes, as the rows of the table split them (05 Table 5.10; OP_RUN by its operator). -/
inductive Op where
  | nop
  | badOpcode
  | capsRead
  | sessionOpen
  | sessionClose
  | attest
  | keyExchange
  | cancel
  | ringCreate
  | ringDestroy
  | semCreate
  | semSignal
  | semWait
  | fence
  | alloc
  | free
  | copy
  | placeHint
  | quotaSet
  | tableBuild
  | compress
  | modelLoad
  | modelPin
  | modelEvict
  | modelInfo
  | seqCreate
  | seqFree
  | seqAppend
  | seqFork
  | streamOpen
  | streamChunk
  | streamClose
  | stateSwap
  | graphRun
  | stepPolicy
  | matmul
  | conv2d
  | pool2d
  | attention
  | trainStep
  | listenPolicy
  | wakeArm
  | audioRead
  | cameraConfig
  | cameraParams
  | frameRead
  | domainPolicy
  | powerLimit
  | powerStats
  | fwStage
  | fwActivate
  | fwQuery
  | faultRead
  | faultClear
  | faultInject
  | counterRead
  | traceConfig
  | watchSet
  | timeSync
  | groupJoin
  | peerSend
  | peerCredit
  | groupLeave
deriving DecidableEq, Repr

/-- What a started command waits for. -/
inductive Wait where
  | others        -- the commands of `awaited` (FENCE, CANCEL, FREE, SEQ_FREE, GROUP_LEAVE, RING_DESTROY)
  | sem           -- 11 R267
  | gateOpen      -- 03 R72, 04 R96: the next opening of the gate
  | frames        -- 03 R73, 04 R96: more records
  | turn          -- 09 R214, 10 R247
  | slot          -- 11 R254
  | page          -- 09 R217
  | residency     -- 10 R250, 11 R271
  | policyHold    -- 03 R56
  | paramsTarget  -- 04 R85: the applied frame
  | quiescent     -- 13 R326
  | domain        -- 15 R358, R365
  | credit        -- 16 R378
  | join          -- 16 R374
  | injection     -- 14 R348
  | snapshot      -- 17 R388
  | step          -- 11 R258: positions in batch steps
  | tiles         -- 06 R155: tile or edge commands
  | units         -- 12 R289, 07 R177, 16 R378: its next commit
deriving DecidableEq, Repr

/-- Where an uncompleted packet stands (05 R113). -/
inductive Phase where
  | waiting
  | running
  | parked (w : Wait)
deriving DecidableEq, Repr

/-- A packet that was fetched and has not completed (05 R103, R104, R111). `id` numbers packets in fetch order over
all rings; `pos` is the ring position; `body` and `block` are plaintext. `cnt`, `first`, `lost`, `aux`, `misc` hold the
results gathered so far, `res` the ordinary result for the work committed so far (R117), `meas` and `est` the step times
of 11 R278. -/
structure Cmd where
  id : Nat
  fn : Fn
  op : Op
  pkt : Packet
  pos : U32 := 0
  session : Nat := 0
  cls : Nat := 1
  isSealed : Bool := false
  fetchStamp : Nat := 0
  startStamp : Nat := 0
  nb : Option Nat := none
  dl : Option Nat := none
  phase : Phase := .waiting
  warn : BitVec 8 := 0
  cnt : Nat := 0
  first : Nat := 0
  lost : Nat := 0
  steps : Nat := 0
  aux : Nat := 0
  misc : List Nat := []
  sseq : Nat := 0
  meas : Nat := 0
  est : Nat := 0
  awaited : List Nat := []
  resWaited : Bool := false
  res : List Byte := []
deriving DecidableEq, Repr

/-- The turn of a tenant's class at fetch (05 R115): the ring last served and the packets taken from it in this turn. -/
structure Turn where
  fn : Fn
  cls : Nat
  ring : Nat
  taken : Nat
deriving DecidableEq, Repr

/-- A completed packet kept for the last-2^n search of CANCEL (05 R118). -/
structure Fetched where
  id : Nat
  ring : Nat
  pos : U32
  seq : U32
deriving DecidableEq, Repr

/-- A completion record, a progress record or (with `addr`) data for host memory that cannot be written yet (05 R127). -/
structure Held where
  fn : Fn
  ring : Nat
  isSealed : Bool := false
  addr : Option Nat := none
  record : List Byte
deriving DecidableEq, Repr

/-- A sparse memory: bytes at rising addresses, none equal to what an unlisted address reads as. -/
abbrev Mem := List Host.Cell

/-- An allocation of a tenant (12 R284), `obj` 0 to 4, or a region the device charges for itself: 16 a sequence's
directory and lists, 17 a carried state, 18 an initial copy, 19 a frame store, 20 a resident model, 21 a pinned tier-1
copy, 22 an installed model. `owner` is the handle, model or port it serves. -/
structure Alloc where
  fn : Fn
  session : Nat
  tier : Nat
  base : Nat
  size : Nat
  obj : Nat := 0
  owner : Nat := 0
deriving DecidableEq, Repr

/-- A placement hint (12 Table 12.8). -/
structure Hint where
  fn : Fn
  target : Nat
  tier : Nat
  mode : Nat
  coppice : Nat
  groups : Nat
deriving DecidableEq, Repr

/-- A quota limit set by QUOTA_SET; an unlisted one stands at its default (12 Table 12.4). -/
structure Quota where
  fn : Fn
  kind : Nat
  coppice : Nat
  limit : Nat
deriving DecidableEq, Repr

/-- A KV page frame in use: its owner and reference count (09 R208). `reserved` while a step or a served page
wait holds it without a list entry (R216); `readers` are the commands of R229 that keep the frame. -/
structure Frame where
  pfn : Nat
  fn : Fn
  refs : Nat
  reserved : Bool := false
  readers : List Nat := []
deriving DecidableEq, Repr

/-- The memory tiers, their poison (`poison` 64 B lines of tier 2, `poisonUnits` 4 KiB units of tier 3, `poison1` 64 B lines of
tier 1), and what is placed in them (12). -/
structure Store where
  host : Mem := []
  t0 : Mem := []
  t1 : Mem := []
  dram : Mem := []
  nand : Mem := []
  poison : List Nat := []
  poisonUnits : List Nat := []
  poison1 : List Nat := []
  allocs : List Alloc := []
  quotas : List Quota := []
  hints : List Hint := []
  frames : List Frame := []
deriving DecidableEq, Repr

/-- Migration of a rank to a spare rank (12 R296, R299). -/
structure Migration where
  ch : Nat
  rank : Nat
  spare : Nat
  spareRank : Nat
  watermark : Nat := 0
  back : Bool := false
  retraining : Bool := false
deriving DecidableEq, Repr

/-- One spare channel (12 R295; 21 Table 21.10). `rank0`, `rank1` name the (channel, rank) held. -/
structure SpareCh where
  rank0 : Option (Nat × Nat) := none
  rank1 : Option (Nat × Nat) := none
  owner : Option Fn := none
  retraining : Bool := false
deriving DecidableEq, Repr

/-- One row counter of a bank's activate table (12 R293). -/
structure RowCount where
  ch : Nat
  bank : Nat
  row : Nat
  count : Nat
deriving DecidableEq, Repr

/-- The LPDDR5 controller (12 R291 to R300; 19 R407). Channels are numbered group × 8 + channel. -/
structure Dram where
  groupsUp : BitVec 4 := 0
  outGroups : BitVec 4 := 0
  spare0 : SpareCh := {}
  spare1 : SpareCh := {}
  migrations : List Migration := []
  moved : List (Nat × Nat × Nat) := []
  degraded : List (Nat × Nat) := []
  corrected : List (Nat × Nat × Nat) := []
  pendingRetire : List (Nat × Nat) := []
  retrainHolds : Nat := 0
  rows : List RowCount := []
  scrubPos : Nat := 0
deriving DecidableEq, Repr

/-- One NAND channel under the FTL (12 R301, R302). -/
structure NandCh where
  inService : Bool := false
  readOnly : Bool := false
  sparePermille : Nat := 0
  reads : List (Nat × Nat) := []
  retired : List Nat := []
  programming : Bool := false
deriving DecidableEq, Repr

/-- The KV geometry of a model (09 R203; 11 Table 11.11). -/
structure KvGeom where
  layers : Nat
  kvHeads : Nat
  headDim : Nat
  fmt : Nat
deriving DecidableEq, Repr

/-- An installed model (11 R271 to R274, Table 11.4). `image` is the graph image; `base` its place in tier 2 while
resident; `loading` while a residency runs (R271). -/
structure Model where
  fn : Fn
  id : Nat
  image : List Byte := []
  inputs : List (List Byte) := []
  outputs : List (List Byte) := []
  weights : List (List Byte) := []
  training : List (List Byte) := []
  kv : Option KvGeom := none
  recurrent : Bool := false
  minCoppices : Nat := 1
  minTiles : Nat := 1
  imageDigest : U256 := 0
  weightsDigest : U256 := 0
  extent : Nat := 0
  resident : Option Nat := none
  lastUse : Nat := 0
  pin1 : Bool := false
  pin2 : BitVec 4 := 0
  loading : Bool := false
  wasEvicted : Bool := false
  /-- The tables of FIXED layers of a resident model: by layer and channel, the kernel and then the powers of each element, in BF16 (10 R235). -/
  tables : List (List (List Nat)) := []
deriving DecidableEq, Repr

/-- A step policy (11 Table 11.10). -/
structure StepPolicy where
  fn : Fn
  model : Nat
  period : Nat := 0
  phase : Nat := 0
  tokens : Nat := 4096
  chunkMax : Nat := 512
  coppices : Nat := 0
  preempt : Nat := 0
  ageBoost : Nat := 1000
deriving DecidableEq, Repr

/-- A page-list entry (09 Table 9.2) with the shifts of its heads (R205). -/
structure Page where
  layer : Nat
  isV : Bool
  index : Nat
  pfn : Nat
  valid : Bool := false
  shared : Bool := false
  fullRo : Bool := false
  shifts : List Int := []
deriving DecidableEq, Repr

/-- A sequence (09 R203 to R213, 11 R275). `dir` is the place of its directory and lists in tier 2. -/
structure Seqn where
  handle : Nat
  fn : Fn
  session : Nat
  model : Nat
  cls : Nat
  conv : Option Nat := none
  geom : KvGeom
  length : Nat := 0
  pages : List Page := []
  dir : Nat := 0
  charge : Nat := 0
  lastRun : Nat := 0
deriving DecidableEq, Repr

/-- A conversation (11 R275). -/
structure Conv where
  handle : Nat
  fn : Fn
  session : Nat
  cls : Nat
deriving DecidableEq, Repr

/-- A stream and its carried state (10 R243 to R251). `carried` and `init` are FP32 patterns in the order of
Table 10.8; `narrow` says how the carried state is stored; `prefetch` while a prefetch runs. -/
structure Stream where
  handle : Nat
  stateHandle : Nat
  fn : Fn
  session : Nat
  model : Nat
  cls : Nat
  fallback : Bool := false
  home : Nat := 2
  narrow : Bool := false
  wide : Nat := 0
  nextSseq : Nat := 0
  init : List U32 := []
  carried : List U32 := []
  prefetch : Bool := false
  lastRun : Nat := 0
deriving DecidableEq, Repr

/-- A sequence-table slot (11 Table 11.1). `cmd` names the command of a KIND 3 occupant.
`held` are frames reserved by a page wait that ended (09 R219); `evicted` says that the reservation evicted a model. -/
structure Slot where
  fn : Fn
  num : Nat
  kind : Nat
  handle : Nat := 0
  cmd : Nat := 0
  cls : Nat := 0
  effCls : Nat := 0
  model : Nat := 0
  ready : Bool := false
  parked : Bool := false
  resWait : Bool := false
  parkStamp : Nat := 0
  chunk : Nat := 0
  pending : Nat := 0
  readyStamp : Nat := 0
  held : List Nat := []
  evicted : Bool := false
deriving DecidableEq, Repr

/-- A member of a batch step: the slot, its context and the positions granted (11 R257). -/
structure Member where
  slot : Nat
  kind : Nat
  handle : Nat
  cmd : Nat
  n : Nat
  frames : List Nat := []
deriving DecidableEq, Repr

/-- What has committed of one output tensor of a command that runs in batch steps: its elements and their bytes (05 Table 5.12, 07 R174). -/
structure OutStage where
  cmd : Nat
  out : Nat
  done : List Nat := []
  staged : Mem := []
deriving DecidableEq, Repr

/-- A batch step in flight (11 R255 to R261). `freed` are the frames of members that left it. -/
structure Step where
  fn : Fn
  model : Nat
  release : Nat
  members : List Member
  cls : Nat
  coppices : BitVec 4 := 0
  suspended : Bool := false
  est : Nat := 1
  tileCmds : Nat := 0
  freed : List Nat := []
deriving DecidableEq, Repr

/-- A semaphore (11 R266). -/
structure Sem where
  num : Nat
  fn : Fn
  session : Nat
  count : U32
  ownerCtx : Option Nat := none
  ownerRing : Option Nat := none
deriving DecidableEq, Repr

/-- A tile or edge command admitted to a unit and not yet committed (06 R155, R156). -/
structure Admitted where
  cut : WorkCut
  edge : Bool := false
  retried : Bool := false
deriving DecidableEq, Repr

/-- One accumulator (06 R141): an integer, or an FP32 pattern in `val`. The model's own `exact` and `mag` (mantissa and exponent) are the
exact sum of a BF16 product so far and that of its magnitudes, which Table 6.11 bounds it by. -/
structure Acc where
  val : Int
  sat : Bool := false
  exact : Option (Int × Int) := some (0, 0)
  mag : Int × Int := (0, 0)
deriving DecidableEq, Repr

/-- The accumulators of an output block, kept for the next tile command of the block: one list for each row (06 R155, 09 R223). -/
structure Partial where
  batch : Nat
  m0 : Nat
  m1 : Nat
  n0 : Nat
  n1 : Nat
  k : Nat
  rows : List (List Acc)
deriving DecidableEq, Repr

/-- The statistics of a row of outputs that has not ended (06 R152): running maximum and sum, the maximum it started from, and the
working values that `NORM` adds, as FP32 patterns. -/
structure RowState where
  batch : Nat
  row : Nat
  max : U32
  sigma : U32
  start : U32
  vals : List U32 := []
deriving DecidableEq, Repr

/-- A stored camera frame (04 R92, Table 4.12). -/
structure CamFrame where
  number : Nat
  stamp : Nat
  flags : BitVec 5 := 0
  paramId : Nat := 0
  exp0 : Nat := 0
  again : Nat := 0
  dgain : Nat := 0
  linesValid : Nat := 0
  markStamp : Nat := 0
  endStamp : Nat := 0
  crcLines : Nat := 0
  attention : Nat := 0
  faces : Nat := 0
  slot : Nat := 0
  base : Nat := 0
  width : Nat := 0
  height : Nat := 0
  stats : List Byte := []
  emb : List Byte := []
deriving DecidableEq, Repr

/-- The progress of an operator cut into tile or edge commands (06 R154 to R156, R447; 08 R189, R197). `done` lists the
output elements committed, by dense index, and `staged` their bytes in the raw form; `frame` is the camera frame a frame
source reads (08 R200), `pages` the pages an attention over a sequence reads (09 R229). -/
structure Job where
  id : Nat
  edge : Bool := false
  total : Nat := 0
  done : List Nat := []
  staged : Mem := []
  partials : List Partial := []
  rows : List RowState := []
  draw : Nat := 0
  tileCmds : Nat := 0
  satCount : Nat := 0
  outFlags : BitVec 16 := 0
  retries : Nat := 0
  skipped : Nat := 0
  emptyRows : Nat := 0
  emptyWindows : Nat := 0
  poisoned : Bool := false
  frame : Option CamFrame := none
  pages : List Page := []
deriving DecidableEq, Repr

/-- One coppice's tile map (01 R11 to R13; 21 Table 21.9): physical tile of each logical tile, row spares used and
retired tiles. -/
structure CopTiles where
  logical : List Nat
  rowsUsed : List Nat := []
  retired : List Nat := []
deriving DecidableEq, Repr

/-- Work on the Laurel side: contexts, steps, semaphores, jobs (09 to 11). -/
structure Work where
  models : List Model := []
  policies : List StepPolicy := []
  seqs : List Seqn := []
  convs : List Conv := []
  streams : List Stream := []
  cached : List Nat := []
  slots : List Slot := []
  steps : List Step := []
  sems : List Sem := []
  jobs : List Job := []
  admitted : List Admitted := []
  retried : List WorkCut := []
  outs : List OutStage := []
  imageEnds : List (Nat × Nat) := []
  checkSkips : Nat := 0
  tiles : List CopTiles := []
deriving DecidableEq, Repr

/-- The listening policy in force (03 Table 3.7). -/
structure ListenPolicy where
  mode : Nat := 0
  sources : BitVec 3 := 0b010
  arrayRate : Nat := 0
  beam : Nat := 0
  s0Energy : Int := 0
  s0Spectral : Nat := 0
  s0Hold : Nat := 1
  s1Threshold : Nat := 0
  s2Threshold : Nat := 0
  spkThreshold : Nat := 0
  spkProfile : Nat := 0
  keywordSet : Nat := 0
  releaseMax : Nat := 300
  wakeCoppices : BitVec 4 := 0
  wakeGroups : BitVec 4 := 0
  wakeModel : Nat := 0
  wakeTiles : Nat := 1
  s0VibEnergy : Int := 0
  s0Combine : Nat := 0
  s1Hangover : Nat := 1
deriving DecidableEq, Repr

/-- One frame of the audio ring (03 Table 3.5): its header and its channels' samples. -/
structure AudioFrame where
  stamp : Nat
  fseq : Nat
  valid : BitVec 10 := 0
  settle : Bool := false
  endOfTurn : Bool := false
  direction : Nat := 0xFFFF
  mics : List (List (BitVec 24)) := []
  vib : List (BitVec 24) := []
  beam : List (BitVec 24) := []
deriving DecidableEq, Repr

/-- Wake sources (21 Table 21.5 `LAST_SOURCE`). -/
inductive WakeSource where
  | none | phrase | talk | manual
deriving DecidableEq, Repr

/-- The microphone front end, the wake stages, the audio ring and the privet gate (03). `wakeDecided` holds a
release point whose gate has not opened yet (R60); `closeDue` a close that takes effect at a frame boundary (R62). `overMain`
and `over48` are the stamps just past the newest overwritten frames, `start48` is the first stamp of the extension, `boundaryAt`
the last boundary dealt with, `privReturn` the return of the forced domains at the next one (released at `privLowAt`), `wakePolicy` the
policy of the wake under way (R56). `closedAt` and `wokeAt` are the ticks of the last candidate's close and of the last wake decision:
what follows either at the next boundary waits for one after that tick. `candPolicy` is the policy in force when the candidate opened (R56),
`candAt` the tick of the last opening, and `lookFrom` the stamp of the first frame that the running stage 1 analyses (R52). -/
structure Listen where
  policy : ListenPolicy := {}
  armed : BitVec 3 := 0b010
  s0Count : Nat := 0
  stage1 : Bool := false
  s1Left : Nat := 0
  candidate : Option Nat := none
  candAt : Nat := 0
  candPolicy : ListenPolicy := {}
  lookFrom : Option Nat := none
  direction : Nat := 0xFFFF
  wakeDecided : Option Nat := none
  stage3 : Bool := false
  gateOpen : Bool := false
  release : Nat := 0
  closeDue : Bool := false
  gateSession : Nat := 0
  unread : Nat := 0
  frames : List AudioFrame := []
  frames48 : List AudioFrame := []
  workArea : List Byte := []
  fseqMic : U32 := 0
  fseqArray : U32 := 0
  fseqVib : U32 := 0
  settleNext : Bool := false
  overMain : Nat := 0
  over48 : Nat := 0
  start48 : Nat := 0
  boundaryAt : Option Nat := none
  wakeId : U16 := 0
  lastSource : WakeSource := .none
  wakePending : Bool := false
  extraWakes : Nat := 0
  privPresses : Nat := 0
  endOfTurnAt : Option Nat := none
  priv : Bool := false
  privLowAt : Nat := 0
  privReturn : Bool := false
  closedAt : Option Nat := none
  wokeAt : Option Nat := none
  wakePolicy : ListenPolicy := {}
deriving DecidableEq, Repr

/-- A camera port's configuration block (04 Table 4.9) with the CAMERA_CONFIG fields that go with it (Table 4.8). -/
structure CamConfig where
  lanes : Nat := 1
  dataType : Nat := 0x2A
  laneMbps : Nat := 80
  width : Nat := 64
  height : Nat := 64
  exposures : Nat := 1
  vcMap : BitVec 8 := 0
  bayer : Nat := 0
  embLines : Nat := 0
  i2cAddr : Nat := 0
  i2cSpeed : Nat := 0
  mclk : Nat := 0
  syncMode : Nat := 0
  initWait : Nat := 0
  syncPeriod : Nat := 1
  syncPhase : Nat := 0
  markLine : Nat := 0
  latchLine : Nat := 0
  delayExp : Nat := 0
  delayAgain : Nat := 0
  delayDgain : Nat := 0
  fpsMax : Nat := 1
  outWidth : Nat := 64
  outHeight : Nat := 64
  frameSlots : Nat := 2
  expReg : Nat := 0
  againReg : Nat := 0
  dgainReg : Nat := 0
  cal : List Byte := []
  init : List Byte := []
deriving DecidableEq, Repr

/-- One sensor setting of a CAMERA_PARAMS: its kind (0 exposures, 1 analogue gain, 2 digital gain, 3 white balance),
value and the frame it takes effect on (04 R82, R87); `seq` counts the port's commands in the order in which they reach Gorse (R85). -/
structure CamSetting where
  kind : Nat
  value : List Nat
  frame : Nat
  paramId : Nat
  cmd : Nat
  seq : Nat
deriving DecidableEq, Repr

/-- A CAMERA_PARAMS write that waits for its frame or is on the I2C bus (04 R77, R83). -/
structure CamWrite where
  kind : Nat
  value : List Nat
  writeFrame : Nat
  effect : Nat
  paramId : Nat
  cmd : Nat
  seq : Nat
  tries : Nat := 0
deriving DecidableEq, Repr

/-- An entry of a sensor's initialisation list (04 Table 4.9): its wait in 100 µs units. -/
structure CamInit where
  reg : Nat
  wait : Nat
  data : List Byte
deriving DecidableEq, Repr

/-- One camera port: receiver, pipeline, settings, image gate, frame store and vision stages (04). `raw0` to `raw2` are the lines of the frame in
flight, `lineAt` and `lineTicks` the start of exposure 0's last line and the time between its last two; `enAt` the rise of CAMn_EN; `initLeft`,
`initGo` and `initTries` the initialisation list while it is written, `onBus` a transfer in progress, `i2cOut` the writes made on the bus;
`paramSeq` numbers the port's CAMERA_PARAMS, `starts` holds the latest frame starts; `gapRecv` marks the next frame received, `gapThis` the frame in
flight; `presTake` says that the frame in flight is to be scored, `presFrame` is the image that waits for its score. -/
structure Cam where
  configured : Bool := false
  cfg : CamConfig := {}
  cascadeTop : Nat := 0
  autoRelease : Bool := false
  motionThreshold : Nat := 0
  motionFrames : Nat := 1
  absentHold : Nat := 1
  presenceThreshold : Nat := 0
  presenceModel : Nat := 0
  attendCoppice : Nat := 0
  attendModel : Nat := 0
  armedRx : Bool := false
  initAt : Option Nat := none
  enAt : Option Nat := none
  initLeft : List CamInit := []
  initGo : Option Nat := none
  initTries : Nat := 0
  onBus : Bool := false
  i2cOut : List (List Byte) := []
  streaming : Bool := false
  gateOpen : Bool := false
  gateStage2 : Bool := false
  openDue : Bool := false
  openDueStage2 : Bool := false
  closeDue : Bool := false
  opener : Nat := 0
  frameNo : Nat := 0
  vcCounts : List Nat := [0, 0, 0, 0]
  inFrame : Bool := false
  started : Bool := false
  frameStart : Nat := 0
  raw0 : List (List Nat) := []
  raw1 : List (List Nat) := []
  raw2 : List (List Nat) := []
  lineAt : Nat := 0
  lineTicks : Nat := 0
  dropRest : Bool := false
  truncated : Bool := false
  crcLines : Nat := 0
  gapNext : Bool := false
  gapRecv : Bool := false
  gapThis : Bool := false
  markStamp : Nat := 0
  emb : List Byte := []
  discarded : Nat := 0
  eccCorrected : Nat := 0
  lastStart : Nat := 0
  settings : List CamSetting := []
  writes : List CamWrite := []
  paramSeq : Nat := 0
  starts : List (Nat × Nat) := []
  failed : List Nat := []
  dropDue : Bool := false
  openFrame : Nat := 0
  embSeen : Nat := 0
  stalled : Bool := false
  endAt : Nat := 0
  ispSwitched : Bool := false
  frames : List CamFrame := []
  unread : Nat := 0
  prevZoneY : List Nat := []
  motion : Nat := 0
  motionCount : Nat := 0
  motionLow : Option Nat := none
  presLow : Option Nat := none
  stage1 : Bool := false
  presenceDue : Nat := 0
  skipped : Nat := 0
  presence : List Byte := []
  presTake : Bool := false
  presFrame : Option (List Byte) := none
  stage2 : Bool := false
  attn : Nat := 0
  faces : Nat := 0
  dropped : Nat := 0
deriving DecidableEq, Repr

/-- State of a power domain (15 R352, Table 15.10). -/
inductive DomState where
  | on | ret | off | entering | returning
deriving DecidableEq, Repr

/-- One power domain and its Table 15.10 record (15 R353 to R368). `target` is 1 = RET or 2 = OFF while entering;
`stopped` says that the clock-stop point has passed, `fromRet` that the entry began in RET; `mark` is the tick of the current state's start. -/
structure Dom where
  id : Nat
  state : DomState := .off
  target : Nat := 0
  stopped : Bool := false
  fromRet : Bool := false
  entryAt : Nat := 0
  mark : Nat := 0
  ceiling : Nat := 2
  retIdle : Nat := 0
  offIdle : Nat := 0
  retTimer : Bool := false
  offTimer : Bool := false
  busy : Bool := false
  idleAt : Nat := 0
  expiredAt : Option Nat := none
  heldOff : Bool := false
  byHost : Option Nat := none
  demand : Bool := false
  forced : Nat := 0
  entries : Nat := 0
  tOn : Nat := 0
  tRet : Nat := 0
  tOff : Nat := 0
  refused : Nat := 0
  aborted : Nat := 0
  refusers : List (Nat × Nat × Nat) := []
  lastRefusal : Nat := 0
  frozenAt : Nat := 0
deriving DecidableEq, Repr

/-- The PMU (15; 01 R16). `wantGroups` are channel groups that work or a wake has named for the next return of their MEM
domain (R359); `fwRetained` says that DRAM holds Laurel firmware, `fwKept` is the digest of what it holds and `fwDigest` the one recorded when it was last verified (01 R16); `deferrals` are the latest windows in which the
limit deferred an admission (Table 15.9). -/
structure Power where
  doms : List Dom := []
  retain : U64 := 0
  limit : Nat := 28000
  cap : Bool := false
  nextLimit : Option Nat := none
  selfRefresh : BitVec 4 := 0
  wantGroups : BitVec 4 := 0
  fwRetained : Bool := false
  fwKept : U256 := 0
  fwDigest : U256 := 0
  deferrals : List Nat := []
  lastAdmit : List (Nat × Nat) := []
deriving DecidableEq, Repr

/-- A capture record (14 Table 14.4); `laurel` says that the Laurel collector detected the error. -/
structure Capture where
  stamp : Nat
  fseq : U32
  source : Nat
  inst : Nat
  cls : Nat
  laurel : Bool := false
  injected : Bool := false
  uncertain : Bool := false
  device : Bool := true
  tenant1 : Bool := false
  address : U64 := 0
  master : Nat := 0xFF
  access : Nat := 6
  ring : Nat := 0xFFFF
  cmdSeq : U32 := 0
  count : Nat := 0
  layerId : U16 := 0
  opId : U16 := 0
  detail : U64 := 0
deriving DecidableEq, Repr

/-- An armed injection (14 R347, R348). -/
structure Injection where
  target : Nat
  unit : Nat
  bits : Nat
  address : U64
  cmd : Nat
deriving DecidableEq, Repr

/-- Fault collection, watchdogs, health and ALIVE (14; 21 Table 21.5). -/
structure Faults where
  log : List Capture := []
  fseq : U32 := 0
  lost : Nat := 0
  forward : List Capture := []
  laurelFatal : Bool := false
  gorseFatal : Bool := false
  integrity : Bool := false
  firstSource : Nat := 0
  haltLaurel : Bool := false
  haltGorse : Bool := false
  cpDead : BitVec 2 := 0
  injections : List Injection := []
  kickGorse : Nat := 0
  kickCp0 : Nat := 0
  kickCp1 : Nat := 0
  healthAt : Nat := 0
  aliveRun : Bool := false
  level : Bool := false
  suppressed : Bool := false
  aliveCause : Nat := 0
  edges : U16 := 0
  suppressFrom : Option Nat := none
  testStop : Bool := false
  testAt : Nat := 0
  gorseWdt : Bool := false
  lastEdge : Nat := 0
deriving DecidableEq, Repr

/-- A counter's value (17 Table 17.1). -/
structure Counter where
  id : Nat
  inst : Nat
  value : U64
deriving DecidableEq, Repr

/-- A latched counter (17 Table 17.3). -/
structure CounterRec where
  id : Nat
  inst : Nat
  dom : Nat
  frozen : Bool
  uncertain : Bool
  arrival : Nat
  value : U64
deriving DecidableEq, Repr

/-- A counter bin (17 Table 17.4). -/
structure Bin where
  layerId : U16
  opId : U16
  commands : Nat
  values : List U64
deriving DecidableEq, Repr

/-- A staged trace event: its source (02 R38, notes/assumptions/68.md), its stamp, and its record with `TSEQ` zero, which it gets when it is
written. -/
structure TraceEv where
  src : Nat
  stamp : Nat
  record : List Byte
deriving DecidableEq, Repr

/-- A trace destination: its setting, staging buffer and counts (17 R392, R393, Table 17.7). -/
structure TraceDest where
  events : U16 := 0
  log2 : Nat := 10
  filterLayer : U16 := 0xFFFF
  filterOp : U16 := 0xFFFF
  base : U64 := 0
  countAddr : U64 := 0
  tseq : U32 := 0
  staged : List TraceEv := []
  lostRun : Nat := 0
  dropped : Nat := 0
deriving DecidableEq, Repr

/-- A tensor-watch slot (17 Table 17.8). -/
structure Watch where
  slot : Nat
  kind : Nat
  layerId : U16
  opId : U16
  left : Nat
  written : Nat
  dest : U64
  cmds : List Nat := []
deriving DecidableEq, Repr

/-- Observation (17). -/
structure Obs where
  counters : List Counter := []
  saved : List Counter := []
  restarted : Bool := false
  bins : List Bin := []
  overflow : Option Bin := none
  snapAt : Option Nat := none
  snapWaiting : List Nat := []
  halt : List CounterRec := []
  haltAt : Nat := 0
  haltHeld : Bool := false
  trace0 : TraceDest := {}
  trace1 : TraceDest := {}
  portOut : List (List Byte) := []
  watches : List Watch := []
deriving DecidableEq, Repr

/-- One peer of a Kraotas group (16 R371 to R382). `stamp` is the stamp of its last unit as R384 takes it, `foreign` says that it is on the peer's
own time base. -/
structure Peer where
  unit : Nat
  bar2 : U64 := 0
  rxBase : U64 := 0
  rxLen : Nat := 0
  rxSem : Nat := 0
  present : Bool := false
  broken : Bool := false
  lastBlock : Nat := 0
  gen : Option U16 := none
  advLen : Nat := 0
  stamp : Nat := 0
  foreign : Bool := false
  pseq : U32 := 0
  creditRet : U32 := 0
  rxNext : U32 := 0
  returned : U32 := 0
deriving DecidableEq, Repr

/-- What this unit writes into a peer's BAR2 (16 R372, R378): (peer bus address, bytes), oldest first. -/
abbrev PeerWrites := List (U64 × List Byte)

/-- Kraotas group state (16). `state` is 0 none, 1 joining, 2 joined. -/
structure Group where
  state : Nat := 0
  groupId : U32 := 0
  self : Nat := 0
  units : Nat := 0
  joinGen : U16 := 0
  joinAt : Nat := 0
  joinCmd : Option Nat := none
  peers : List Peer := []
  out : PeerWrites := []
  lastWrite : Nat := 0
  ignored : Nat := 0
  mode : Nat := 0
  offsets : List Int := []
deriving DecidableEq, Repr

/-- The I3C target and the latched mark (16 R370, R383; 21 R434, R435). -/
structure I3c where
  enabled : Bool := false
  addr : Option (BitVec 7) := none
  offset : Nat := 0
  protoErr : Bool := false
  mark : Byte := 0
  markValid : Bool := false
  latch : Nat := 0
deriving DecidableEq, Repr

/-- A running, staged or NOR firmware image (13 Table 13.13): the fields the rules use and its whole-image digest. -/
structure FwImage where
  component : Nat
  version : U32 := 1
  svn : Nat := 0
  digest : U256 := 0
  valid : Bool := true
deriving DecidableEq, Repr

/-- Firmware and NOR (13 R323 to R328; 19 R406). `activating` is the component whose NOR write runs. -/
structure Firmware where
  running : List FwImage := []
  staged : List FwImage := []
  nor : List FwImage := []
  norState : List Nat := [0, 0, 0, 0, 0, 0]
  svnPending : Bool := false
  activating : Option Nat := none
  trainValid : Bool := true
  romVersion : U32 := 1
  certOk : Bool := true
deriving DecidableEq, Repr

/-- The root engine's keys (13 R316 to R319; `kemPair` names the pair among all that were ever drawn) and OEM provisioning (13 Table 13.6). -/
structure Root where
  k1 : Option U256 := none
  k1Gen : Nat := 0
  kemId : Nat := 0
  kemPair : Nat := 0
  reportDigest : Option U256 := none
  reportKem : Nat := 0
  provData : List Byte := []
  provOp : Nat := 0
  provBusy : Bool := false
  provResult : Nat := 0
deriving DecidableEq, Repr

/-- The state of the whole block. `freeCtr` is the model's own: it numbers the free values drawn so far
(notes/assumptions/1.md). `pending` is the queue of waiting commands, first in, first out. -/
structure State where
  fuse : Fuses := {}
  boot : Boot := {}
  stb : Nat := 0
  mirrors : List Mirror := []
  custody : Custody := {}
  dlink : DieLink := {}
  pcie : Pcie := {}
  pins : Pins := {}
  regs : Regs := {}
  rings : List Ring := []
  sess0 : Sess := {}
  sess1 : Sess := {}
  cmds : List Cmd := []
  fetchedLog : List Fetched := []
  nextCmd : Nat := 0
  turns : List Turn := []
  heldOut : List Held := []
  store : Store := {}
  dram : Dram := {}
  nand : List NandCh := []
  work : Work := {}
  listen : Listen := {}
  cam0 : Cam := {}
  cam1 : Cam := {}
  power : Power := {}
  fault : Faults := {}
  obs : Obs := {}
  group : Group := {}
  i3c : I3c := {}
  fw : Firmware := {}
  root : Root := {}
  freeCtr : Nat := 0
  pending : List Instr := []
deriving DecidableEq, Repr

/-- Why a command stops the model. -/
inductive Fault where
  /-- Raised by THERMAL_CAP for a junction temperature outside the range of the ordered grade while the rails are
  up: 00 R5 says that the device's behaviour there is not specified. Safe: the model stops where the spec says nothing. -/
  | junctionOutOfRange
deriving DecidableEq, Repr

/-- Why the model refuses a command. -/
inductive Refusal where
  /-- Raised by `exec` for a command that has no meaning in the model. Safe: nothing is claimed of it. -/
  | notModelled (mnemonic : String)
deriving DecidableEq, Repr

/-- The power domains of the WY-6480 with the default idle timers of 15 Table 15.1, as a Gorse power-on reset leaves
them: AON on, ROOT in RET (never OFF), every other domain OFF. `retTimer` and `offTimer` say for which transitions the
table gives a tick count or "Never". -/
def resetDoms : List Dom :=
  let t (i r o : Nat) (rt ot : Bool) : Dom := { id := i, retIdle := r, offIdle := o, retTimer := rt, offTimer := ot }
  [{ id := 0x00, state := .on, ceiling := 0, retTimer := true, offTimer := true },
   t 0x01 0 0 false false, t 0x02 0 0 false false, t 0x03 0 0 false false, t 0x04 0 0 false true, t 0x05 0 0 false false,
   t 0x06 0 0 false false, t 0x07 0 0 false false,
   { id := 0x08, state := .ret, ceiling := 1, retIdle := 3072, retTimer := true },
   t 0x10 307200 0 true false, t 0x11 0 0 false false, t 0x12 3072 0 true false, t 0x13 30720 0 true false,
   t 0x14 30720 0 true false, t 0x15 30720 3072000 true true, t 0x16 3072 307200 true true]
  ++ (List.range 4).map (fun c => t (0x18 + c) 30720 3072000 true true)
  ++ (List.range 4).map (fun c => t (0x1C + c) 3072 307200 true true)
  ++ (List.range 40).map (fun c => t (0x20 + c) 3072 307200 true true)

/-- The tile maps before any retirement: logical tile n of coppice c is TILE(10c+n) (01 R11). -/
def resetTiles : List CopTiles :=
  (List.range 4).map (fun c => { logical := (List.range 8).map (fun n => 10 * c + n) })

/-- Six firmware images in NOR, one per component of 13 Table 13.12 (notes/assumptions/8.md). -/
def resetImages : List FwImage :=
  (List.range 6).map (fun i => { component := i + 1 })

/-- The block while the Gorse power-on reset is in force, before its release (19 R403): every field at the value
the spec gives, or at the value a log entry names (INVENTORY.md, `## State`). -/
def State.reset : State :=
  { power := { doms := resetDoms }
    work := { tiles := resetTiles }
    nand := [{}, {}, {}, {}]
    fw := { running := [], nor := resetImages } }

end Sys2Proof.Machine
end

