-- ==== Sys2Proof/Machine/Bytes.lean ====
section
/-! DEFINITION. Byte order, fields of byte lists, signed fields, and the sparse memory's operations. -/

namespace Sys2Proof.Machine

/-- The number a little-endian list of bytes stands for (00 Notation). -/
def leNat : List Byte → Nat
  | [] => 0
  | b :: t => b.toNat + 256 * leNat t

/-- `n` in `len` little-endian bytes, modulo 2^(8·len). -/
def natLe (len n : Nat) : List Byte :=
  match len with
  | 0 => []
  | k + 1 => BitVec.ofNat 8 n :: natLe k (n / 256)

/-- A signed number in `len` little-endian bytes, two's complement. -/
def intLe (len : Nat) (v : Int) : List Byte :=
  natLe len (v % (2 ^ (8 * len) : Int)).toNat

/-- The ASCII bytes of a string (05 R121). -/
def ascii (t : String) : List Byte := t.toList.map (fun c => BitVec.ofNat 8 c.toNat)

/-- `len` zero bytes. -/
def zeroBytes (len : Nat) : List Byte := List.replicate len 0

/-- The bytes `[off, off + len)` of a list, short where the list ends. -/
def bytesAt (bs : List Byte) (off len : Nat) : List Byte := (bs.drop off).take len

/-- The little-endian number at bytes `[off, off + len)`. -/
def field (bs : List Byte) (off len : Nat) : Nat := leNat (bytesAt bs off len)

/-- `n` of `bits` bits read as two's complement. -/
def signed (bits n : Nat) : Int := if n < 2 ^ (bits - 1) then n else (n : Int) - 2 ^ bits

/-- The signed number at bytes `[off, off + len)`. -/
def sfield (bs : List Byte) (off len : Nat) : Int := signed (8 * len) (field bs off len)

/-- Bytes `[a, b]` (inclusive, as the tables write them) are all zero. -/
def zeroAt (bs : List Byte) (a b : Nat) : Bool := (bytesAt bs a (b + 1 - a)).all (· == 0)

/-- Bit `i` of a number. -/
def bit (n i : Nat) : Bool := n.testBit i

/-- Bits `[hi:lo]` of a number. -/
def bits (n hi lo : Nat) : Nat := (n / 2 ^ lo) % 2 ^ (hi + 1 - lo)

/-- 1 for true and 0 for false. -/
def b2n (b : Bool) : Nat := if b then 1 else 0

/-- ⌈a / b⌉. -/
def ceilDiv (a b : Nat) : Nat := (a + b - 1) / b

/-- `a` rounded up to a multiple of `b`. -/
def roundUp (a b : Nat) : Nat := ceilDiv a b * b

/-- Two half-open ranges overlap. -/
def overlap (a la b lb : Nat) : Bool := decide (0 < la) && decide (0 < lb) && decide (a < b + lb) && decide (b < a + la)

/-- `[a, a + la)` lies inside `[b, b + lb)`. -/
def inside (a la b lb : Nat) : Bool := decide (b ≤ a) && decide (a + la ≤ b + lb)

/-- The byte at an address; an address that is not listed reads 0 (notes/assumptions/5.md). -/
def memRead : Mem → Nat → Byte
  | [], _ => 0
  | (b, v) :: t, a => if a = b then v else if a < b then 0 else memRead t a

/-- Put a byte before every listed address, keeping the canonical form. -/
def memCons (a : Nat) (v : Byte) (m : Mem) : Mem := if v = 0 then m else (a, v) :: m

/-- Write one byte, keeping the canonical form: rising addresses, no entry equal to 0. -/
def memWrite : Mem → Nat → Byte → Mem
  | [], a, v => memCons a v []
  | (b, w) :: t, a, v =>
    if a < b then memCons a v ((b, w) :: t)
    else if a = b then memCons a v t
    else (b, w) :: memWrite t a v

/-- `len` bytes from `a` upward. -/
def memReadN (m : Mem) (a : Nat) : Nat → List Byte
  | 0 => []
  | k + 1 => memRead m a :: memReadN m (a + 1) k

/-- Write a list of bytes from `a` upward. -/
def memWriteN (m : Mem) (a : Nat) : List Byte → Mem
  | [] => m
  | v :: t => memWriteN (memWrite m a v) (a + 1) t

/-- Clear every byte of `[a, a + len)`. -/
def memClear (m : Mem) (a len : Nat) : Mem := m.filter (fun c => decide (c.1 < a) || decide (a + len ≤ c.1))

/-- Keep only the bytes of `[a, a + len)`. -/
def memOnly (m : Mem) (a len : Nat) : Mem := m.filter (fun c => decide (a ≤ c.1) && decide (c.1 < a + len))

/-- The canonical form: addresses strictly rising above `lo`, and no entry equal to 0. -/
def memWfFrom : Nat → Mem → Bool
  | _, [] => true
  | lo, (a, v) :: t => decide (lo ≤ a) && decide (v ≠ 0) && memWfFrom (a + 1) t

/-- The canonical form of a memory. -/
def memWf (m : Mem) : Bool := memWfFrom 0 m

/-- The signed distance of two low-32 values (02 R29): negative where `a` is earlier than `b`. -/
def low32Diff (a b : U32) : Int := (a - b).toInt

/-- Expand a low-32 value against a reference STB value (02 R30). -/
def expand32 (x : U32) (n : Nat) : Int := (n : Int) + low32Diff x (BitVec.ofNat 32 n)

end Sys2Proof.Machine
end

