-- ==== Sys2Proof/Machine/Ops.lean ====
section
/-! DEFINITION. The named operations every family shares: units present and owned, time stamps, free values, rings and
sessions, host writes, trace and counters, fault capture, completion and progress records. -/

namespace Sys2Proof.Machine

/- ### Units of the part (00 Table 0.1, Table 0.2) -/

/-- Coppices, channel groups and NAND channels of a part. -/
def unitsOf : Part → Nat
  | .wy6480 => 4
  | .wy6472 => 4
  | .wy6440 => 2

/-- Spare LPDDR5 channels of a part. -/
def sparesOf : Part → Nat
  | .wy6440 => 1
  | _ => 2

/-- Whether a camera port exists (04). -/
def portPresent (p : Part) (port : Nat) : Bool :=
  match p with
  | .wy6480 => decide (port < 2)
  | .wy6472 => false
  | .wy6440 => decide (port = 0)

/-- Kraotas group support (16). -/
def hasGroups : Part → Bool
  | .wy6440 => false
  | _ => true

/-- Part number in BCD (13 Table 13.5). -/
def partBcd : Part → Nat
  | .wy6480 => 0x6480
  | .wy6472 => 0x6472
  | .wy6440 => 0x6440

/-- Whether a power domain exists in the part (00 R3, 15 Table 15.1). -/
def domPresent (p : Part) (d : Nat) : Bool :=
  if d ≤ 0x04 then true
  else if d = 0x05 then p != .wy6472
  else if d = 0x06 then p != .wy6472
  else if d = 0x07 then p == .wy6480
  else if d = 0x08 then true
  else if 0x10 ≤ d && d ≤ 0x13 then true
  else if d = 0x14 then p != .wy6440
  else if d = 0x15 || d = 0x16 then true
  else if 0x18 ≤ d && d ≤ 0x1B then decide (d - 0x18 < unitsOf p)
  else if 0x1C ≤ d && d ≤ 0x1F then decide (d - 0x1C < unitsOf p)
  else if 0x20 ≤ d && d ≤ 0x47 then decide ((d - 0x20) / 10 < unitsOf p)
  else false

/-- Domain identifiers (15 Table 15.1). -/
def domMica : Nat := 0x01
def domMicb : Nat := 0x02
def domVib : Nat := 0x03
def domListen : Nat := 0x04
def domIsp : Nat := 0x05
def domCam (port : Nat) : Nat := 0x06 + port
def domRoot : Nat := 0x08
def domCtrl : Nat := 0x10
def domLink : Nat := 0x11
def domDma : Nat := 0x12
def domMema : Nat := 0x13
def domMemb : Nat := 0x14
def domNand : Nat := 0x15
def domObs : Nat := 0x16
def domCop (c : Nat) : Nat := 0x18 + c
def domEdge (c : Nat) : Nat := 0x1C + c
def domTile (t : Nat) : Nat := 0x20 + t

/-- Whether a coppice belongs to tenant 1 under `PARTITION` (13 Table 13.2). -/
def t1Coppice (s : State) (c : Nat) : Bool := s.regs.partition.toNat.testBit c
def t1Group (s : State) (g : Nat) : Bool := s.regs.partition.toNat.testBit (4 + g)
def t1Nand (s : State) (n : Nat) : Bool := s.regs.partition.toNat.testBit (8 + n)

/-- Whether a unit is owned by the tenant of a function (13 R305). -/
def ownedBy (fn : Fn) (t1 : Bool) : Bool := match fn with | .pf0 => !t1 | .pf1 => t1

def coppicePresent (s : State) (c : Nat) : Bool := decide (c < unitsOf s.fuse.part)
def groupPresent (s : State) (g : Nat) : Bool := decide (g < unitsOf s.fuse.part) && !s.dram.outGroups.toNat.testBit g
def nandPresent (s : State) (n : Nat) : Bool := decide (n < unitsOf s.fuse.part)
def nandCh (s : State) (n : Nat) : NandCh := s.nand.getD n {}
def ownsCoppice (s : State) (fn : Fn) (c : Nat) : Bool := coppicePresent s c && ownedBy fn (t1Coppice s c)
def ownsGroup (s : State) (fn : Fn) (g : Nat) : Bool := groupPresent s g && ownedBy fn (t1Group s g)
def ownsNand (s : State) (fn : Fn) (n : Nat) : Bool := nandPresent s n && (nandCh s n).inService && ownedBy fn (t1Nand s n)

/-- The units 0 to 3 for which a predicate holds. -/
def unitList (p : Nat → Bool) : List Nat := (List.range 4).filter p

def coppicesOf (s : State) (fn : Fn) : List Nat := unitList (ownsCoppice s fn)
def groupsOf (s : State) (fn : Fn) : List Nat := unitList (ownsGroup s fn)
def nandsOf (s : State) (fn : Fn) : List Nat := unitList (ownsNand s fn)

/-- The coppices named in a 4-bit mask. -/
def maskList (mask : Nat) : List Nat := (List.range 4).filter (fun i => mask.testBit i)

/- ### Domains -/

def domOf (s : State) (d : Nat) : Dom := (s.power.doms.find? (fun x => x.id == d)).getD { id := d }
def setDom (s : State) (x : Dom) : State :=
  { s with power := { s.power with doms := s.power.doms.map (fun y => if y.id = x.id then x else y) } }
def updDom (s : State) (d : Nat) (f : Dom → Dom) : State :=
  { s with power := { s.power with doms := s.power.doms.map (fun y => if y.id = d then f y else y) } }
def domOn (s : State) (d : Nat) : Bool := (domOf s d).state == .on

/-- The map generation count rises at a change of Table 21.7's content (21 R439). -/
def bumpMap (s : State) : State := { s with boot := { s.boot with mapGen := s.boot.mapGen + 1 } }

/- ### Time -/

/-- The mirror of a Laurel region (02 R32). -/
def mirrorOf (s : State) (d : Nat) : Mirror := (s.mirrors.find? (fun m => m.dom == d)).getD { dom := d }

/-- A stamp taken by a Laurel region: its mirror value (02 R33). -/
def stampOf (s : State) (d : Nat) : Nat := ((s.stb : Int) + (mirrorOf s d).offset).toNat

/-- The stamp of an event in a region: Gorse reads the STB itself, a Laurel region its mirror (02 R31 to R33). A stamp may be the tick of the
event or the tick before it (R33); the model always takes the tick of the event (DESIGN CHOICE, notes/assumptions/69.md). -/
def regionStamp (s : State) (d : Nat) : Nat := if d < 0x10 then s.stb else stampOf s d

/-- Whether a region's stamp carries the uncertainty mark; a Gorse stamp never does (02 R31, R36). -/
def regionUncertain (s : State) (d : Nat) : Bool := decide (0x10 ≤ d) && (mirrorOf s d).uncertain

/-- The stamp of the command processors, which run in CTRL. -/
def ctrlStamp (s : State) : Nat := stampOf s domCtrl

/-- Whether a stamp taken by the command processors carries the uncertainty mark (02 R36, R46). -/
def ctrlUncertain (s : State) : Bool := (mirrorOf s domCtrl).uncertain

/-- Draw the number of the next free value (notes/assumptions/1.md). -/
def bumpFree (s : State) : State := { s with freeCtr := s.freeCtr + 1 }

/- ### Sources and their order (02 R38 to R40) -/

/-- A source identifier: the kind of 02 Table 2.2 in bits [15:12], the index of Table 2.3 in bits [11:0] (R38). -/
def sourceId (kind index : Nat) : Nat := 4096 * (kind % 16) + index % 4096

def submissionSource (ring : Nat) : Nat := sourceId 1 ring
def completionSource (ring : Nat) : Nat := sourceId 2 ring
def audioSource (array : Bool) : Nat := sourceId 3 (b2n array)
def vibrationSource : Nat := sourceId 4 0
def cameraSource (port vc : Nat) : Nat := sourceId 5 (4 * port + vc)
def peerSource (unit : Nat) : Nat := sourceId 6 unit
def traceSource (port : Bool) : Nat := sourceId 7 (b2n port)

/-- Two stamps, each whole or a low half: compared whole where both are, else as low halves (02 R39). -/
inductive StampVal where
  | full (n : Nat)
  | low (x : U32)
deriving DecidableEq, Repr

def StampVal.half : StampVal → U32
  | .full n => BitVec.ofNat 32 n
  | .low x => x

/-- One stamp is earlier than another. -/
def StampVal.before : StampVal → StampVal → Bool
  | .full a, .full b => decide (a < b)
  | a, b => decide (low32Diff a.half b.half < 0)

/-- Two stamps are equal. -/
def StampVal.same : StampVal → StampVal → Bool
  | .full a, .full b => a == b
  | a, b => a.half == b.half

/-- A head goes before another: an earlier stamp, or on equal stamps the lower source. -/
def headBefore {α : Type} (src : α → Nat) (st : α → StampVal) (a b : α) : Bool :=
  (st a).before (st b) || ((st a).same (st b) && decide (src a < src b))

/-- The head record of each source in a list that keeps each source's own order. -/
def headsOf {α : Type} (src : α → Nat) : List Nat → List α → List α
  | _, [] => []
  | seen, x :: t => if seen.contains (src x) then headsOf src seen t else x :: headsOf src (src x :: seen) t

/-- The head that the merge takes next: of the heads in turn, the one that no earlier one stands before. -/
def bestHead {α : Type} (src : α → Nat) (st : α → StampVal) (l : List α) : Option α :=
  match headsOf src [] l with
  | [] => none
  | x :: t => some (t.foldl (fun b y => if headBefore src st y b then y else b) x)

/-- Take the first record of a source out of a list. -/
def dropFirst {α : Type} (src : α → Nat) (k : Nat) : List α → List α
  | [] => []
  | x :: t => if src x = k then t else x :: dropFirst src k t

/-- The merge of 02 R39 over `n` records: the best head comes out, its source goes on to its next record. -/
def mergeBy {α : Type} (src : α → Nat) (st : α → StampVal) : Nat → List α → List α
  | 0, _ => []
  | n + 1, l => match bestHead src st l with
    | none => []
    | some x => x :: mergeBy src st n (dropFirst src (src x) l)

/-- Records of several sources in the order of 02 R39; within a source the list has them in sequence-number order. -/
def mergeSources {α : Type} (src : α → Nat) (st : α → StampVal) (l : List α) : List α := mergeBy src st l.length l

/- ### Rings and sessions -/

/-- The function that owns a ring number (05 R97). -/
def fnOfRing (s : State) (r : Nat) : Fn := if 4096 - s.regs.ringSplit ≤ r then .pf1 else .pf0

/-- Whether a function owns a ring number. -/
def ownsRing (s : State) (fn : Fn) (r : Nat) : Bool := decide (r < 4096) && decide (fnOfRing s r = fn)

/-- The admin ring of a function (05 R98). -/
def adminRing (s : State) : Fn → Nat
  | .pf0 => 0
  | .pf1 => 4096 - s.regs.ringSplit

def admin (s : State) : Fn → Admin
  | .pf0 => s.regs.admin0
  | .pf1 => s.regs.admin1

def setAdmin (s : State) (fn : Fn) (a : Admin) : State :=
  match fn with
  | .pf0 => { s with regs := { s.regs with admin0 := a } }
  | .pf1 => { s with regs := { s.regs with admin1 := a } }

def sess (s : State) : Fn → Sess
  | .pf0 => s.sess0
  | .pf1 => s.sess1

def setSess (s : State) (fn : Fn) (x : Sess) : State :=
  match fn with
  | .pf0 => { s with sess0 := x }
  | .pf1 => { s with sess1 := x }

/-- The record of a ring; a ring number that never existed reads as an empty record. -/
def ringOf (s : State) (r : Nat) : Ring := (s.rings.find? (fun x => x.num == r)).getD { num := r }

/-- Store the record of a ring. -/
def setRing (s : State) (x : Ring) : State :=
  { s with rings := if s.rings.any (fun y => y.num == x.num) then s.rings.map (fun y => if y.num = x.num then x else y)
                    else s.rings ++ [x] }

/-- D-state of a function (05 R127). -/
def dState (s : State) : Fn → DState
  | .pf0 => s.pcie.d0
  | .pf1 => s.pcie.d1

/-- Laurel holds the host-facing state (01 R7, R19). -/
def leaseHeld (s : State) : Bool :=
  (s.custody.state == .granted) && s.custody.line && !s.custody.stopped && !s.custody.quiescing

/-- The link and the function let the device write host memory (05 R127, 14 R336). -/
def busWritable (s : State) (fn : Fn) : Bool :=
  (dState s fn == .d0) && !s.fault.integrity && (s.pcie.link == .l0)

/-- Host-facing writes are allowed (01 R7): with the lease, or for contest writes. -/
def hostWritable (s : State) (fn : Fn) (contest : Bool) : Bool := busWritable s fn && (contest || leaseHeld s)

/-- Write bytes into host memory. -/
def hostWrite (s : State) (a : Nat) (bs : List Byte) : State :=
  { s with store := { s.store with host := memWriteN s.store.host a bs } }

/-- Whether records of a function wait to be written. -/
def hasHeld (s : State) (fn : Fn) : Bool := s.heldOut.any (fun h => h.fn == fn)

/-- A low-power state of the link that the device leaves by itself (05 R127). -/
def linkRests (lk : LinkState) : Bool := lk == .l1 || lk == .l11 || lk == .l12

/-- Data of a function in D0 to write makes the device leave L1, L1.1 or L1.2; for L1.2 it drives CLKREQ_N low (05 R127). -/
def leaveLink (s : State) (fn : Fn) : State :=
  if dState s fn = .d0 ∧ linkRests s.pcie.link = true then
    { s with pcie := { s.pcie with exitAsked := true }, pins := { s.pins with clkreqLow := s.pins.clkreqLow || s.pcie.link == .l12 } }
  else s

/-- Data a command writes to host memory; it waits, in order, while writes are not allowed (05 R127). -/
def hostOut (s : State) (fn : Fn) (a : Nat) (bs : List Byte) : State :=
  if hostWritable s fn false && !hasHeld s fn then hostWrite s a bs
  else leaveLink { s with heldOut := s.heldOut ++ [{ fn := fn, ring := 0, addr := some a, record := bs }] } fn

/-- Entry sizes of completion rings (05 Table 5.1). -/
def cqEntry : Fn → Nat
  | .pf0 => 32
  | .pf1 => 64

/-- The 8 bytes of the completion word of a ring (05 Table 5.3). -/
def completionWord (r : Ring) : List Byte := natLe 4 r.cqTail.toNat ++ natLe 4 r.fetched.toNat

/-- Update the completion word of a ring in host memory (05 R102). -/
def writeWord (s : State) (r : Nat) : State := hostWrite s (ringOf s r).cwAddr.toNat (completionWord (ringOf s r))

/- ### Counters and trace (17) -/

/-- Add to an aggregate or device counter. -/
def countUp (s : State) (id inst n : Nat) : State :=
  { s with obs := { s.obs with
      counters := if s.obs.counters.any (fun c => c.id == id && c.inst == inst)
        then s.obs.counters.map (fun c => if c.id = id ∧ c.inst = inst then { c with value := c.value + BitVec.ofNat 64 n } else c)
        else s.obs.counters ++ [{ id := id, inst := inst, value := BitVec.ofNat 64 n }] } }

/-- One trace event record (17 Table 17.5), `TSEQ` zero until it is written. -/
def traceRec (stamp ev flags master : Nat) (layer op : U16) (seq : U32) (data : Nat) (lostBefore : Bool) :
    List Byte :=
  natLe 8 stamp ++ zeroBytes 4 ++ natLe 1 ev ++ natLe 1 (flags + 4 * b2n lostBefore) ++ natLe 1 master ++ [0]
    ++ natLe 2 layer.toNat ++ natLe 2 op.toNat ++ natLe 4 seq.toNat ++ natLe 8 data

/-- Whether a destination takes an event (17 Table 17.7, R395). -/
def traceTakes (t : TraceDest) (ev : Nat) (layer op : U16) : Bool :=
  t.events.toNat.testBit ev &&
    (ev == 0x0F || ev == 0x08 || ev == 0x0B ||
      ((t.filterLayer == 0xFFFF || t.filterLayer == layer) && (t.filterOp == 0xFFFF || t.filterOp == op)))

/-- Records a staging buffer of 64 KiB holds (17 R392). -/
def traceRoom : Nat := 2048

/-- Stage an event of a source at a destination, or drop and count it when the buffer is full (17 R392). -/
def traceStage (t : TraceDest) (src stamp ev flags master : Nat) (layer op : U16) (seq : U32) (data : Nat) : TraceDest :=
  if !traceTakes t ev layer op then t
  else if traceRoom ≤ t.staged.length + b2n (decide (0 < t.lostRun)) then
    { t with lostRun := t.lostRun + 1, dropped := t.dropped + 1 }
  else
    let lost := if t.lostRun = 0 then [] else [{ src := src, stamp := stamp, record := traceRec stamp 0x0F 0 0x5A 0 0 0 t.lostRun false : TraceEv }]
    { t with staged := t.staged ++ lost
               ++ [{ src := src, stamp := stamp, record := traceRec stamp ev flags master layer op seq data (decide (0 < t.lostRun)) }]
             lostRun := 0 }

/-- Staged events in the order in which they are written (02 R39, R40; 17 R391), numbered from the destination's `TSEQ` on. -/
def traceOrder (t : TraceDest) : List (U32 × List Byte) :=
  (mergeSources (·.src) (fun e => .full e.stamp) t.staged).zipIdx.map (fun e =>
    let n := t.tseq + BitVec.ofNat 32 e.2
    (n, e.1.record.take 8 ++ natLe 4 n.toNat ++ e.1.record.drop 12))

/-- A destination whose staged events have been written. -/
def traceSent (t : TraceDest) : TraceDest := { t with tseq := t.tseq + BitVec.ofNat 32 t.staged.length, staged := [] }

/-- Drain the host-ring staging buffer into host memory while writes are allowed, then the count word (17 R393). -/
def traceDrain (s : State) : State :=
  let t := s.obs.trace0
  if t.staged.isEmpty || !hostWritable s .pf0 false then s
  else
    let s := (traceOrder t).foldl (fun s e => hostWrite s (t.base.toNat + 32 * (e.1.toNat % 2 ^ t.log2)) e.2) s
    let s := hostWrite s t.countAddr.toNat (natLe 4 (traceSent t).tseq.toNat ++ natLe 4 t.dropped)
    { s with obs := { s.obs with trace0 := traceSent t } }

/-- Frames of the trace port (17 R394): two sync bytes and the event. -/
def traceFrame (e : List Byte) : List Byte := [0xA5, 0x5A] ++ e

/-- Send the events staged for the trace port (17 R394). -/
def portDrain (s : State) : State :=
  let t := s.obs.trace1
  if t.staged.isEmpty then s
  else { s with obs := { s.obs with trace1 := traceSent t, portOut := s.obs.portOut ++ (traceOrder t).map (fun e => traceFrame e.2) } }

/-- Make a trace event of a source in a region at both destinations (17 R391). Staged events are written with the next tick, so that those
of one tick stand in the order of 02 R39 (notes/assumptions/68.md). -/
def traceEvent (s : State) (dom src ev master : Nat) (layer op : U16) (seq : U32) (data : Nat) : State :=
  let fl := b2n (regionUncertain s dom)
  let n := regionStamp s dom
  { s with obs := { s.obs with trace0 := traceStage s.obs.trace0 src n ev fl master layer op seq data
                               trace1 := traceStage s.obs.trace1 src n ev fl master layer op seq data } }

/-- A trace event of tenant 0's command, made by its command processor (17 R391, R398): the fetch is the submission ring's, the others the
completion path's. -/
def traceCmd (s : State) (c : Cmd) (ev data : Nat) : State :=
  match c.fn with
  | .pf0 => traceEvent s domCtrl (if ev = 0x01 then submissionSource c.pkt.ring else completionSource c.pkt.ring) ev 0x10 c.pkt.layerId c.pkt.opId
      c.pkt.seq data
  | .pf1 => s

/-- Region of a tile or edge engine, numbered as in 14 Table 14.5 less 0x20 for tiles. -/
def unitDom (unit : Nat) : Nat := if unit < 0x28 then domTile unit else domEdge (unit - 0x48)

/-- A trace event of a tile or edge engine that works for tenant 0's command. -/
def traceUnit (s : State) (c : Cmd) (unit ev data : Nat) : State :=
  let master := if unit < 0x28 then 0x20 + unit else unit
  match c.fn with
  | .pf0 => traceEvent s (unitDom unit) master ev master c.pkt.layerId c.pkt.opId c.pkt.seq data
  | .pf1 => s

/- ### Faults (14) -/

/-- Sources detected by the Laurel collector; the others are Gorse's (14 Table 14.3). -/
def laurelSource (src : Nat) : Bool :=
  [0x01, 0x02, 0x08, 0x09, 0x0A, 0x0B, 0x10, 0x11, 0x12, 0x13, 0x14, 0x15, 0x16, 0x18, 0x1F, 0x20].contains src

/-- Whether a record is of a source instance. -/
def sameInst (c : Capture) (src inst : Nat) : Bool := c.source == src && c.inst == inst

/-- The log's order (02 R40, 14 R343): the records of each collector by `FSEQ`, the two collectors merged by stamp. 02 Table 2.2 numbers no
collector: on equal stamps the master's own comes first (DESIGN CHOICE, notes/assumptions/68.md). -/
def logOrder (l : List Capture) : List Capture := mergeSources (fun c => b2n c.laurel) (fun c => .full c.stamp) l

/-- Enter a record in the master log (14 R343): the next `FSEQ`; a full log drops its oldest CORRECTED record, or the
new one. -/
def logCapture (s : State) (c : Capture) : State :=
  let f := s.fault
  let c := { c with fseq := f.fseq }
  let f := { f with fseq := f.fseq + 1,
                    firstSource := if f.firstSource = 0 && decide (2 ≤ c.cls) then c.source else f.firstSource }
  let f := if f.log.length < 512 then { f with log := logOrder (f.log ++ [c]) }
    else match f.log.findIdx? (fun x => x.cls == 0) with
      | some i => { f with log := logOrder (f.log.eraseIdx i ++ [c]) }
      | none => { f with lost := f.lost + 1 }
  traceEvent { s with fault := f } 0x00 0x00 0x0B 0x00 0 0 0 (c.fseq.toNat + 2 ^ 32 * c.cls)

/-- A later error of a captured instance (14 R342). -/
def bumpCapture (c : Capture) : Capture := { c with count := if c.count = 2 ^ 32 - 1 then c.count else c.count + 1 }

/-- Captures whose `DETAIL` the spec leaves to the checker: a syndrome, a monitor reading, and the flits that the die link dropped at a FATAL
halt (14 Table 14.4, R333; notes/assumptions/82.md). -/
def detailOpen (c : Capture) : Bool := c.cls == 2 || [0x01, 0x02, 0x03, 0x04, 0x11, 0x14, 0x19, 0x1B].contains c.source

/-- Report an error (14 R330, R342): counted where its instance is captured at the same or a higher class, else
captured; Laurel's captures are forwarded, Gorse's logged at once. -/
def raise (s : State) (c : Capture) : State :=
  if s.fault.log.any (fun x => sameInst x c.source c.inst && decide (c.cls ≤ x.cls)) then
    { s with fault := { s.fault with
        log := s.fault.log.map (fun x => if sameInst x c.source c.inst ∧ c.cls ≤ x.cls then bumpCapture x else x) } }
  else if s.fault.forward.any (fun x => sameInst x c.source c.inst && decide (c.cls ≤ x.cls)) then
    { s with fault := { s.fault with
        forward := s.fault.forward.map (fun x => if sameInst x c.source c.inst ∧ c.cls ≤ x.cls then bumpCapture x else x) } }
  else
    let c := if detailOpen c then { c with detail := BitVec.ofNat 64 (Config.freeNat s.freeCtr) } else c
    let s := if detailOpen c then bumpFree s else s
    if c.laurel then { s with fault := { s.fault with forward := s.fault.forward ++ [c] } } else logCapture s c

/-- Master of a source's unit (14 Table 14.5, notes/assumptions/35.md). -/
def masterOf (src inst : Nat) : Nat :=
  match src with
  | 0x08 | 0x28 => 0x20 + inst
  | 0x09 => 0x48 + inst
  | 0x0A => 0x4C + inst
  | 0x0B | 0x1D => 0x10 + inst
  | 0x0C => 0x01
  | 0x0D | 0x1C | 0x25 | 0x27 => 0x00
  | 0x10 => if inst = 0 then 0x59 else 0x58
  | 0x11 | 0x12 | 0x13 => 0x15
  | 0x14 | 0x15 => 0x14
  | 0x26 => 0x04
  | _ => 0xFF

/-- Access kind of a source's error (14 Table 14.4). -/
def accessOf (src : Nat) : Nat :=
  match src with
  | 0x01 | 0x02 | 0x03 | 0x11 | 0x13 | 0x14 | 0x16 => 0
  | 0x15 => 1
  | 0x24 => 2
  | 0x08 | 0x09 | 0x0A => 3
  | 0x10 => 4
  | 0x04 => 5
  | _ => 6

/-- Whether tenant 1, tenant 0 or no tenant owns a source's unit (14 R344, 13 Table 13.1). -/
def unitTenant (s : State) (src inst : Nat) : Option Fn :=
  let own := fun b : Bool => some (if b then Fn.pf1 else Fn.pf0)
  match src with
  | 0x01 | 0x08 | 0x28 => own (t1Coppice s (inst / 10))
  | 0x09 | 0x0A => own (t1Coppice s inst)
  | 0x11 | 0x12 | 0x13 => own (t1Group s (inst / 8))
  | 0x14 | 0x15 => own (t1Nand s inst)
  | 0x0B | 0x1D => own (inst == 1)
  | 0x25 | 0x26 => some .pf0
  | _ => none

/-- Region in which a source's checker detects an error (14 Table 14.3): the unit's own, CTRL for Laurel's common units, Gorse's AON else. -/
def sourceDom (src inst : Nat) : Nat :=
  if src = 0x01 ∨ src = 0x08 then domTile inst
  else if src = 0x09 then domEdge inst
  else if src = 0x0A then domCop inst
  else if src = 0x11 ∨ src = 0x12 ∨ src = 0x13 then (if inst < 16 then domMema else domMemb)
  else if src = 0x14 ∨ src = 0x15 then domNand
  else if src = 0x1F ∨ src = 0x20 then inst
  else if laurelSource src then domCtrl else 0x00

/-- A capture whose checker lies in another region than its source's own. -/
def Capture.inRegion (c : Capture) (s : State) (d : Nat) : Capture :=
  { c with stamp := regionStamp s d, uncertain := regionUncertain s d, laurel := decide (0x10 ≤ d) }

/-- A capture of a unit at the present stamp of its region. -/
def capture (s : State) (src inst cls : Nat) : Capture :=
  { stamp := regionStamp s (sourceDom src inst), fseq := 0, source := src, inst := inst, cls := cls, laurel := laurelSource src
    uncertain := regionUncertain s (sourceDom src inst), master := masterOf src inst, access := accessOf src,
    device := (unitTenant s src inst).isNone, tenant1 := unitTenant s src inst == some .pf1 }

/-- A capture of an affected command (14 Table 14.4). -/
def captureCmd (s : State) (c : Cmd) (src inst cls : Nat) : Capture :=
  { capture s src inst cls with device := false, tenant1 := c.fn == .pf1, ring := c.pkt.ring, cmdSeq := c.pkt.seq,
                                layerId := c.pkt.layerId, opId := c.pkt.opId }

/- ### Completion -/

/-- Status codes (21 Table 21.12). -/
inductive Status where
  | ok | cancelled | badOpcode | badParam | noSession | authFail | quota | dimEmpty | lengthLimit | pageWaitTimeout
  | notResidentTimeout | poison | notPresent | contested | privacyBlock | fwReject | deadlineMissed | truncated
  | busyPinned | groupAbsent | integrityHalt
deriving DecidableEq, Repr

/-- The code written in a completion record (21 Table 21.12). -/
def statusCode : Status → Nat
  | .ok => 0x00 | .cancelled => 0x01 | .badOpcode => 0x02 | .badParam => 0x03 | .noSession => 0x04
  | .authFail => 0x05 | .quota => 0x06 | .dimEmpty => 0x07 | .lengthLimit => 0x08 | .pageWaitTimeout => 0x09
  | .notResidentTimeout => 0x0A | .poison => 0x0B | .notPresent => 0x0C | .contested => 0x0D
  | .privacyBlock => 0x0E | .fwReject => 0x0F | .deadlineMissed => 0x10 | .truncated => 0x11
  | .busyPinned => 0x12 | .groupAbsent => 0x13 | .integrityHalt => 0x14

/-- `WARN` bits (21 Table 21.13). -/
def warnNarrow : BitVec 8 := 1
def warnEmptyRow : BitVec 8 := 2
def warnUncertain : BitVec 8 := 4
def warnRerun : BitVec 8 := 8
def warnPageWaited : BitVec 8 := 16
def warnEvicted : BitVec 8 := 32

/-- A result field: 12 bytes, padded with zeros and cut (05 Table 5.8). -/
def result12 (r : List Byte) : List Byte := (r ++ zeroBytes 12).take 12

/-- The 32-byte completion record (05 Table 5.8). -/
def recordBytes (seq : U32) (status : Nat) (warn cflags : BitVec 8) (stamp slowdown : Nat) (result : List Byte) :
    List Byte :=
  natLe 4 seq.toNat ++ natLe 2 status ++ [warn, cflags] ++ natLe 8 stamp ++ natLe 4 slowdown ++ result12 result

/-- `SLOWDOWN` of a command (11 R278): measured over estimated, rounded to nearest in 16.16 form, saturating;
1.0 for a command that ran no batch step (05 Table 5.8). -/
def slowdown (meas est : Nat) : Nat :=
  if est = 0 then 0x00010000 else min ((meas * 65536 * 2 + est) / (2 * est)) 0xFFFFFFFF

/-- The completion entry of PF1 (05 R110): bytes 0-19 in clear, the result sealed under the completion key with the
initialisation vector of Table 5.7, the tag, and zeros. A clear-form packet's entry is in clear (R106). -/
def entryBytes (s : State) (fn : Fn) (r : Ring) (isSealed : Bool) (rc : List Byte) : List Byte :=
  match fn with
  | .pf0 => rc
  | .pf1 =>
    if isSealed then
      let iv := natLe 4 r.cqTail.toNat ++ natLe 2 r.num ++ [0x01, 0x00] ++ natLe 2 r.session ++ natLe 2 r.generation
      let ct := Config.gcmSeal (s.sess1.keys.getD 1 0) iv (rc.take 20) (rc.drop 20)
      rc.take 20 ++ ct.1 ++ ct.2 ++ zeroBytes 16
    else rc ++ zeroBytes 32

/-- Put a record into the completion ring: at slot `CQ_TAIL` mod 2^n, then the completion word (05 R100, R102). With the entry of count
0xFFFF_FFFE the ring is spent (R108); the records of the packets that then fail authentication are written as every other's, their
initialisation vectors counted on past the wrap (notes/assumptions/76.md). -/
def postEntry (s : State) (fn : Fn) (rn : Nat) (isSealed : Bool) (rc : List Byte) : State :=
  let r := ringOf s rn
  let s1 := hostWrite s (r.cqBase.toNat + cqEntry fn * (r.cqTail.toNat % 2 ^ r.log2)) (entryBytes s fn r isSealed rc)
  writeWord (setRing s1 { r with cqTail := r.cqTail + 1, spent := r.spent || r.cqTail == 0xFFFFFFFE }) rn

/-- Write a record, or hold it until writes are allowed; held records keep their order, a `CONTESTED` one among them (05 R111, R127). -/
def postRecord (s : State) (fn : Fn) (rn : Nat) (isSealed contest : Bool) (rc : List Byte) : State :=
  if hostWritable s fn contest && !hasHeld s fn then postEntry s fn rn isSealed rc
  else leaveLink { s with heldOut := s.heldOut ++ [{ fn := fn, ring := rn, isSealed := isSealed, record := rc }] } fn

/-- Replace an in-flight command's record. -/
def setCmd (s : State) (c : Cmd) : State := { s with cmds := s.cmds.map (fun x => if x.id = c.id then c else x) }
def cmdOf (s : State) (id : Nat) : Option Cmd := s.cmds.find? (fun c => c.id == id)
def dropCmd (s : State) (id : Nat) : State := { s with cmds := s.cmds.filter (fun c => c.id != id) }

/-- Complete a packet with a stamp of its own: its one final record (05 R111, Table 5.8, 21 R445). -/
def completeAt (s : State) (c : Cmd) (stamp : Nat) (st : Status) (result : List Byte) : State :=
  let warn := c.warn ||| (if ctrlUncertain s then warnUncertain else 0)
  let rc := recordBytes c.pkt.seq (statusCode st) warn 0 stamp (slowdown c.meas c.est) result
  let s := dropCmd s c.id
  let s := postRecord s c.fn c.pkt.ring c.isSealed (st == .contested) rc
  let s := countUp s 0x0001 (match c.fn with | .pf0 => 0 | .pf1 => 1) 1
  traceCmd s c 0x02 (c.pkt.ring + 65536 * statusCode st + 2 ^ 32 * warn.toNat)

/-- Complete a packet at the present stamp. -/
def complete (s : State) (c : Cmd) (st : Status) (result : List Byte := []) : State :=
  completeAt s c (ctrlStamp s) st result

/-- Uncompleted packets of a ring, which hold completion entries back (05 R103). -/
def openOn (s : State) (rn : Nat) : Nat := (s.cmds.filter (fun c => c.pkt.ring == rn)).length

/-- Free completion entries of a ring (05 R103); a record that waits to be written has taken its entry. -/
def freeEntries (s : State) (r : Ring) : Nat :=
  2 ^ r.log2 - (r.cqTail - r.cqHead).toNat - (s.heldOut.filter (fun h => h.addr.isNone && h.ring == r.num)).length

/-- A progress record (05 Table 5.9): written into a free entry that no uncompleted packet holds, else dropped and
counted. -/
def progress (s : State) (c : Cmd) (pcode detail : Nat) (optional : Bool) : State :=
  if optional && !c.pkt.flags.toNat.testBit 4 then s
  else
    let r := ringOf s c.pkt.ring
    let s := traceCmd s c 0x07 (pcode + 2 ^ 32 * (detail % 2 ^ 20))
    if freeEntries s r ≤ openOn s c.pkt.ring then
      setRing s { r with dropped := r.dropped + 1 }
    else
      postRecord s c.fn c.pkt.ring c.isSealed false
        (recordBytes c.pkt.seq 0 0 0x80 (ctrlStamp s) (slowdown c.meas c.est) (natLe 2 pcode ++ natLe 4 detail))

/-- Write out held records of a function, oldest first (05 R127). -/
def flushHeld (s : State) (fn : Fn) : State :=
  if !hostWritable s fn false then s
  else
    let mine := s.heldOut.filter (fun h => h.fn == fn)
    let s := { s with heldOut := s.heldOut.filter (fun h => h.fn != fn) }
    mine.foldl (fun s h => match h.addr with
      | some a => hostWrite s a h.record
      | none => postEntry s fn h.ring h.isSealed h.record) s

end Sys2Proof.Machine
end

