-- ==== Sys2Proof/Machine/GroupOps.lean ====
section
/-! DEFINITION. The shared Kraotas operations: a unit's control blocks and its leaving of the group (16 R371 to R376). -/

namespace Sys2Proof.Machine

/-- Size of a BAR2 region and the place of the control block in it (16 Table 16.2). -/
def regionSize : Nat := 0x04000000
def controlOff : Nat := 0x00080000

/-- `PSTATE` this unit shows a peer: 3 while the pair is broken, else its own state (16 Table 16.4). -/
def pstateFor (g : Group) (p : Peer) : Nat := if p.broken then 3 else if g.state = 2 then 1 else 0

/-- The control block of this unit for a peer (16 Table 16.4). -/
def controlBytes (s : State) (p : Peer) (pstate : Nat) : List Byte :=
  let g := s.group
  natLe 4 g.groupId.toNat ++ natLe 2 g.joinGen.toNat ++ natLe 1 pstate ++ natLe 1 g.self
    ++ natLe 4 p.returned.toNat ++ natLe 4 p.rxLen ++ natLe 8 (ctrlStamp s) ++ natLe 4 p.rxNext.toNat ++ zeroBytes 36

/-- Write the control block into every peer's region (16 R372), while Laurel may write to the bus; a resting link is left for it (05 R127). -/
def writeBlocks (s : State) : State :=
  let g := s.group
  if !hostWritable s .pf0 false then (if leaseHeld s then leaveLink s .pf0 else s)
  else { s with group := { g with
      out := g.out ++ g.peers.map (fun p =>
        (p.bar2 + BitVec.ofNat 64 (regionSize * g.self + controlOff), controlBytes s p (pstateFor g p)))
      lastWrite := s.stb } }

/-- End the group membership; with `tell`, `PSTATE` 2 is written to every peer first where the bus takes
writes (16 R376). The join count, the
writes already made and the count of ignored writes stay. -/
def resetGroup (s : State) (tell : Bool) : State :=
  let g := s.group
  if g.state = 0 then s
  else
    let out := if tell && busWritable s .pf0 then g.peers.map (fun p =>
      (p.bar2 + BitVec.ofNat 64 (regionSize * g.self + controlOff), controlBytes s p 2)) else []
    { s with group := { joinGen := g.joinGen, out := g.out ++ out, lastWrite := s.stb, ignored := g.ignored } }

def peerOf (s : State) (u : Nat) : Option Peer := s.group.peers.find? (fun p => p.unit == u)
def setPeer (s : State) (p : Peer) : State :=
  { s with group := { s.group with peers := s.group.peers.map (fun q => if q.unit = p.unit then p else q) } }

end Sys2Proof.Machine
end

