-- ==== Sys2Proof/Machine/Fetch.lean ====
section
/-! DEFINITION. What the packet layer gives every command: its parameter fields, the opcode table, the fetch checks
of 05 Table 5.11, the order in which packets start, and the kinds of early end. -/

namespace Sys2Proof.Machine

/- ### Parameter fields, named by the byte numbers of the tables -/

/-- Inline parameter bytes `[off, off + len)`, numbered as in 05 Table 5.4. -/
def arg (c : Cmd) (off len : Nat) : Nat := field c.pkt.body (off - 24) len
def argS (c : Cmd) (off len : Nat) : Int := sfield c.pkt.body (off - 24) len
def argBytes (c : Cmd) (off len : Nat) : List Byte := bytesAt c.pkt.body (off - 24) len

/-- Inline bytes `[a, b]` are zero; on PF1 the sealed area beyond byte 63 is reserved too (05 Table 5.6). -/
def argZero (c : Cmd) (a b : Nat) : Bool := zeroAt c.pkt.body (a - 24) (b - 24)
def restZero (c : Cmd) (a : Nat) : Bool := zeroAt c.pkt.body (a - 24) (match c.fn with | .pf0 => 39 | .pf1 => 87)

/-- Parameter-block bytes `[off, off + len)`. -/
def blk (c : Cmd) (off len : Nat) : Nat := field c.pkt.block off len
def blkS (c : Cmd) (off len : Nat) : Int := sfield c.pkt.block off len
def blkZero (c : Cmd) (a b : Nat) : Bool := zeroAt c.pkt.block a b

def flag (p : Packet) (i : Nat) : Bool := p.flags.toNat.testBit i
def indirect (p : Packet) : Bool := flag p 2
def ctxValid (p : Packet) : Bool := p.ctx.toNat.testBit 31
def ctxHandle (p : Packet) : Nat := p.ctx.toNat % 2 ^ 20

/-- Opcode byte of a command (05 Table 5.10). A reserved opcode has none. -/
def opcode : Op → Nat
  | .nop => 0x00 | .badOpcode => 0xFF | .capsRead => 0x01 | .sessionOpen => 0x02 | .sessionClose => 0x03
  | .attest => 0x04 | .keyExchange => 0x05 | .cancel => 0x06 | .ringCreate => 0x10 | .ringDestroy => 0x11
  | .semCreate => 0x12 | .semSignal => 0x13 | .semWait => 0x14 | .fence => 0x15 | .alloc => 0x20 | .free => 0x21
  | .copy => 0x22 | .placeHint => 0x23 | .quotaSet => 0x24 | .tableBuild => 0x25 | .compress => 0x26
  | .modelLoad => 0x30 | .modelPin => 0x31 | .modelEvict => 0x32 | .modelInfo => 0x33 | .seqCreate => 0x40
  | .seqAppend => 0x41 | .seqFork => 0x42 | .seqFree => 0x43 | .streamOpen => 0x44 | .streamChunk => 0x45
  | .streamClose => 0x46 | .stateSwap => 0x47 | .graphRun => 0x50 | .matmul => 0x51 | .conv2d => 0x51
  | .pool2d => 0x51 | .attention => 0x51 | .stepPolicy => 0x52 | .trainStep => 0x53 | .listenPolicy => 0x60
  | .wakeArm => 0x61 | .audioRead => 0x62 | .cameraConfig => 0x63 | .cameraParams => 0x64 | .frameRead => 0x65
  | .domainPolicy => 0x70 | .powerLimit => 0x71 | .powerStats => 0x72 | .fwStage => 0x80 | .fwActivate => 0x81
  | .fwQuery => 0x82 | .faultRead => 0x90 | .faultClear => 0x91 | .faultInject => 0x92 | .counterRead => 0xA0
  | .traceConfig => 0xA1 | .watchSet => 0xA2 | .timeSync => 0xA3 | .groupJoin => 0xB0 | .peerSend => 0xB1
  | .peerCredit => 0xB2 | .groupLeave => 0xB3

/-- Opcodes of 05 Table 5.10; every other value is reserved. -/
def definedOpcodes : List Nat :=
  [0x00, 0x01, 0x02, 0x03, 0x04, 0x05, 0x06, 0x10, 0x11, 0x12, 0x13, 0x14, 0x15, 0x20, 0x21, 0x22, 0x23, 0x24, 0x25,
   0x26, 0x30, 0x31, 0x32, 0x33, 0x40, 0x41, 0x42, 0x43, 0x44, 0x45, 0x46, 0x47, 0x50, 0x51, 0x52, 0x53, 0x60, 0x61,
   0x62, 0x63, 0x64, 0x65, 0x70, 0x71, 0x72, 0x80, 0x81, 0x82, 0x90, 0x91, 0x92, 0xA0, 0xA1, 0xA2, 0xA3, 0xB0, 0xB1,
   0xB2, 0xB3]

/-- Commands that need no session (05 Table 5.10). -/
def sessionFree : Op → Bool
  | .nop | .capsRead | .sessionOpen | .attest | .keyExchange => true
  | _ => false

/-- Commands that PF1 may not send (05 Table 5.10). -/
def pf0Only : Op → Bool
  | .listenPolicy | .wakeArm | .audioRead | .cameraConfig | .cameraParams | .frameRead | .domainPolicy | .powerLimit
  | .fwStage | .fwActivate | .faultInject | .traceConfig | .watchSet | .timeSync | .groupJoin | .peerSend | .peerCredit
  | .groupLeave => true
  | _ => false

/-- Commands that PF1 may send in clear form (05 R107). -/
def clearAllowed : Op → Bool
  | .nop | .capsRead | .attest | .keyExchange | .sessionOpen => true
  | _ => false

/-- Length of the parameter block of the commands that take one; GRAPH_RUN's follows from its own fields
(11 Table 11.9). -/
def blockLen (op : Op) (p : Packet) : Option Nat :=
  match op with
  | .attest => some 64
  | .keyExchange => some 1152
  | .tableBuild => some 128
  | .compress => some 192
  | .seqAppend => some 256
  | .streamChunk => some 320
  | .graphRun => some (64 + 64 * (field p.block 5 1 + field p.block 6 1))
  | .matmul => some 576
  | .conv2d => some 512
  | .pool2d => some 192
  | .attention => some 384
  | .trainStep => some 256
  | .groupJoin => some 192
  | _ => none

/- ### PF1 packets (05 R106 to R109, 13 R320 to R322) -/

/-- The 24 header bytes of a packet (05 Table 5.4). -/
def headerBytes (opc : Nat) (p : Packet) : List Byte :=
  natLe 1 opc ++ [p.flags] ++ natLe 2 p.plen ++ natLe 4 p.seq.toNat ++ natLe 4 p.ctx.toNat ++ natLe 2 p.layerId.toNat
    ++ natLe 2 p.opId.toNat ++ natLe 4 p.notBefore.toNat ++ natLe 4 p.deadline.toNat

/-- Initialisation vector of a sealed submission (05 Table 5.7). -/
def submitIv (r : Ring) (seq : U32) : List Byte :=
  natLe 4 seq.toNat ++ natLe 2 r.num ++ [0x00, 0x00] ++ natLe 2 r.session ++ natLe 2 r.generation

/-- Plaintext parameter bytes of a packet that authenticates (05 R109); nothing for one that does not. -/
def authenticate (s : State) (fn : Fn) (op : Op) (opc : Nat) (p : Packet) : Option (List Byte) :=
  match fn with
  | .pf0 => some p.body
  | .pf1 =>
    let r := ringOf s p.ring
    if r.spent || r.expSeq = 0xFFFFFFFF then none
    else if flag p 5 then
      if p.seq = r.expSeq && s.sess1.number ≠ 0 then
        Config.gcmOpen (s.sess1.keys.getD 0 0) (submitIv r p.seq) (headerBytes opc p) p.body p.tag
      else none
    else if clearAllowed op then some p.body else none

/-- Bytes of a sealed buffer of `len` plaintext bytes (13 Table 13.11, R321). -/
def sealedSize (len : Nat) : Nat := 64 + roundUp len 64 + 16 * ceilDiv len 4096

/-- The `u`-th unit's initialisation vector of a sealed buffer (13 R320). -/
def unitIv (bnonce u : Nat) : List Byte := natLe 8 bnonce ++ natLe 4 u

/-- Open unit `u` and those after it of a sealed buffer's bytes: the plaintext up to the first unit whose tag fails, and
whether none fails (13 R322). -/
def openUnits (key : U256) (bs : List Byte) (len bnonce : Nat) (u : Nat) : Nat → List Byte × Bool
  | 0 => ([], true)
  | k + 1 =>
    let n := min 4096 (len - 4096 * u)
    let ct := bytesAt bs (64 + 4096 * u) n
    let tag := bytesAt bs (64 + roundUp len 64 + 16 * u) 16
    match Config.gcmOpen key (unitIv bnonce u) [] ct tag with
    | none => ([], false)
    | some pt =>
      let r := openUnits key bs len bnonce (u + 1) k
      (pt ++ r.1, r.2)

/-- Plaintext of a sealed buffer read into the device (13 R320). -/
def unsealBuffer (key : U256) (bs : List Byte) : List Byte × Bool :=
  let len := field bs 8 8
  openUnits key bs len (field bs 0 8) 0 (ceilDiv len 4096)

/-- Seal the units of a buffer the device writes (13 R321). -/
def sealUnits (key : U256) (pt : List Byte) (bnonce : Nat) (u : Nat) : Nat → List Byte × List Byte
  | 0 => ([], [])
  | k + 1 =>
    let e := Config.gcmSeal key (unitIv bnonce u) [] (bytesAt pt (4096 * u) 4096)
    let rest := sealUnits key pt bnonce (u + 1) k
    (e.1 ++ rest.1, e.2 ++ rest.2)

/-- The bytes of a sealed buffer holding `pt` (13 Table 13.11). -/
def sealBuffer (key : U256) (bnonce : Nat) (pt : List Byte) : List Byte :=
  let e := sealUnits key pt bnonce 0 (ceilDiv pt.length 4096)
  natLe 8 bnonce ++ natLe 8 pt.length ++ zeroBytes 48
    ++ e.1 ++ zeroBytes (roundUp pt.length 64 - pt.length) ++ e.2

/-- Bytes a `DEST_LEN` must offer for `len` bytes of output (13 R321). -/
def destNeed (c : Cmd) (len : Nat) : Nat := if c.isSealed then sealedSize len else len

/-- Write a command's output to its `DEST` in host memory, in a sealed buffer for a sealed packet (13 R320, R321). -/
def writeDest (s : State) (c : Cmd) (a : Nat) (bs : List Byte) : State :=
  if c.isSealed then
    let n := s.sess1.bnonce + 1
    hostOut { s with sess1 := { s.sess1 with bnonce := n } } c.fn a (sealBuffer (s.sess1.keys.getD 3 0) n bs)
  else hostOut s c.fn a bs

/-- Read `len` bytes of a command's host operand: plain memory, or the plaintext of a sealed buffer up to the first unit
whose tag fails; the status says why bytes are missing (13 R320 to R322). -/
def readSrc (s : State) (c : Cmd) (a len : Nat) : List Byte × Option Status :=
  if c.isSealed then
    let blen := field (memReadN s.store.host a 64) 8 8
    if blen < len then ([], some .badParam)
    else
      let r := unsealBuffer (s.sess1.keys.getD 2 0) (memReadN s.store.host a (sealedSize blen))
      (r.1.take len, if r.1.length < len then some .authFail else none)
  else (memReadN s.store.host a len, none)

/- ### Fetch checks (05 Table 5.11) -/

/-- Check 5: reserved bits, `PLEN` and `INDIRECT`, `SEALED`, `NOT_BEFORE` not later than `DEADLINE` (05 R105, R107,
R44). `body` is the plaintext. A command whose parameters are a block needs `INDIRECT` with its own `PLEN`; on a command
with inline parameters `INDIRECT` is refused, but for NOP (notes/assumptions/11.md). -/
def check5 (fn : Fn) (op : Op) (p : Packet) (body : List Byte) (nb dl : Option Int) : Bool :=
  (p.flags.toNat / 64 == 0)
  && (if ctxValid p then bits p.ctx.toNat 30 20 == 0 else p.ctx == 0)
  && (if indirect p then
        decide (8 ≤ p.plen) && decide (p.plen ≤ 4096) && (p.plen % 8 == 0) && (field body 0 8 % 8 == 0)
          && zeroAt body 8 (match fn with | .pf0 => 39 | .pf1 => 87)
      else p.plen == 0)
  && (match fn with | .pf0 => !flag p 5 | .pf1 => flag p 5 || p.tag.all (· == 0))
  && (match nb, dl with | some a, some b => decide (a ≤ b) | _, _ => true)
  && (match blockLen op p with | some n => indirect p && p.plen == n | none => !indirect p || op == .nop)

/-- `SESSION_CLOSE` and `CANCEL` start at fetch (05 R113). -/
def startsAtFetch (op : Op) : Bool := op == .cancel || op == .sessionClose

/-- A fetched packet may start (05 R113, R42): every earlier packet of its ring has started, with `BARRIER` has
completed, unless it is one that starts at fetch; and its `NOT_BEFORE` has been reached, whichever it is. -/
def mayStart (s : State) (c : Cmd) : Bool :=
  (startsAtFetch c.op
    || s.cmds.all (fun d => !(d.pkt.ring == c.pkt.ring && decide (d.id < c.id)) || (d.phase != .waiting && !flag c.pkt 3)))
  && (match c.nb with | some t => decide (t ≤ ctrlStamp s) | none => true)

/-- Laurel's command processors run: released, clocked, and not halted (01 R17, 14 R332, R336). -/
def laurelRuns (s : State) : Bool :=
  s.boot.laurelReleased && domOn s domCtrl && !s.fault.haltLaurel && !s.fault.integrity

/-- Class at which a ring is served, boosts included (05 R115, 11 R268). -/
def ringClass (r : Ring) : Nat := match r.boost with | some b => min b r.cls | none => r.cls

/-- A ring has a packet that can be fetched: published, and with a completion entry to hold for it (05 R103). -/
def fetchable (s : State) (r : Ring) : Bool :=
  r.enabled && decide (r.fetched ≠ r.sqTail) && decide (openOn s r.num < freeEntries s r)

/-- Packets of a ring's turn (05 R115). -/
def turnLength : Nat := 8

/-- The ring that the round robin serves next among those of a class that have a fetchable packet (05 R115): the ring of the turn until it has
given 8, then the next in cyclic order of their numbers, which is the model's order, and the lowest at first (DESIGN CHOICE,
notes/assumptions/12.md). -/
def nextInTurn (t : Option Turn) (peers : List Nat) : Option Nat :=
  match t with
  | some t =>
    if t.taken < turnLength && peers.contains t.ring then some t.ring
    else (peers.filter (t.ring < ·)).min?.or peers.min?
  | none => peers.min?

def turnOf (s : State) (fn : Fn) (cls : Nat) : Option Turn := s.turns.find? (fun t => t.fn == fn && t.cls == cls)

/-- The command processor of the ring's tenant takes a packet from this ring now: the tenant's rings of a higher class have none, and it is the
ring's turn within its class (05 R115). -/
def fetchTurn (s : State) (fn : Fn) (rn : Nat) : Bool :=
  let r := ringOf s rn
  let others := s.rings.filter (fun q => decide (fnOfRing s q.num = fn) && fetchable s q)
  fetchable s r && others.all (fun q => decide (ringClass r ≤ ringClass q))
    && nextInTurn (turnOf s fn (ringClass r)) ((others.filter (fun q => ringClass q == ringClass r)).map (·.num)) == some rn

/-- A packet of a ring's turn is taken. -/
def takeTurn (s : State) (fn : Fn) (rn : Nat) : State :=
  let cls := ringClass (ringOf s rn)
  let n := match turnOf s fn cls with
    | some t => if t.ring = rn ∧ t.taken < turnLength then t.taken + 1 else 1
    | none => 1
  { s with turns := s.turns.filter (fun t => !(t.fn == fn && t.cls == cls)) ++ [{ fn := fn, cls := cls, ring := rn, taken := n }] }

/-- The conditions under which the device fetches a packet of a ring: Laurel holds the lease and runs, the function is
in D0 with the link up, and the ring has its turn (01 R7, R19; 05 R103, R115, R127). -/
def canFetch (s : State) (rn : Nat) : Bool :=
  laurelRuns s && leaseHeld s && busWritable s (fnOfRing s rn) && !s.custody.noReturn && fetchTurn s (fnOfRing s rn) rn

/-- Status at a deadline that passes, by where the command waits (02 R43; 16 R374). -/
def deadlineStatus : Phase → Status
  | .parked .page => .pageWaitTimeout
  | .parked .residency => .notResidentTimeout
  | .parked .join => .groupAbsent
  | _ => .deadlineMissed

/-- A command's deadline has passed without its commit (02 R43); never while Laurel quiesces (02 R45). An injection that has fired has
committed (14 R348). -/
def overdue (s : State) (c : Cmd) : Bool :=
  !s.custody.quiescing && !(c.op == .faultInject && !c.misc.isEmpty) && (match c.dl with | some t => decide (t < ctrlStamp s) | none => false)

/-- Its deadline passed on an earlier tick than this: an end that comes on the tick itself ranks before it (02 R45). -/
def longOverdue (s : State) (c : Cmd) : Bool := overdue s c && (match c.dl with | some t => decide (t + 1 < ctrlStamp s) | none => false)

/-- Commands of a session that have not completed. -/
def cmdsOf (s : State) (fn : Fn) : List Cmd := s.cmds.filter (fun c => c.fn == fn)

/-- A command's phase becomes a wait. -/
def park (s : State) (c : Cmd) (w : Wait) : State := setCmd s { c with phase := .parked w }

/-- The record a `RESIDENCY_WAIT` leaves, once per wait (10 R250). -/
def residencyWait (s : State) (c : Cmd) (handle : Nat) : State :=
  progress (setCmd s { c with phase := .parked .residency, resWaited := true }) c 0x0003 handle false

/-- Uncompleted commands whose id is listed. -/
def stillOpen (s : State) (ids : List Nat) : Bool := s.cmds.any (fun c => ids.contains c.id)

end Sys2Proof.Machine
end

