-- ==== Sys2Proof/Machine/Numbers.lean ====
section
/-! DEFINITION. The number formats and roundings of 06: alignment between exponents (R142), FP32 and BF16 values and
their conversions (R135, R143), the nonlinear evaluation (R150), and CRC-32C (07 R165). -/

namespace Sys2Proof.Machine

/- ### Integers (06 R141, R142) -/

/-- Clip to a range. -/
def clamp (v lo hi : Int) : Int := if v < lo then lo else if hi < v then hi else v

/-- Right shift rounding to nearest, ties to even. -/
def rneShift (v : Int) (s : Nat) : Int :=
  let q := v / 2 ^ s
  let r := v - q * 2 ^ s
  if 2 * r > 2 ^ s || (2 * r == 2 ^ s && q % 2 == 1 && decide (0 < s)) then q + 1 else q

/-- The alignment of 06 R142 before its clip. -/
def alignRaw (v : Int) (eFrom eTo : Int) (lo hi : Int) : Int :=
  let s := eTo - eFrom
  if s ≤ 0 then
    if 40 ≤ -s then (if 0 < v then hi else if v < 0 then lo else 0) else v * 2 ^ (-s).toNat
  else if 63 ≤ s then 0
  else rneShift v s.toNat

/-- Re-express an integer at another exponent within a range; the flag says that the result was clipped, or saturated
by a left shift of 40 or more (06 R142). -/
def align (v : Int) (eFrom eTo : Int) (lo hi : Int) : Int × Bool :=
  let r := alignRaw v eFrom eTo lo hi
  (clamp r lo hi, decide (r < lo) || decide (hi < r) || (decide (40 ≤ eFrom - eTo) && decide (v ≠ 0)))

/-- Range of a two's-complement value of `n` bits. -/
def minOf (n : Nat) : Int := -(2 ^ (n - 1) : Int)
def maxOf (n : Nat) : Int := 2 ^ (n - 1) - 1

/-- Signed saturation to `n` bits. -/
def satTo (n : Nat) (v : Int) : Int × Bool := (clamp v (minOf n) (maxOf n), decide (v < minOf n) || decide (maxOf n < v))

/- ### FP32 and BF16 (06 R135, R143) -/

/-- A floating-point value: the sign, and for a finite one magnitude `m` × 2^`e`. -/
inductive Fp where
  | nan
  | inf (neg : Bool)
  | fin (neg : Bool) (m : Nat) (e : Int)
deriving DecidableEq, Repr

/-- The value of an FP32 pattern; a subnormal reads as zero of the same sign. -/
def fpOf (b : U32) : Fp :=
  let n := b.toNat
  let x := bits n 30 23
  let f := n % 2 ^ 23
  let neg := bit n 31
  if x = 255 then (if f = 0 then .inf neg else .nan)
  else if x = 0 then .fin neg 0 0
  else .fin neg (2 ^ 23 + f) ((x : Int) - 150)

/-- The canonical quiet NaN. -/
def canonicalNan : U32 := 0x7FC00000

/-- Round to FP32: nearest, ties to even, overflow to infinity, a subnormal result to zero of the same sign. -/
def fpRound (neg : Bool) (m : Nat) (e : Int) (p : Nat) : U32 :=
  let sgn := if neg then 2 ^ 31 else 0
  if m = 0 then BitVec.ofNat 32 sgn
  else
    let len := m.log2 + 1
    let (q, e1) : Nat × Int :=
      if len ≤ p then (m * 2 ^ (p - len), e - (p - len : Nat)) else ((rneShift m (len - p)).toNat, e + (len - p : Nat))
    let (q, e1) := if q = 2 ^ p then (2 ^ (p - 1), e1 + 1) else (q, e1)
    let ex := e1 + (p - 1 : Nat)
    if 127 < ex then BitVec.ofNat 32 (sgn + 0x7F800000)
    else if ex < -126 then BitVec.ofNat 32 sgn
    else BitVec.ofNat 32 (sgn + (ex + 127).toNat * 2 ^ 23 + (q - 2 ^ (p - 1)) * 2 ^ (24 - p))

/-- The FP32 pattern of a value, rounded to `p` significant bits (24 for FP32, 8 for BF16). -/
def fpBits (p : Nat) : Fp → U32
  | .nan => canonicalNan
  | .inf neg => if neg then 0xFF800000 else 0x7F800000
  | .fin neg m e => fpRound neg m e p

/-- Exact sum. -/
def fpAdd : Fp → Fp → Fp
  | .nan, _ => .nan
  | _, .nan => .nan
  | .inf a, .inf b => if a = b then .inf a else .nan
  | .inf a, .fin _ _ _ => .inf a
  | .fin _ _ _, .inf b => .inf b
  | .fin a m e, .fin b n f =>
    let g := min e f
    let x : Int := (if a then -1 else 1) * m * 2 ^ (e - g).toNat
    let y : Int := (if b then -1 else 1) * n * 2 ^ (f - g).toNat
    if x + y = 0 then .fin (a && b) 0 0 else .fin (decide (x + y < 0)) (x + y).natAbs g

/-- Exact product. -/
def fpMul : Fp → Fp → Fp
  | .nan, _ => .nan
  | _, .nan => .nan
  | .inf a, .inf b => .inf (a != b)
  | .inf a, .fin b n _ => if n = 0 then .nan else .inf (a != b)
  | .fin a m _, .inf b => if m = 0 then .nan else .inf (a != b)
  | .fin a m e, .fin b n f => .fin (a != b) (m * n) (e + f)

/-- FP32 addition and multiplication, rounded. -/
def fadd (a b : U32) : U32 := fpBits 24 (fpAdd (fpOf a) (fpOf b))
def fmul (a b : U32) : U32 := fpBits 24 (fpMul (fpOf a) (fpOf b))

/-- Negation of an FP32 pattern, and subtraction. -/
def fneg (a : U32) : U32 := a ^^^ 0x80000000
def fsub (a b : U32) : U32 := fadd a (fneg b)

/-- A finite value; its magnitude; whether one finite value is at most another. -/
def Fp.finite : Fp → Bool
  | .fin _ _ _ => true
  | _ => false
def Fp.abs : Fp → Fp
  | .fin _ m e => .fin false m e
  | .inf _ => .inf false
  | .nan => .nan
def Fp.neg : Fp → Fp
  | .fin s m e => .fin (!s) m e
  | .inf s => .inf (!s)
  | .nan => .nan
def Fp.le (a b : Fp) : Bool :=
  match fpAdd b a.neg with
  | .fin s m _ => !s || m == 0
  | .inf s => !s
  | .nan => false

/-- Quotient of two FP32 values, rounded: 64 quotient bits and a sticky bit decide it. -/
def fdiv (a b : U32) : U32 :=
  match fpOf a, fpOf b with
  | .nan, _ => canonicalNan
  | _, .nan => canonicalNan
  | .inf _, .inf _ => canonicalNan
  | .inf s, .fin t _ _ => fpBits 24 (.inf (s != t))
  | .fin s _ _, .inf t => fpBits 24 (.fin (s != t) 0 0)
  | .fin s m e, .fin t n f =>
    if n = 0 then (if m = 0 then canonicalNan else fpBits 24 (.inf (s != t)))
    else fpBits 24 (.fin (s != t) (m * 2 ^ 64 / n * 2 + b2n (m * 2 ^ 64 % n != 0)) (e - f - 65))

/-- A rounded addition, and whether two finite values overflow in it. -/
def addStep (a b : Fp) : Fp × Bool :=
  let r := fpOf (fpBits 24 (fpAdd a b))
  (r, a.finite && b.finite && !r.finite)

/-- Add FP32 values until one is left; in each turn the device's choice takes two of them, and their sum is rounded (06 R135). The flag
says that a sum overflowed. -/
def fpSumGo (n : Nat) : Nat → List Fp → Fp × Bool
  | 0, l => (l.headD (.fin false 0 0), false)
  | k + 1, l =>
    match l with
    | [] => (.fin false 0 0, false)
    | [x] => (x, false)
    | x :: t =>
      let l := x :: t
      let i := Config.sumPick n (2 * k) % l.length
      let rest := l.eraseIdx i
      let j := Config.sumPick n (2 * k + 1) % rest.length
      let r := addStep (l.getD i x) (rest.getD j x)
      let q := fpSumGo n k (r.1 :: rest.eraseIdx j)
      (q.1, r.2 || q.2)

/-- ⌈log₂ n⌉. -/
def clog2 (n : Nat) : Nat := if n ≤ 1 then 0 else (n - 1).log2 + 1

/-- A rounded value lies within `c` × 2⁻²⁴ × `mag` of an exact one; an infinity or NaN is under no bound. -/
def sumWithin (c : Nat) (got exact mag : Fp) : Bool :=
  !got.finite || !exact.finite || Fp.le (fpAdd got exact.neg).abs (fpMul (.fin false c (-24)) mag)

/-- A value that the device reaches in its own order, held to its bound: the exact sum rounded stands in for one beyond it. -/
def heldSum (c : Nat) (got : Fp) (exact mag : Fp) : U32 := fpBits 24 (if sumWithin c got exact mag then got else exact)

/-- FP32 sum number `n` in an order that nothing fixes, within (⌈log₂ n⌉ + `c`) × 2⁻²⁴ × Σ|v| (06 R135, Table 6.11). Whether an accumulator's
+0 joins it is open too; it decides only the sign of a zero. -/
def fpSumOvf (c n : Nat) (l : List Fp) : U32 × Bool :=
  let q := fpSumGo n l.length (if Config.sumPick n (2 * l.length) % 2 = 0 then l else .fin false 0 0 :: l)
  (heldSum (clog2 l.length + c) q.1 (l.foldl fpAdd (.fin false 0 0)) ((l.map Fp.abs).foldl fpAdd (.fin false 0 0)), q.2)
def fpSum (n : Nat) (l : List Fp) : U32 := (fpSumOvf 1 n l).1

/-- An integer at an exponent, as FP32. -/
def intToFp (v : Int) (e : Int) : U32 := fpBits 24 (.fin (decide (v < 0)) v.natAbs e)

/-- A BF16 pattern read as FP32; a subnormal reads as zero of the same sign. -/
def bf16To32 (b : Nat) : U32 := fpBits 24 (fpOf (BitVec.ofNat 32 (b * 65536)))

/-- FP32 to BF16 (06 R143). -/
def toBf16 (x : U32) : Nat := (fpBits 8 (fpOf x)).toNat / 65536

/-- FP32 to an integer at an exponent within a range (06 R142, R143): infinity saturates, NaN gives 0, which the zero
point turns into itself. -/
def fpToInt (x : U32) (e lo hi : Int) : Int × Bool :=
  match fpOf x with
  | .nan => (0, false)
  | .inf neg => (if neg then lo else hi, true)
  | .fin neg m f => align (if neg then -(m : Int) else m) f e lo hi

def isNan (x : U32) : Bool := fpOf x == .nan
def isInf (x : U32) : Bool := match fpOf x with | .inf _ => true | _ => false

/- ### The nonlinear unit (06 R150, Table 6.6) -/

/-- A nonlinear table. -/
structure NlTable where
  log : Bool
  dOrP : Int
  low : Nat
  high : Nat
  segs : List (Int × Int × Int)
deriving DecidableEq, Repr

/-- One segment at `tt` (06 R150). -/
def segAt (t : NlTable) (i : Nat) (tt : Int) : Int :=
  match t.segs.getD i (0, 0, 0) with
  | (c0, c1, c2) => c0 + rneShift (c1 * tt) 16 + rneShift (c2 * tt * tt) 32

/-- The end behaviour of a LINEAR table. -/
def nlEdge (t : NlTable) (sel : Nat) (xi ewk enl : Int) (seg : Nat) (tt : Int) : Int × Bool :=
  match sel with
  | 0 => satTo 24 (segAt t seg tt)
  | 1 => align xi ewk enl (minOf 24) (maxOf 24)
  | _ => (0, false)

/-- `nl_eval` of 06 R150: the value, whether it was clipped, and `NL_DOMAIN`. -/
def nlEval (t : NlTable) (xi ewk enl : Int) : Int × Bool × Bool :=
  if t.log then
    if xi ≤ 0 then (0x7FFFFF, false, true)
    else
      let x := xi.toNat
      let e := x.log2
      let f := (x * 2 ^ (32 - e)) % 2 ^ 32
      let ex : Int := e + ewk
      let (i, tt, shift) : Nat × Nat × Int :=
        if t.dOrP = 1 then (f / 2 ^ 26, (f / 2 ^ 10) % 65536, -ex)
        else ((if ex % 2 = 1 then 32 else 0) + f / 2 ^ 27, (f / 2 ^ 11) % 65536, -(ex / 2))
      let r := align (segAt t i tt) 0 (-shift) (minOf 24) (maxOf 24)
      (r.1, r.2, false)
  else
    let w := (t.dOrP - ewk).toNat
    let u := xi + 2 ^ w
    let r :=
      if u < 0 then nlEdge t t.low xi ewk enl 0 0
      else if 2 ^ (w + 1) ≤ u then nlEdge t t.high xi ewk enl 63 65535
      else
        let sw := w - 5
        satTo 24 (segAt t (u / 2 ^ sw).toNat ((u % 2 ^ sw) * 65536 / 2 ^ sw))
    (r.1, r.2, false)

/-- The segments of a table the device builds: 64 of them, in the fields of 06 Table 6.7. -/
def builtSegs (l : List (Int × Int × Int)) : List (Int × Int × Int) :=
  (List.range 64).map (fun i =>
    let x := l.getD i (0, 0, 0)
    (signed 24 (x.1 % 2 ^ 24).toNat, signed 20 (x.2.1 % 2 ^ 20).toNat, signed 16 (x.2.2 % 2 ^ 16).toNat))

/-- Segment words (06 Table 6.7). -/
def segOf (bs : List Byte) : Int × Int × Int :=
  let n := leNat bs
  (signed 24 (bits n 23 0), signed 20 (bits n 43 24), signed 16 (bits n 59 44))

/-- A host table (06 Table 6.6). -/
def nlTableOf (bs : List Byte) : NlTable :=
  { log := field bs 0 1 == 1, dOrP := sfield bs 1 1, low := field bs 2 1, high := field bs 3 1,
    segs := (List.range 64).map (fun i => segOf (bytesAt bs (16 + 8 * i) 8)) }

/-- A host table is valid for a working exponent (06 R150, Tables 6.6 and 6.7). -/
def nlTableOk (bs : List Byte) (ewk : Int) : Bool :=
  let d := sfield bs 1 1
  decide (field bs 0 1 ≤ 1) && zeroAt bs 4 15
  && (if field bs 0 1 = 0 then
        decide (-32 ≤ d) && decide (d ≤ 31) && decide (5 ≤ d - ewk) && decide (d - ewk ≤ 28)
          && decide (field bs 2 1 ≤ 2) && decide (field bs 3 1 ≤ 2)
      else decide (d = 1) || decide (d = 2))
  && (List.range 64).all (fun i => decide (field bs (16 + 8 * i) 8 < 2 ^ 60))

/-- Mode, `D` or `P`, `LOW` and `HIGH` of the built-in functions (06 Table 6.8). -/
def builtinShape : Nat → Option (Bool × Int × Nat × Nat)
  | 1 => some (false, 4, 0, 0)
  | 2 => some (false, 3, 0, 0)
  | 3 => some (false, 4, 2, 1)
  | 4 => some (false, 3, 2, 1)
  | 5 => some (false, 4, 2, 0)
  | 6 => some (true, 1, 0, 0)
  | 7 => some (true, 2, 0, 0)
  | _ => none

/- ### CRC-32C (07 R165) -/

/-- One bit of the reflected Castagnoli polynomial. -/
def crcBit (c : U32) : U32 := if c.getLsbD 0 then (c >>> 1) ^^^ 0x82F63B78 else c >>> 1

/-- One byte. -/
def crcByte (c : U32) (b : Byte) : U32 :=
  crcBit (crcBit (crcBit (crcBit (crcBit (crcBit (crcBit (crcBit (c ^^^ b.setWidth 32))))))))

/-- CRC-32C of a list of bytes. -/
def crc32c (bs : List Byte) : U32 := (bs.foldl crcByte 0xFFFFFFFF) ^^^ 0xFFFFFFFF

end Sys2Proof.Machine
end

