-- ==== Sys2Proof/Machine/Operands.lean ====
section
/-! DEFINITION. Operand forms: tier-and-offset fields and the memory behind them (12 R279, R280, R297), tensor descriptors
(21 Table 21.11, R442), the raw form of a tensor (06 R137, 07 R161), the compressed forms and their codecs (07 R164 to
R173), and templates of a graph image (11 R449). -/

namespace Sys2Proof.Machine

/- ### Lists -/

/-- Put an element before the first one with a larger key. -/
def insertOn {α : Type} (key : α → Nat) (x : α) : List α → List α
  | [] => [x]
  | y :: t => if key x ≤ key y then x :: y :: t else y :: insertOn key x t

/-- Sort by ascending key, keeping the order of equal keys. -/
def sortOn {α : Type} (key : α → Nat) (l : List α) : List α := l.foldr (insertOn key) []

/- ### Sizes (12 Table 12.1, Table 12.3) -/

def mib : Nat := 1048576
def groupSize : Nat := 0x3E0000000
def nandSize : Nat := 0x1900000000
def copSize : Nat := 0x02000000
def waySize : Nat := 0x00180000

/-- Allocation unit of a tier (12 Table 12.1). -/
def unitOf (tier : Nat) : Nat := if tier = 1 then waySize else if tier = 2 then 4096 else 65536

/- ### Memory behind an address -/

/-- The memory of a tier. -/
def tierMem (s : State) (tier : Nat) : Mem :=
  if tier = 1 then s.store.t1 else if tier = 2 then s.store.dram else if tier = 3 then s.store.nand else s.store.host

/-- Bytes of a tier. -/
def tierRead (s : State) (tier off len : Nat) : List Byte := memReadN (tierMem s tier) off len

/-- Whole 64-byte lines (tier 2) or 4 KiB units (tier 3) inside a written range, which the write clears of poison (12
R297, R303). -/
def wholeUnits (unit off len n : Nat) : Bool := decide (off ≤ n * unit) && decide ((n + 1) * unit ≤ off + len)

/-- Write bytes into a tier. -/
def tierWrite (s : State) (tier off : Nat) (bs : List Byte) : State :=
  let n := bs.length
  let st := s.store
  let p1 := st.poison1.filter (fun l => !wholeUnits 64 off n l)
  let p2 := st.poison.filter (fun l => !wholeUnits 64 off n l)
  let p3 := st.poisonUnits.filter (fun u => !wholeUnits 4096 off n u)
  let st := if tier = 1 then { st with t1 := memWriteN st.t1 off bs, poison1 := p1 }
    else if tier = 2 then { st with dram := memWriteN st.dram off bs, poison := p2 }
    else { st with nand := memWriteN st.nand off bs, poisonUnits := p3 }
  { s with store := st }

/-- Offset of the first poisoned byte of a range, counted from its start. -/
def firstPoison (s : State) (tier off len : Nat) : Option Nat :=
  let look := fun (l : List Nat) (unit : Nat) => (((l.filter (fun n => overlap off len (n * unit) unit))).map (fun n => n * unit - off)).min?
  if tier = 1 then look s.store.poison1 64 else if tier = 2 then look s.store.poison 64
  else if tier = 3 then look s.store.poisonUnits 4096 else none

/-- Mark the lines of a tier-2 range poisoned (12 R297). -/
def poisonRange (s : State) (off len : Nat) : State :=
  let ls := (List.range (ceilDiv (off % 64 + len) 64)).map (fun i => off / 64 + i)
  { s with store := { s.store with poison := s.store.poison ++ ls.filter (fun l => !s.store.poison.contains l) } }

/-- The tenant's allocation a range lies in (12 R280, R289). -/
def allocAt (s : State) (fn : Fn) (tier off len : Nat) : Option Alloc :=
  s.store.allocs.find? (fun a => a.fn == fn && decide (a.obj ≤ 4) && a.tier == tier && inside off len a.base (roundUp a.size (unitOf tier)))

def ownsRange (s : State) (fn : Fn) (tier off len : Nat) : Bool := (allocAt s fn tier off len).isSome

/-- Tier and offset of a 64-bit field (12 Table 12.2). -/
def tierOf (v : Nat) : Nat := v / 2 ^ 60
def offOf (v : Nat) : Nat := v % 2 ^ 60
def addrField (tier off : Nat) : Nat := tier * 2 ^ 60 + off

/- ### Formats (06 Table 6.1) -/

def isCode (f : Nat) : Bool := f == 0x08 || f == 0x09
def isInt (f : Nat) : Bool := f == 0x01 || f == 0x02 || f == 0x03
def knownFormat (f : Nat) : Bool := isInt f || f == 0x04 || f == 0x05 || isCode f

/-- Bytes of an element; 1 stands for the code formats, which have no whole-byte elements. -/
def elemBytes (f : Nat) : Nat := if f = 0x03 ∨ f = 0x04 then 2 else if f = 0x05 then 4 else 1

/-- Columns of a code block (06 R136). -/
def codeCols (f : Nat) : Nat := if f = 0x08 then 256 else 512

/-- Bytes of a codebook record (06 Table 6.4). -/
def recordLen (f : Nat) : Nat := if f = 0x08 then 32 else 8

/-- Range of an integer format. -/
def intLo (f : Nat) : Int := if f = 0x01 then -128 else if f = 0x02 then 0 else -32768
def intHi (f : Nat) : Int := if f = 0x01 then 127 else if f = 0x02 then 255 else 32767

/-- `ZP` and `E` limits (06 Table 6.1). -/
def zpOk (f : Nat) (zp e : Int) : Bool :=
  (if f = 0x01 then decide (-128 ≤ zp) && decide (zp ≤ 127)
   else if f = 0x02 then decide (0 ≤ zp) && decide (zp ≤ 255) else decide (zp = 0))
  && (if f = 0x04 || f = 0x05 then decide (e = 0) else decide (-32 ≤ e) && decide (e ≤ 31))

/- ### Descriptors (21 Table 21.11) -/

/-- A tensor descriptor. -/
structure Desc where
  tier : Nat
  off : Nat
  format : Nat
  rank : Nat
  form : Nat
  dims : List Nat
  strides : List Nat
  zp : Int
  e : Int
  flags : Nat
  aux : Nat
  index : Nat
deriving DecidableEq, Repr

/-- The descriptor at a byte offset. `dims` and `strides` keep all five entries. -/
def descAt (bs : List Byte) (o : Nat) : Desc :=
  { tier := tierOf (field bs o 8), off := offOf (field bs o 8), format := field bs (o + 8) 2, rank := field bs (o + 10) 1,
    form := field bs (o + 11) 1, dims := (List.range 5).map (fun i => field bs (o + 12 + 4 * i) 4),
    strides := (List.range 5).map (fun i => field bs (o + 32 + 4 * i) 4), zp := sfield bs (o + 52) 2,
    e := sfield bs (o + 54) 1, flags := field bs (o + 55) 1, aux := field bs (o + 56) 4, index := field bs (o + 60) 4 }

def Desc.present (d : Desc) : Bool := d.format != 0
def Desc.dim (d : Desc) (i : Nat) : Nat := d.dims.getD i 0
def Desc.used (d : Desc) : List Nat := d.dims.take d.rank
def Desc.count (d : Desc) : Nat := d.used.foldl (· * ·) 1

/-- Dimension `i`, where a dimension beyond the rank counts as 1. -/
def Desc.dim1 (d : Desc) (i : Nat) : Nat := if i < d.rank then d.dim i else 1

/-- Code blocks of a code-format tensor: batches (dims from 2 up) of K-blocks × column blocks (06 R137). -/
def Desc.codeBlocks (d : Desc) : Nat :=
  ceilDiv (d.dim 1) 64 * ceilDiv (d.dim 0) (codeCols d.format) * (d.used.drop 2).foldl (· * ·) 1

/-- Size of the raw form (07 R161, 06 R137). -/
def Desc.rawSize (d : Desc) : Nat := if isCode d.format then 8192 * d.codeBlocks else d.count * elemBytes d.format

/-- Dense strides. -/
def denseFrom (n : Nat) : List Nat → List Nat
  | [] => []
  | x :: t => n :: denseFrom (n * x) t

def Desc.dense (d : Desc) : Bool := d.strides.all (· == 0)
def Desc.stride (d : Desc) : List Nat := if d.dense then denseFrom (elemBytes d.format) d.used else d.strides.take d.rank

/-- Multi-index of the `i`-th element in dense order, dim 0 fastest. -/
def unravel : List Nat → Nat → List Nat
  | [], _ => []
  | n :: t, i => i % n :: unravel t (i / n)

/-- Linear index of a multi-index. -/
def ravel : List Nat → List Nat → Nat
  | [], _ => 0
  | _ :: _, [] => 0
  | n :: t, i :: r => i + n * ravel t r

/-- Byte offset, from the base, of the `i`-th element in dense order. -/
def Desc.elemOff (d : Desc) (i : Nat) : Nat := ((unravel d.used i).zipWith (· * ·) d.stride).sum

/-- Offsets of all elements. -/
def Desc.offsets (d : Desc) : List Nat := (List.range d.count).map d.elemOff

/-- No two elements share a byte. -/
def distinctElems (n : Nat) : List Nat → Bool
  | a :: b :: t => decide (a + n ≤ b) && distinctElems n (b :: t)
  | _ => true

/-- Codebook records' bytes. -/
def Desc.recordsLen (d : Desc) : Nat := d.codeBlocks * recordLen d.format

/-- Blocks of a compressed tensor (07 R161). -/
def Desc.blocks (d : Desc) : Nat := ceilDiv d.rawSize 4096

/-- Start of the payload of a compressed tensor (07 R162). -/
def Desc.payload (d : Desc) : Nat := roundUp (d.index + 4 * d.blocks) 64

/-- Bytes of the extent from the base (06 R137, 07 R162). -/
def Desc.extent (d : Desc) : Nat :=
  if d.form ≠ 0 then d.payload + roundUp d.rawSize 16
  else if isCode d.format then max d.rawSize (d.aux + d.recordsLen)
  else if d.count = 0 then 0
  else ((d.used.map (· - 1)).zipWith (· * ·) d.stride).sum + elemBytes d.format

/-- Stored forms by format (07 Table 7.1). -/
def formOk (form f : Nat) : Bool :=
  form == 0 || (form == 1 && (isInt f || f == 0x04)) || (form == 2 && knownFormat f)

/-- The conditions of 21 R442 and 07 R162 that a present descriptor decides by itself. -/
def Desc.ok (d : Desc) (output : Bool) : Bool :=
  knownFormat d.format && decide (1 ≤ d.rank) && decide (d.rank ≤ 5) && decide (d.flags ≤ 1)
  && (d.dims.drop d.rank).all (· == 0) && (d.strides.drop d.rank).all (· == 0)
  && (d.dense || (decide (d.strides.getD 0 0 = elemBytes d.format) && (d.strides.take d.rank).all (· != 0)
                  && !isCode d.format && d.form == 0))
  && zpOk d.format d.zp d.e
  && (isCode d.format || d.form == 2 || d.aux == 0) && (d.form != 0 || d.index == 0)
  && formOk d.form d.format
  && (!output || (d.flags == 0 && (d.dense || distinctElems (elemBytes d.format) (sortOn id d.offsets))))
  && (d.form == 0 || (decide (d.rawSize ≤ 2 ^ 32) && d.index % 64 == 0))
  && (d.form != 1 || d.aux == 0)
  && (d.form != 2 || (d.aux % 64 == 0 && !overlap d.aux 64 d.index (4 * d.blocks) && decide (d.aux + 64 ≤ d.payload)))
  && !(isCode d.format && d.form == 0 && (d.aux % 8 != 0 || overlap 0 d.rawSize d.aux d.recordsLen))

/-- The extent lies in one allocation of the tenant in tier 1 or 2 (07 R162, 12 R280). -/
def Desc.placed (d : Desc) (s : State) (fn : Fn) : Bool :=
  (decide (d.tier = 1) || decide (d.tier = 2)) && ownsRange s fn d.tier d.off d.extent

/-- Two descriptors' extents overlap. -/
def Desc.overlaps (a b : Desc) : Bool := a.present && b.present && a.tier == b.tier && overlap a.off a.extent b.off b.extent

/- ### The ENTROPY form (07 R166 to R169) -/

/-- Code lengths of a prefix table of 128 bytes. -/
def lensOf (bs : List Byte) : List Nat := bs.flatMap (fun b => [b.toNat % 16, b.toNat / 16])

/-- Sum of 2^(12 − len) over the present symbols. -/
def kraft (lens : List Nat) : Nat := ((lens.filter (0 < ·)).map (fun l => 2 ^ (12 - l))).sum

/-- A prefix table is valid (07 R168). -/
def tableOk (lens : List Nat) : Bool := lens.any (0 < ·) && lens.all (· ≤ 12) && decide (kraft lens ≤ 4096)

/-- Symbols in code order: by length, then by number. -/
def codeOrder (lens : List Nat) : List (Nat × Nat) :=
  (List.range 13).flatMap (fun l => ((lens.zipIdx.filter (fun x => x.1 == l && decide (0 < l))).map (fun x => (x.2, l))))

/-- Canonical codes (07 R167): symbol, length, code. -/
def assign (next prev : Nat) : List (Nat × Nat) → List (Nat × Nat × Nat)
  | [] => []
  | (sym, l) :: t => let n := next * 2 ^ (l - prev); (sym, l, n) :: assign (n + 1) l t

def codesOf (lens : List Nat) : List (Nat × Nat × Nat) := assign 0 0 (codeOrder lens)

/-- The bits of a byte, most significant first. -/
def bitsOf (b : Byte) : List Bool := (List.range 8).map (fun i => b.toNat.testBit (7 - i))

/-- A number from bits, most significant first. -/
def ofBits (bs : List Bool) : Nat := bs.foldl (fun n b => 2 * n + b2n b) 0

/-- The next symbol of a bit stream and its length. -/
def nextSym (codes : List (Nat × Nat × Nat)) (bs : List Bool) : Option (Nat × Nat) :=
  (codes.find? (fun c => decide (c.2.1 ≤ bs.length) && ofBits (bs.take c.2.1) == c.2.2)).map (fun c => (c.1, c.2.1))

/-- Decode `n` symbols; the answer holds the bytes and the bits used. -/
def decodeSyms (codes : List (Nat × Nat × Nat)) (bs : List Bool) : Nat → Option (List Byte × Nat)
  | 0 => some ([], 0)
  | k + 1 =>
    match nextSym codes bs with
    | none => none
    | some (sym, l) => (decodeSyms codes (bs.drop l) k).map (fun r => (BitVec.ofNat 8 sym :: r.1, r.2 + l))

/-- The bits of a code. -/
def codeBits (l c : Nat) : List Bool := (List.range l).map (fun i => c.testBit (l - 1 - i))

/-- Pack bits into bytes, the last one padded with zeros; `n` bounds the bytes. -/
def packBits : Nat → List Bool → List Byte
  | 0, _ => []
  | _ + 1, [] => []
  | k + 1, bs => BitVec.ofNat 8 (ofBits ((bs ++ List.replicate 8 false).take 8)) :: packBits k (bs.drop 8)

/-- Encode a block with a table; nothing where a byte has no code. -/
def encodeSyms (codes : List (Nat × Nat × Nat)) (raw : List Byte) : Option (List Byte) :=
  let parts := raw.map (fun b => (codes.find? (fun c => c.1 == b.toNat)).map (fun c => codeBits c.2.1 c.2.2))
  if parts.all Option.isSome then some (packBits (2 * raw.length) (parts.flatMap (·.getD []))) else none

/- ### The ZMASK form (07 R170) -/

/-- Elements of a raw block as numbers. -/
def elemsOf (n : Nat) (raw : List Byte) : List Nat := (List.range (raw.length / n)).map (fun i => field raw (n * i) n)

/-- The stored value a `ZMASK` group leaves out: the zero point's pattern. -/
def zeroValue (f : Nat) (zp : Int) : Nat := (zp % (2 ^ (8 * elemBytes f) : Int)).toNat

/-- One group of at most 64 elements. -/
def zmaskGroup (n z : Nat) (es : List Nat) : List Byte :=
  natLe 8 ((es.zipIdx.map (fun x => if x.1 = z then 0 else 2 ^ x.2)).sum) ++ (es.filter (· != z)).flatMap (natLe n)

/-- A block in `ZMASK` form; `k` bounds the groups. -/
def zmaskEncode (n z : Nat) (es : List Nat) : Nat → List Byte
  | 0 => []
  | k + 1 => if es.isEmpty then [] else zmaskGroup n z (es.take 64) ++ zmaskEncode n z (es.drop 64) k

/-- Expand one group of `cnt` elements: the raw bytes and what is left of the input. -/
def zmaskExpand (n z cnt : Nat) (bs : List Byte) : Option (List Byte × List Byte) :=
  if bs.length < 8 then none
  else
    let mask := leNat (bs.take 8)
    let ones := (List.range cnt).map (fun i => mask.testBit i)
    let need := n * (ones.filter (·)).length
    if bs.length < 8 + need then none
    else
      let vals := elemsOf n (bytesAt bs 8 need)
      let out := (ones.foldl (fun (acc : List Byte × List Nat) o =>
        if o then (acc.1 ++ natLe n (acc.2.headD 0), acc.2.tail) else (acc.1 ++ natLe n z, acc.2)) ([], vals)).1
      some (out, bs.drop (8 + need))

/-- Expand the groups of a block of `cnt` elements; the answer holds the raw bytes and the encoded length. -/
def zmaskDecode (n z : Nat) : Nat → Nat → List Byte → Option (List Byte × Nat)
  | 0, _, _ => some ([], 0)
  | k + 1, cnt, bs =>
    if cnt = 0 then some ([], 0)
    else match zmaskExpand n z (min 64 cnt) bs with
      | none => none
      | some (out, rest) =>
        (zmaskDecode n z k (cnt - min 64 cnt) rest).map (fun r => (out ++ r.1, r.2 + (bs.length - rest.length)))

/- ### Blocks of a compressed tensor (07 R164, R165) -/

/-- Why a block of a tensor cannot be delivered. -/
inductive ReadError where
  | poison | undecodable | invalid
deriving DecidableEq, Repr

/-- Raw bytes of block `j`. -/
def Desc.blockRaw (d : Desc) (j : Nat) : Nat := min 4096 (d.rawSize - 4096 * j)

/-- The header of an `ENTROPY` tensor in memory (07 Table 7.3): its first 64 bytes. -/
def Desc.header (d : Desc) (s : State) : List Byte := tierRead s d.tier (d.off + d.aux) 64

/-- Prefix-table lengths of a segment. -/
def Desc.segLens (d : Desc) (s : State) (seg : Nat) : List Nat :=
  lensOf (tierRead s d.tier (d.off + d.aux + 64 + 128 * seg) 128)

/-- The prefix tables of `segs` segments and the codebook records at `cb` overlap no other region of an `ENTROPY` extent and end before its payload (07 R162). -/
def Desc.regionsOk (d : Desc) (segs cb : Nat) : Bool :=
  (!isCode d.format || (!overlap cb d.recordsLen d.index (4 * d.blocks) && !overlap cb d.recordsLen d.aux (64 + 128 * segs)
      && decide (cb + d.recordsLen ≤ d.payload)))
    && !overlap d.aux (64 + 128 * segs) d.index (4 * d.blocks) && decide (d.aux + 64 + 128 * segs ≤ d.payload)

/-- The header and the tables of an `ENTROPY` tensor are valid (07 R162, R166, R168). -/
def Desc.headerOk (d : Desc) (s : State) : Bool :=
  let h := d.header s
  let segs := field h 8 4
  field h 0 2 == 1 && field h 2 1 == d.format && decide (1 ≤ field h 4 4) && decide (field h 4 4 ≤ 4096)
    && segs == ceilDiv d.blocks (field h 4 4) && field h 16 8 == d.rawSize
    && (isCode d.format || field h 12 4 == 0) && d.regionsOk segs (field h 12 4)
    && (List.range segs).all (fun g => tableOk (d.segLens s g))

/-- The header or the prefix table that a block of an `ENTROPY` tensor is decoded with stands on a poisoned line. -/
def Desc.tablePoison (d : Desc) (s : State) (j : Nat) : Bool :=
  d.form == 2 && ((firstPoison s d.tier (d.off + d.aux) 64).isSome
    || (firstPoison s d.tier (d.off + d.aux + 64 + 128 * (j / max 1 (field (d.header s) 4 4))) 128).isSome)

/-- The raw bytes of block `j` of a compressed tensor, or why they cannot be delivered (07 R173). -/
def Desc.block (d : Desc) (s : State) (j : Nat) : Except ReadError (List Byte) :=
  let entryOff := d.off + d.index + 4 * j
  let entry := leNat (tierRead s d.tier entryOff 4)
  let n := d.blockRaw j
  let rel := d.payload + entry / 16 * 16
  let room := d.extent - rel
  if (firstPoison s d.tier entryOff 4).isSome || d.tablePoison s j then .error .poison
  else if entry = 0xFFFFFFFF then .error .invalid
  else if bit entry 0 then
    if d.extent < rel + n then .error .undecodable
    else if (firstPoison s d.tier (d.off + rel) n).isSome then .error .poison
    else .ok (tierRead s d.tier (d.off + rel) n)
  else
    let bs := tierRead s d.tier (d.off + rel) (min room 8192)
    let r : Option (List Byte × Nat) :=
      if d.form = 1 then zmaskDecode (elemBytes d.format) (zeroValue d.format d.zp) 65 (n / elemBytes d.format) bs
      else
        let lens := d.segLens s (j / max 1 (field (d.header s) 4 4))
        (decodeSyms (codesOf lens) (bs.flatMap bitsOf) n).map (fun x => (x.1, ceilDiv x.2 8))
    match r with
    | none => .error .undecodable
    | some (raw, len) =>
      if (firstPoison s d.tier (d.off + rel) (len + 4)).isSome then .error .poison
      else if room < len + 4 then .error .undecodable
      else if leNat (bytesAt bs len 4) ≠ (crc32c raw).toNat then .error .undecodable
      else .ok raw

/-- All blocks from `j` on. -/
def Desc.blocksFrom (d : Desc) (s : State) (j : Nat) : Nat → Except ReadError (List Byte)
  | 0 => .ok []
  | k + 1 => match d.block s j with
    | .error e => .error e
    | .ok b => match d.blocksFrom s (j + 1) k with
      | .error e => .error e
      | .ok r => .ok (b ++ r)

/-- The raw form of a tensor in dense order, or why it cannot be delivered. -/
def Desc.raw (d : Desc) (s : State) : Except ReadError (List Byte) :=
  if d.form ≠ 0 then d.blocksFrom s 0 d.blocks
  else if (firstPoison s d.tier d.off d.extent).isSome then .error .poison
  else if isCode d.format then .ok (tierRead s d.tier d.off d.rawSize)
  else .ok (d.offsets.flatMap (fun o => tierRead s d.tier (d.off + o) (elemBytes d.format)))

/-- The codebook records of a code-format tensor. -/
def Desc.records (d : Desc) (s : State) : List Byte :=
  tierRead s d.tier (d.off + (if d.form = 0 then d.aux else field (d.header s) 12 4)) d.recordsLen

/- ### Elements -/

/-- `len` bytes at an offset of the raw form, inside one element or one code byte (07 R171). A block that cannot be
delivered reads as zeros; `bad` says why. -/
def Desc.get (d : Desc) (s : State) (off len : Nat) : List Byte :=
  if d.form ≠ 0 then (match d.block s (off / 4096) with | .ok raw => bytesAt raw (off % 4096) len | .error _ => zeroBytes len)
  else if isCode d.format then tierRead s d.tier (d.off + off) len
  else tierRead s d.tier (d.off + d.elemOff (off / elemBytes d.format) + off % elemBytes d.format) len

/-- Why those bytes cannot be delivered, if they cannot. -/
def Desc.bad (d : Desc) (s : State) (off len : Nat) : Option ReadError :=
  if d.form ≠ 0 then (match d.block s (off / 4096) with | .ok _ => none | .error e => some e)
  else
    let o := if isCode d.format then off else d.elemOff (off / elemBytes d.format) + off % elemBytes d.format
    if (firstPoison s d.tier (d.off + o) len).isSome then some .poison else none

/-- Element `i` as a stored integer. -/
def Desc.int (d : Desc) (s : State) (i : Nat) : Int :=
  let n := elemBytes d.format
  if d.format = 0x02 then field (d.get s i 1) 0 1 else sfield (d.get s (n * i) n) 0 n

/-- Element `i` as FP32. -/
def Desc.fp (d : Desc) (s : State) (i : Nat) : U32 :=
  if d.format = 0x04 then bf16To32 (field (d.get s (2 * i) 2) 0 2) else BitVec.ofNat 32 (field (d.get s (4 * i) 4) 0 4)

/-- Element `i` cannot be delivered. -/
def Desc.badElem (d : Desc) (s : State) (i : Nat) : Option ReadError :=
  let n := elemBytes d.format
  d.bad s (n * i) n

/-- Code block and raw offset of the byte that holds row `k`, column `n` of product `b` (06 R137). -/
def Desc.codeBlock (d : Desc) (kTotal b k n : Nat) : Nat :=
  (b * ceilDiv kTotal 64 + k / 64) * ceilDiv (d.dim 0) (codeCols d.format) + n / codeCols d.format
def Desc.codePer (d : Desc) : Nat := if d.format = 0x08 then 2 else 4
def Desc.codeOff (d : Desc) (kTotal b k n : Nat) : Nat :=
  8192 * d.codeBlock kTotal b k n + (k % 64) * 128 + (n % codeCols d.format) / d.codePer

/-- Memory offset of a codebook record (06 R137, 07 R162). -/
def Desc.recordAt (d : Desc) (s : State) (blk : Nat) : Nat :=
  d.off + (if d.form = 0 then d.aux else field (d.header s) 12 4) + recordLen d.format * blk

/-- The weight of a code without its exponent, and its block's shift (06 R136). -/
def Desc.code (d : Desc) (s : State) (kTotal b k n : Nat) : Int × Nat :=
  let r := tierRead s d.tier (d.recordAt s (d.codeBlock kTotal b k n)) (recordLen d.format)
  let w := 8 / d.codePer
  let c := field (d.get s (d.codeOff kTotal b k n) 1) 0 1 / 2 ^ (w * (n % d.codePer)) % 2 ^ w
  (sfield r c 1, field r (if d.format = 0x08 then 16 else 4) 1 % 8)

/-- A weight of a code format cannot be delivered. -/
def Desc.badCode (d : Desc) (s : State) (kTotal b k n : Nat) : Option ReadError :=
  if (firstPoison s d.tier (d.recordAt s (d.codeBlock kTotal b k n)) (recordLen d.format)).isSome then some .poison
  else d.bad s (d.codeOff kTotal b k n) 1

/- ### Templates (11 R449) -/

/-- A dimension agrees with its template: equal, or variable with the value the command's rule gives, if any. -/
def dimAgrees (tmpl got : Nat) (want : Option Nat) : Bool :=
  if tmpl = 0xFFFFFFFF then (match want with | some w => got == w | none => true) else got == tmpl

/-- A descriptor agrees with its template; `want` gives the command's rule for dim 1. -/
def agrees (tmpl d : Desc) (want : Option Nat) : Bool :=
  d.format == tmpl.format && d.rank == tmpl.rank && d.zp == tmpl.zp && d.e == tmpl.e
    && (List.range d.rank).all (fun i => dimAgrees (tmpl.dim i) (d.dim i) (if i = 1 then want else none))

/- ### What a command's operands name (12 R288) -/

/-- Places of the tensor descriptors in a command's parameter block. -/
def descPlaces (op : Op) (block : List Byte) : List Nat :=
  match op with
  | .matmul => [64, 128, 192, 256, 320, 384, 448, 512]
  | .conv2d => [64, 128, 192, 256, 320, 384, 448]
  | .pool2d => [64, 128]
  | .attention => [64, 128, 192, 256, 320]
  | .seqAppend | .trainStep => [64, 128, 192]
  | .streamChunk => [64, 128]
  | .graphRun => (List.range (field block 5 1 + field block 6 1)).map (fun i => 64 + 64 * i)
  | .tableBuild => [64]
  | .compress => [64, 128]
  | _ => []

/-- The tier-and-offset fields of a command. -/
def operandAddrs (c : Cmd) : List Nat :=
  (((descPlaces c.op c.pkt.block).filter (fun o => field c.pkt.block (o + 8) 2 != 0)).map (fun o => blk c o 8))
  ++ (match c.op with
      | .matmul => [blk c 16 8]
      | .conv2d => [blk c 24 8]
      | .tableBuild => [blk c 8 8]
      | .copy => [arg c 24 8, arg c 32 8]
      | .streamOpen => [arg c 32 8]
      | .stateSwap => [arg c 28 8]
      | .peerSend => [arg c 28 8]
      | .groupJoin => (List.range 4).map (fun u => blk c (64 + 32 * u + 8) 8)
      | _ => [])

/-- A command's operands lie in an allocation. -/
def usesAlloc (c : Cmd) (a : Alloc) : Bool :=
  (operandAddrs c).any (fun v => tierOf v == a.tier && decide (a.base ≤ offOf v) && decide (offOf v < a.base + roundUp a.size (unitOf a.tier)))

/-- A free byte: its value is open (notes/assumptions/1.md). -/
def freeBytes (n len : Nat) : List Byte := (List.range len).map (fun i => Config.freeByte (n + i))

/-- Write every element of an output with free values: `len` bytes of element data. -/
def writeFree (s : State) (d : Desc) : State :=
  let n := elemBytes d.format
  let s' := { s with freeCtr := s.freeCtr + n * d.count }
  (d.offsets.zipIdx).foldl (fun t x => tierWrite t d.tier (d.off + x.1) (freeBytes (s.freeCtr + n * x.2) n)) s'

/-- Fill a range with free values. -/
def freeRange (s : State) (tier off len : Nat) : State :=
  tierWrite { s with freeCtr := s.freeCtr + len } tier off (freeBytes s.freeCtr len)

/-- Every index entry of a compressed tensor is `INVALID`, and `PAYLOAD_BYTES` 0 (07 R177). -/
def invalidateOut (s : State) (b : Desc) : State :=
  let s := tierWrite s b.tier (b.off + b.index) (List.replicate (4 * b.blocks) 0xFF)
  if b.form = 2 then tierWrite s b.tier (b.off + b.aux + 24) (zeroBytes 8) else s

/-- A `COMPRESS` that ends before its commit: the destination's bytes are open, but for the index entries and `PAYLOAD_BYTES` (07 R177). -/
def abandonCompress (s : State) (b : Desc) : State :=
  if b.form ≠ 0 then invalidateOut (freeRange s b.tier b.off b.extent) b
  else if isCode b.format then freeRange (freeRange s b.tier b.off b.rawSize) b.tier (b.off + b.aux) b.recordsLen
  else writeFree s b

end Sys2Proof.Machine
end

