-- ==== Sys2Proof/Machine/Watch.lean ====
section
/-! DEFINITION. Tensor watches: which commands a slot matches and the record of what a command committed (17 R396, R397). -/

namespace Sys2Proof.Machine

/-- An exact ratio as an FP64 pattern, rounded once to nearest, ties to even. -/
def fp64Ratio (v : Int) (d : Nat) : Nat :=
  let n := v.natAbs
  if n = 0 || d = 0 then 0
  else
    let sh : Int := (d.log2 : Int) - n.log2 + 55
    let (a, b) : Nat × Nat := if 0 ≤ sh then (n * 2 ^ sh.toNat, d) else (n, d * 2 ^ (-sh).toNat)
    let q := a / b * 2 + b2n (a % b != 0)
    let len := q.log2 + 1
    let m := (rneShift q (len - 53)).toNat
    let ex : Int := (len : Int) - 53 - 1 - sh
    let (m, ex) : Nat × Int := if m = 2 ^ 53 then (2 ^ 52, ex + 1) else (m, ex)
    (if v < 0 then 2 ^ 63 else 0) + (ex + 52 + 1023).toNat * 2 ^ 52 + (m - 2 ^ 52)

/-- An FP32 value as FP64. -/
def fp64Of (x : U32) : Nat :=
  match fpOf x with
  | .nan => 0x7FF8000000000000
  | .inf neg => (if neg then 2 ^ 63 else 0) + 0x7FF0000000000000
  | .fin neg m e => (if neg then 2 ^ 63 else 0) + (if 0 ≤ e then fp64Ratio (m * 2 ^ e.toNat) 1 else fp64Ratio m (2 ^ (-e).toNat)) % 2 ^ 63

/-- A value rounded to the 53 bits of FP64. -/
def round64 : Fp → Fp
  | .fin s m e => let k := m.log2 + 1 - 53; .fin s (rneShift m k).toNat (e + (k : Nat))
  | x => x

/-- The FP64 sum of values in an order that nothing fixes: in each turn the device's choice takes two of them (17 Table 17.9). -/
def sum64 (n : Nat) : Nat → List Fp → Fp
  | 0, l => l.headD (.fin false 0 0)
  | k + 1, l =>
    match l with
    | [] => .fin false 0 0
    | [x] => x
    | x :: t =>
      let i := Config.sumPick n (2 * k) % (x :: t).length
      let rest := (x :: t).eraseIdx i
      let j := Config.sumPick n (2 * k + 1) % rest.length
      sum64 n k (round64 (fpAdd ((x :: t).getD i x) (rest.getD j x)) :: rest.eraseIdx j)

/-- A sum over `n` elements divided by their number, as FP64; of a NaN only that it is one is fixed. -/
def mean64 (free n : Nat) : Fp → Nat
  | .nan => 0x7FF0000000000000 + (1 + Config.freeNat free % (2 ^ 52 - 1)) + 2 ^ 63 * (Config.freeNat (free + 1) % 2)
  | .inf neg => (if neg then 2 ^ 63 else 0) + 0x7FF0000000000000
  | .fin neg m e => (if neg then 2 ^ 63 else 0) + (if 0 ≤ e then fp64Ratio (m * 2 ^ e.toNat) n else fp64Ratio m (n * 2 ^ (-e).toNat)) % 2 ^ 63

/-- The digest of committed bytes with their offsets (17 R397). -/
def digestOf (l : List (Nat × Byte)) : Nat :=
  let p := 2 ^ 64 - 59
  let x := 0x9E3779B97F4A7C15
  let rec pow (k n b acc : Nat) : Nat :=
    match k with
    | 0 => acc
    | j + 1 => pow j (n / 2) (b * b % p) (if n % 2 = 1 then acc * b % p else acc)
  (l.map (fun e => (e.2.toNat + 1) * pow 64 e.1 x 1)).sum % p

/-- The tensor that a watch covers: Y or O of an operator, or the first output descriptor (17 R396). -/
def watchedDesc (c : Cmd) : Desc :=
  descAt c.pkt.block (match c.op with
    | .matmul | .conv2d => 192
    | .pool2d => 128
    | .attention => 256
    | .seqAppend | .streamChunk => 128
    | .trainStep => 192
    | _ => 64 + 64 * field c.pkt.block 5 1)

/-- Commands that a watch can match. -/
def watchable (op : Op) : Bool :=
  match op with
  | .matmul | .conv2d | .pool2d | .attention | .seqAppend | .streamChunk | .trainStep | .graphRun => true
  | _ => false

/-- A slot's pair matches a command. -/
def watchTakes (w : Watch) (c : Cmd) : Bool :=
  decide (0 < w.left) && (w.layerId == 0xFFFF || w.layerId == c.pkt.layerId) && (w.opId == 0xFFFF || w.opId == c.pkt.opId)

/-- A command whose output-writing work starts is matched by the lowest slot that takes it. -/
def matchWatch (s : State) (c : Cmd) : State :=
  if c.fn = .pf1 || !watchable c.op then s
  else match (sortOn (·.slot) (s.obs.watches.filter (watchTakes · c))).head? with
    | none => s
    | some w => { s with obs := { s.obs with watches := s.obs.watches.map (fun x =>
        if x.slot = w.slot then { x with left := x.left - 1, cmds := x.cmds ++ [c.id] } else x) } }

/-- Bytes 8 to 55 of a watch record: the statistics of the committed elements. -/
def watchStats (d : Desc) (es : List (List Byte)) (free : Nat) : List Byte :=
  if isInt d.format then
    let vs : List Int := es.map (fun b => if d.format = 0x02 then (field b 0 1 : Int) else sfield b 0 b.length)
    natLe 8 es.length ++ intLe 8 (vs.min?.getD 0) ++ intLe 8 (vs.max?.getD 0)
      ++ natLe 8 (fp64Ratio ((vs.map (· - d.zp)).sum) es.length)
      ++ natLe 4 (vs.filter (fun v => decide (v = d.zp))).length ++ zeroBytes 12
  else
    let vs := es.map (fun b => if d.format = 0x04 then bf16To32 (field b 0 2) else BitVec.ofNat 32 (field b 0 4))
    let fin := vs.filter (fun v => !isNan v)
    let key := fun v : U32 => if bit v.toNat 31 then 2 ^ 31 - v.toNat % 2 ^ 31 else 2 ^ 31 + v.toNat
    let sorted := sortOn key fin
    natLe 8 es.length ++ natLe 8 (fp64Of (sorted.headD 0)) ++ natLe 8 (fp64Of (sorted.getLastD 0))
      ++ natLe 8 (mean64 free es.length (sum64 free es.length (vs.map fpOf)))
      ++ natLe 4 (vs.filter (fun v => v.toNat % 2 ^ 31 == 0)).length ++ natLe 4 (vs.filter isNan).length
      ++ natLe 4 (vs.filter isInf).length ++ zeroBytes 4

/-- The record of a watched command (17 Table 17.9), at `DEST` + 64 k for the k-th match, and its `WATCH` event. The order
of a floating-point `MEAN`'s sum is open. -/
def watchRecord (s : State) (c : Cmd) (early : Bool) : State :=
  match s.obs.watches.find? (fun w => w.cmds.contains c.id) with
  | none => s
  | some w =>
    let d := watchedDesc c
    let n := elemBytes d.format
    let j := (s.work.jobs.find? (fun j => j.id == c.id)).getD { id := c.id }
    let o := (s.work.outs.find? (fun o => o.cmd == c.id && o.out == 0)).getD { cmd := c.id, out := 0, done := j.done, staged := j.staged }
    let idx := sortOn id o.done
    let bytes := idx.flatMap (fun i => (List.range n).map (fun k => (n * i + k, memRead o.staged (n * i + k))))
    let inexact := !isInt d.format || j.outFlags &&& 3 != 0
    let stats := w.kind != 1 && !idx.isEmpty
    let rc := natLe 4 c.pkt.seq.toNat ++ natLe 2 c.pkt.ring ++ natLe 1 d.format
      ++ natLe 1 (b2n early + 2 * b2n inexact + 4 * b2n stats + 8 * b2n (w.kind != 0))
      ++ (if stats then watchStats d (idx.map (fun i => memReadN o.staged (n * i) n)) s.freeCtr else zeroBytes 48)
      ++ (if w.kind != 0 then natLe 8 (digestOf bytes) else zeroBytes 8)
    let s := { s with freeCtr := s.freeCtr + 2 }
    let s := hostOut s .pf0 (w.dest.toNat + 64 * w.cmds.idxOf c.id) rc
    let w' : Watch := { w with written := w.written + 1 }
    let s := { s with obs := { s.obs with watches := s.obs.watches.map (fun x => if x.slot = w.slot then w' else x) } }
    traceCmd s c 0x0C (w.slot + 256 * w'.written)

end Sys2Proof.Machine
end

