-- ==== Sys2Proof/Machine/Objects.lean ====
section
/-! DEFINITION. What a tenant owns in the tiers: address spaces, quotas, placement, eviction, frames, handles, slots; and
how a command's or a session's hold on them ends (12 R280 to R286; 09 R206 to R220; 11 R253 to R266, R272). -/

namespace Sys2Proof.Machine

/- ### Address spaces (12 Table 12.3, R281) -/

/-- First byte of a group's device reserve: its top 48 MiB, and the 96 MiB below that in G0 (12 R281). -/
def reserveBase (g : Nat) : Nat := g * groupSize + groupSize - 48 * mib - (if g = 0 then 96 * mib else 0)

/-- Tier-2 capacity of a tenant (12 R281). -/
def tier2Capacity (s : State) (fn : Fn) : Nat := ((groupsOf s fn).map (fun g => reserveBase g - g * groupSize)).sum

/-- The contiguous regions in which a tenant may place an object of a tier, limited by a mask of units. -/
def regions (s : State) (fn : Fn) (tier mask : Nat) : List (Nat × Nat) :=
  let keep := fun l : List Nat => l.filter (fun u => mask == 0 || mask.testBit u)
  if tier = 1 then (keep (coppicesOf s fn)).map (fun c => (c * copSize, c * copSize + 16 * waySize))
  else if tier = 2 then (keep (groupsOf s fn)).map (fun g => (g * groupSize, reserveBase g))
  else (keep ((nandsOf s fn).filter (fun n => !(nandCh s n).readOnly))).map (fun n => (n * nandSize, (n + 1) * nandSize))

/-- Ranges in use in a tier. -/
def occupied (s : State) (tier : Nat) : List (Nat × Nat) :=
  (s.store.allocs.filter (fun a => a.tier == tier)).map (fun a => (a.base, roundUp a.size (unitOf tier)))
    ++ (if tier = 2 then s.store.frames.map (fun f => (f.pfn * 65536, 65536)) else [])

/-- A range is free. -/
def rangeFree (occ : List (Nat × Nat)) (base size : Nat) : Bool := occ.all (fun o => !overlap base size o.1 o.2)

/-- Room left in a region. -/
def freeRoom (occ : List (Nat × Nat)) (r : Nat × Nat) : Nat :=
  (r.2 - r.1) - ((occ.filter (fun o => inside o.1 o.2 r.1 (r.2 - r.1))).map (·.2)).sum

/-- Lowest free aligned place in a region, where units count from the region's base: a coppice's ways do not start at multiples
of their size (12 Table 12.3, R284, R286). -/
def findLow (occ : List (Nat × Nat)) (unit size : Nat) (r : Nat × Nat) : Option Nat :=
  ((r.1 :: occ.map (fun o => r.1 + roundUp (o.1 + o.2 - r.1) unit)).filter
    (fun b => decide (r.1 ≤ b) && decide (b + size ≤ r.2) && rangeFree occ b size)).min?

/-- Highest free aligned place in a region, for pool models (12 R286). -/
def findHigh (occ : List (Nat × Nat)) (unit size : Nat) (r : Nat × Nat) : Option Nat :=
  (((r.1 + (r.2 - size - r.1) / unit * unit) :: occ.map (fun o => r.1 + (o.1 - size - r.1) / unit * unit)).filter
    (fun b => decide (r.1 ≤ b) && decide (b + size ≤ r.2) && rangeFree occ b size)).max?

/-- A place in the regions, the one with the most free room first (12 Table 12.7). -/
def findPlace (occ : List (Nat × Nat)) (high : Bool) (unit size : Nat) (regs : List (Nat × Nat)) : Option Nat :=
  (sortOn (fun r => (r.2 - r.1) + (regs.map (fun q => q.2 - q.1)).sum - freeRoom occ r) regs).findSome?
    (if high then findHigh occ unit size else findLow occ unit size)

/- ### Models in the pool (11 R272, 12 R283) -/

def modelOf (s : State) (fn : Fn) (id : Nat) : Option Model := s.work.models.find? (fun m => m.fn == fn && m.id == id)
def setModel (s : State) (m : Model) : State :=
  { s with work := { s.work with models := s.work.models.map (fun x => if x.fn = m.fn ∧ x.id = m.id then m else x) } }
def stepOf (s : State) (fn : Fn) (id : Nat) : Option Step := s.work.steps.find? (fun t => t.fn == fn && t.model == id)
def pinned (m : Model) : Bool := m.pin1 || m.pin2 != 0

/-- Remove the regions of an owner that carry one of the given object codes. -/
def dropAllocs (s : State) (fn : Fn) (objs : List Nat) (owner : Nat) : State :=
  { s with store := { s.store with
      allocs := s.store.allocs.filter (fun a => !(a.fn == fn && objs.contains a.obj && a.owner == owner)) } }

/-- A model the pool may evict: resident, unpinned, and of no step in flight (11 R272). -/
def evictable (s : State) (m : Model) : Bool :=
  m.resident.isSome && !pinned m && !m.loading && (stepOf s m.fn m.id).isNone

/-- Evict a model from tier 2. -/
def evictModel (s : State) (m : Model) : State :=
  dropAllocs (setModel s { m with resident := none, wasEvicted := true, lastUse := 0, tables := [] }) m.fn [20] m.id

/-- The evictable model of a tenant with the oldest `LAST_USE`. -/
def oldestModel (s : State) (fn : Fn) : Option Model :=
  (sortOn (·.lastUse) (s.work.models.filter (fun m => m.fn == fn && evictable s m))).head?

/-- The same among the models other than one, whose step is being built (09 R218). -/
def oldestBut (s : State) (fn : Fn) (keep : Nat) : Option Model :=
  (sortOn (·.lastUse) (s.work.models.filter (fun m => m.fn == fn && m.id != keep && evictable s m))).head?

/-- Find a place of a tier, evicting pool models, oldest first, until it fits (12 R283). The number says how many were
evicted. With no success nothing is evicted. -/
def makeRoom (s : State) (fn : Fn) (tier mask size : Nat) (high : Bool) : Nat → Option (State × Nat × Nat)
  | 0 => none
  | k + 1 =>
    match findPlace (occupied s tier) high (unitOf tier) size (regions s fn tier mask) with
    | some b => some (s, b, 0)
    | none =>
      if tier = 2 then
        match oldestModel s fn with
        | none => none
        | some m => (makeRoom (evictModel s m) fn tier mask size high k).map (fun r => (r.1, r.2.1, r.2.2 + 1))
      else none

/- ### Quotas (12 Table 12.4) -/

def handleBlock (s : State) : Nat := 1048576 / unitsOf s.fuse.part
def tenantHandles (s : State) (fn : Fn) : Nat := (groupsOf s fn).length * handleBlock s
def sessionOf (s : State) (fn : Fn) : Nat := (sess s fn).number

/-- The quota kind an object of a tier is charged to; nothing for pool models and tier-1 pins (12 Table 12.4). -/
def kindOf (tier obj : Nat) : Option Nat :=
  if obj = 20 || obj = 21 then none
  else if tier = 1 then some 3
  else if tier = 3 then some 5
  else if obj = 16 then some 1
  else if obj = 17 || obj = 18 then some 2
  else some 0

/-- Context entries of a tenant (11 R262). -/
def contextCount (s : State) (fn : Fn) : Nat :=
  (s.work.seqs.filter (·.fn == fn)).length + (s.work.convs.filter (·.fn == fn)).length
    + 2 * (s.work.streams.filter (·.fn == fn)).length

/-- Current charge of a quota, in bytes, ways or entries. The directory of a sequence is charged at its own size (09
R206), every other charge at the tier's allocation unit (12 R282). -/
def quotaUsed (s : State) (fn : Fn) (kind cop : Nat) : Nat :=
  let mine := s.store.allocs.filter (fun a => a.fn == fn && (kindOf a.tier a.obj == some kind))
  if kind = 3 then ((mine.filter (fun a => a.base / copSize == cop)).map (fun a => ceilDiv a.size waySize)).sum
  else if kind = 4 then contextCount s fn
  else (mine.map (fun a => if a.obj = 16 then a.size else roundUp a.size (unitOf a.tier))).sum
    + (if kind = 1 then 65536 * (s.store.frames.filter (fun f => f.fn == fn && (decide (0 < f.refs) || f.reserved))).length else 0)

/-- Maximum of a quota in its unit. -/
def quotaMax (s : State) (fn : Fn) (kind : Nat) : Nat :=
  if kind = 3 then 8
  else if kind = 4 then tenantHandles s fn
  else if kind = 5 then (nandsOf s fn).length * (nandSize / 65536)
  else tier2Capacity s fn / 65536

/-- Default of a quota in its unit. -/
def quotaDefault (s : State) (fn : Fn) (kind : Nat) : Nat :=
  if kind = 2 then quotaMax s fn kind / 8
  else if kind = 3 then 4
  else if kind = 5 then quotaMax s fn kind
  else quotaMax s fn kind / 4

/-- Limit of a quota in force. -/
def quotaLimit (s : State) (fn : Fn) (kind cop : Nat) : Nat :=
  match s.store.quotas.find? (fun q => q.fn == fn && q.kind == kind && q.coppice == cop) with
  | some q => q.limit
  | none => quotaDefault s fn kind

/-- A quota's limit in bytes, ways or entries. -/
def quotaBytes (s : State) (fn : Fn) (kind cop : Nat) : Nat :=
  quotaLimit s fn kind cop * (if kind = 3 || kind = 4 then 1 else 65536)

/-- A charge of `n` fits the quota. -/
def quotaFits (s : State) (fn : Fn) (kind cop n : Nat) : Bool := decide (quotaUsed s fn kind cop + n ≤ quotaBytes s fn kind cop)

/-- Channel groups a placement of a hint's target may use, and whether the limit is strict (12 R287). -/
def hintMask (s : State) (fn : Fn) (target : Nat) : Nat × Bool :=
  match s.store.hints.find? (fun h => h.fn == fn && h.target == target) with
  | some h => if h.tier = 0xFF then (0, false) else (h.groups, h.mode == 1)
  | none => (0, false)

/-- Place an object: its quota, then a place in the units of the mask, evicting pool models where that helps (12 R283).
The answer holds the new state, the base and whether a model was evicted. -/
def placeObject (s : State) (fn : Fn) (tier mask size obj owner : Nat) (high : Bool) : Option (State × Nat × Bool) :=
  let size' := if tier = 1 || obj != 16 then roundUp size (unitOf tier) else size
  let fits := match kindOf tier obj with
    | none => true
    | some 3 => true
    | some k => quotaFits s fn k 0 size'
  if !fits then none
  else (makeRoom s fn tier mask (roundUp size (unitOf tier)) high (s.work.models.length + 1)).map (fun r =>
    ({ r.1 with store := { r.1.store with
        allocs := r.1.store.allocs ++ [{ fn := fn, session := sessionOf s fn, tier := tier, base := r.2.1,
                                         size := size', obj := obj, owner := owner }] } }, r.2.1, decide (0 < r.2.2)))

/-- Place an object of a hint's target: within the named groups, and with PREFER in the others too (12 R287). -/
def placeHinted (s : State) (fn : Fn) (target size obj owner : Nat) (high : Bool) : Option (State × Nat × Bool) :=
  let h := hintMask s fn target
  match placeObject s fn 2 h.1 size obj owner high with
  | some r => some r
  | none => if h.2 || h.1 = 0 then none else placeObject s fn 2 0 size obj owner high

/- ### Handles, semaphores and slots -/

/-- Handles in use (11 R262). -/
def handlesUsed (s : State) : List Nat :=
  s.work.seqs.map (·.handle) ++ s.work.convs.map (·.handle) ++ s.work.streams.map (·.handle)
    ++ s.work.streams.map (·.stateHandle)

/-- The lowest number of `[lo, lo + n)` that is not listed. -/
def lowestFree (used : List Nat) (lo n : Nat) : Option Nat :=
  ((lo :: used.map (· + 1)).filter (fun h => decide (lo ≤ h) && decide (h < lo + n) && !used.contains h)).min?

/-- The lowest free handle of the tenant's blocks; 0 is never issued (11 R262; which handle is the model's choice). -/
def newHandle (s : State) (fn : Fn) (used : List Nat) : Option Nat :=
  (groupsOf s fn).findSome? (fun g =>
    let b := g * handleBlock s
    if b = 0 then lowestFree used 1 (handleBlock s - 1) else lowestFree used b (handleBlock s))

def seqOf (s : State) (fn : Fn) (h : Nat) : Option Seqn := s.work.seqs.find? (fun q => q.fn == fn && q.handle == h)
def setSeq (s : State) (q : Seqn) : State :=
  { s with work := { s.work with seqs := s.work.seqs.map (fun x => if x.handle = q.handle then q else x) } }
def convOf (s : State) (fn : Fn) (h : Nat) : Option Conv := s.work.convs.find? (fun q => q.fn == fn && q.handle == h)
def streamOf (s : State) (fn : Fn) (h : Nat) : Option Stream := s.work.streams.find? (fun q => q.fn == fn && q.handle == h)
def setStream (s : State) (x : Stream) : State :=
  { s with work := { s.work with streams := s.work.streams.map (fun y => if y.handle = x.handle then x else y) } }
def semOf (s : State) (n : Nat) : Option Sem := s.work.sems.find? (fun x => x.num == n)
def setSem (s : State) (x : Sem) : State :=
  { s with work := { s.work with sems := s.work.sems.map (fun y => if y.num = x.num then x else y) } }
def slotOf (s : State) (fn : Fn) (p : Slot → Bool) : Option Slot := s.work.slots.find? (fun x => x.fn == fn && p x)
def setSlot (s : State) (x : Slot) : State :=
  { s with work := { s.work with slots := s.work.slots.map (fun y => if y.num = x.num then x else y) } }

/-- The lowest free slot of the tenant; coppice c brings slots 128c to 128c + 127 (11 R253; which is the model's choice). -/
def freeSlot (s : State) (fn : Fn) : Option Nat :=
  (coppicesOf s fn).findSome? (fun c => lowestFree (s.work.slots.map (·.num)) (128 * c) 128)

/- ### Frames (09 R202, R208, R216) -/

def updFrames (s : State) (f : List Frame → List Frame) : State := { s with store := { s.store with frames := f s.store.frames } }

/-- A frame stays while an entry names it, a step or slot reserves it, or a reader of R229 keeps it. -/
def frameLive (f : Frame) : Bool := decide (0 < f.refs) || f.reserved || !f.readers.isEmpty

/-- One list entry stops naming a frame. -/
def lowerFrame (s : State) (pfn : Nat) : State :=
  updFrames s (fun l => (l.map (fun f => if f.pfn = pfn then { f with refs := f.refs - 1 } else f)).filter frameLive)

/-- One more list entry names a frame. -/
def raiseFrame (s : State) (pfn : Nat) : State :=
  updFrames s (fun l => l.map (fun f => if f.pfn = pfn then { f with refs := f.refs + 1, reserved := false } else f))

/-- Return reserved frames (09 R220). -/
def returnFrames (s : State) (pfns : List Nat) : State :=
  updFrames s (fun l => (l.map (fun f => if pfns.contains f.pfn then { f with reserved := false } else f)).filter frameLive)

/-- Commands stop keeping frames (09 R229). -/
def dropReader (s : State) (id : Nat) : State :=
  updFrames s (fun l => (l.map (fun f => { f with readers := f.readers.filter (· != id) })).filter frameLive)

/-- Frames of a sequence gain a reader. -/
def addReader (s : State) (q : Seqn) (id : Nat) : State :=
  let pfns := q.pages.map (·.pfn)
  updFrames s (fun l => l.map (fun f => if pfns.contains f.pfn then { f with readers := f.readers ++ [id] } else f))

/-- Reserve `n` frames, all or nothing: quota first (09 R217), then free frames, evicting pool models (R218). The answer
holds the frames and whether a model was evicted. -/
def reserveFrames (s : State) (fn : Fn) (keep : Nat) : Nat → Option (State × List Nat × Bool)
  | 0 => some (s, [], false)
  | n + 1 =>
    if !quotaFits s fn 1 0 65536 then none
    else
      let h := hintMask s fn 5
      let look := fun mask => ((regions s fn 2 mask).map (fun r => (roundUp r.1 65536, r.2)))
      let place := fun s mask => (look mask).findSome? (findLow (occupied s 2) 65536 65536)
      let rec room (s : State) : Nat → Option (State × Nat × Bool)
        | 0 => none
        | k + 1 =>
          match place s h.1, h.2 with
          | some b, _ => some (s, b / 65536, false)
          | none, strict =>
            match (if strict then none else place s 0) with
            | some b => some (s, b / 65536, false)
            | none => match oldestBut s fn keep with
              | none => none
              | some m => (room (evictModel s m) k).map (fun r => (r.1, r.2.1, true))
      match room s (s.work.models.length + 1) with
      | none => none
      | some (s1, pfn, ev) =>
        match reserveFrames (updFrames s1 (· ++ [{ pfn := pfn, fn := fn, refs := 0, reserved := true }])) fn keep n with
        | none => none
        | some (s2, l, ev2) => some (s2, pfn :: l, ev || ev2)

/- ### Discarding steps and the hold of a command -/

/-- Logical tiles of a coppice (01 R11, R13). -/
def logicalTiles (s : State) (c : Nat) : List Nat := (s.work.tiles.getD c { logical := [] }).logical
def activeTiles (s : State) (c : Nat) : Nat := (logicalTiles s c).length
def physTile (s : State) (c t : Nat) : Nat := (logicalTiles s c).getD t (10 * c + t)

/-- Trace number of the unit a cut runs on (17 Table 17.6). -/
def cutUnit (s : State) (a : Admitted) : Nat := if a.edge then 0x48 + a.cut.coppice else physTile s a.cut.coppice a.cut.tile

/-- The first tenant-0 command that a piece of work serves. -/
def traceOwner (s : State) : WorkRef → Option Cmd
  | .cmd id => cmdOf s id
  | .step fn m => ((stepOf s fn m).bind (fun t => (t.members.map (·.cmd)).head?)).bind (cmdOf s)

/-- The trace event of a discarded tile or edge command; `cause` is its row of 06 Table 6.9 (17 Table 17.6). -/
def discardTrace (s : State) (a : Admitted) (cause : Nat) : State :=
  match traceOwner s a.cut.work with
  | some c => traceUnit s c (cutUnit s a) 0x06 (cutUnit s a + 256 * cause)
  | none => s

/-- Discard the admitted cuts of a piece of work (06 R156). -/
def discardCuts (s : State) (w : WorkRef) (cause : Nat) : State :=
  let s := (s.work.admitted.filter (fun a => decide (a.cut.work = w))).foldl (fun s a => discardTrace s a cause) s
  { s with work := { s.work with admitted := s.work.admitted.filter (fun a => decide (a.cut.work ≠ w)) } }

/-- Discard a step: its frames return and its members stand ready for the next one (09 R220, 11 R261). -/
def discardStep (s : State) (t : Step) : State :=
  let s := returnFrames (discardCuts s (.step t.fn t.model) 3) (t.freed ++ t.members.flatMap (fun m => m.frames))
  { s with work := { s.work with
      steps := s.work.steps.filter (fun x => !(x.fn == t.fn && x.model == t.model))
      retried := s.work.retried.filter (fun x => decide (x.work ≠ .step t.fn t.model))
      slots := s.work.slots.map (fun x => if t.members.any (fun m => m.slot == x.num) then { x with chunk := 0 } else x) } }

/-- A command leaves a step; the step is discarded when no member remains (11 R261). -/
def leaveStep (id : Nat) (s : State) (t : Step) : State :=
  if t.members.all (fun m => m.cmd != id) then s
  else
    let out : List Member := t.members.filter (fun m => m.cmd == id)
    let t' : Step := { t with members := t.members.filter (fun m => m.cmd != id), freed := t.freed ++ out.flatMap (fun m => m.frames) }
    if t'.members.isEmpty then discardStep s { t' with members := [] }
    else { s with work := { s.work with
      steps := s.work.steps.map (fun x => if x.fn = t.fn ∧ x.model = t.model then t' else x) } }

/-- Whether another command that started work on a context is open (11 R254). -/
def contextBusy (s : State) (id : Nat) (fn : Fn) (handle : Nat) (op : Op) : Bool :=
  s.cmds.any (fun d => d.id != id && d.fn == fn && d.op == op && d.phase != .waiting && ctxHandle d.pkt == handle)

/-- The slot of a command goes free, unless its context keeps it for a later command (11 R254). -/
def releaseSlot (s : State) (c : Cmd) : State :=
  match slotOf s c.fn (fun x => x.cmd == c.id) with
  | none => s
  | some x =>
    let s := returnFrames s x.held
    if decide (x.kind = 3) || !contextBusy s c.id c.fn x.handle c.op then
      { s with work := { s.work with slots := s.work.slots.filter (fun y => y.num != x.num) } }
    else setSlot s { x with cmd := 0, parked := false, resWait := false, pending := 0, ready := false, chunk := 0, held := [],
                            evicted := false }

/-- Take away what a command holds that is not committed: tile work, step positions, frames it kept, its slot, and its
places in the queues of other units. A GROUP_JOIN that ends early leaves the group (16 R374). -/
def dropWork (s : State) (c : Cmd) : State :=
  let s := if s.group.joinCmd = some c.id then resetGroup s true else s
  let s := if c.op = .compress ∧ c.phase = .parked .units then abandonCompress s (descAt c.pkt.block 128) else s
  let s := s.work.steps.foldl (leaveStep c.id) s
  let s := releaseSlot s c
  let s := discardCuts (dropReader s c.id) (.cmd c.id) 3
  let cam := fun (x : Cam) => { x with writes := x.writes.filter (fun w => w.cmd != c.id) }
  { s with
    cam0 := cam s.cam0
    cam1 := cam s.cam1
    work := { s.work with jobs := s.work.jobs.filter (fun j => j.id != c.id), outs := s.work.outs.filter (fun o => o.cmd != c.id),
                          retried := s.work.retried.filter (fun t => decide (t.work ≠ .cmd c.id)),
                          imageEnds := s.work.imageEnds.filter (fun e => e.1 != c.id) }
    fault := { s.fault with injections := s.fault.injections.filter (fun i => i.cmd != c.id) } }

/-- End a command before its final commit: it keeps what it committed, and its result is its ordinary result for that
work (05 R117). -/
def endCmd (s : State) (c : Cmd) (st : Status) : State :=
  let s := watchRecord s c true
  complete (dropWork s c) c st c.res

/-- A command reaches its final commit: its watch record, the release of what it holds, and its completion. -/
def finishCmd (s : State) (c : Cmd) : State :=
  let s := watchRecord s c false
  complete (dropWork s c) c .ok c.res

/-- End every command of a list that is still open. -/
def endAll (s : State) (ids : List Nat) (st : Status) : State :=
  ids.foldl (fun s id => match cmdOf s id with | some c => endCmd s c st | none => s) s

/-- Commands vanish without completions (05 R124, R125). -/
def forgetAll (s : State) (ids : List Nat) : State :=
  ids.foldl (fun s id => match cmdOf s id with | some c => dropCmd (dropWork s c) id | none => s) s

/- ### Freeing objects -/

/-- Free a sequence; the number counts frames whose count reached 0 (09 R208, 11 R275). -/
def freeSeq (s : State) (q : Seqn) : State × Nat :=
  let dead := (q.pages.filter (fun p => s.store.frames.any (fun f => f.pfn == p.pfn && f.refs == 1))).length
  let s := q.pages.foldl (fun s p => lowerFrame s p.pfn) s
  let s := dropAllocs s q.fn [16] q.handle
  ({ s with work := { s.work with seqs := s.work.seqs.filter (fun x => x.handle != q.handle),
                                  cached := s.work.cached.filter (· != q.handle) } }, dead)

/-- Free a stream: its state, its initial copy and its entries (10 R252). -/
def freeStream (s : State) (x : Stream) : State :=
  let s := dropAllocs s x.fn [17, 18] x.handle
  { s with work := { s.work with streams := s.work.streams.filter (fun y => y.handle != x.handle),
                                 cached := s.work.cached.filter (fun h => h != x.handle && h != x.stateHandle) } }

/-- Drop the pins of a tenant's models (05 R123). -/
def dropPins (s : State) (fn : Fn) : State :=
  { s with
    work := { s.work with models := s.work.models.map (fun m => if m.fn = fn then { m with pin1 := false, pin2 := 0 } else m) }
    store := { s.store with allocs := s.store.allocs.filter (fun a => !(a.fn == fn && a.obj == 21)) } }

/-- Free every object created under a function's session, its quotas, hints and policies (05 R123; 11 R277; 12 R282,
R287). -/
def freeSessionObjects (s : State) (fn : Fn) : State :=
  let s := (s.work.seqs.filter (fun q => q.fn == fn)).foldl (fun s q => (freeSeq s q).1) s
  let s := (s.work.streams.filter (fun q => q.fn == fn)).foldl freeStream s
  let s := dropPins s fn
  { s with
    work := { s.work with convs := s.work.convs.filter (fun x => x.fn != fn), sems := s.work.sems.filter (fun x => x.fn != fn),
                          policies := s.work.policies.filter (fun x => x.fn != fn) }
    store := { s.store with allocs := s.store.allocs.filter (fun a => !(a.fn == fn && decide (a.obj ≤ 4))),
                            quotas := s.store.quotas.filter (fun x => x.fn != fn),
                            hints := s.store.hints.filter (fun x => x.fn != fn) } }

end Sys2Proof.Machine
end

