-- ==== Sys2Proof/Machine/FaultOps.lean ====
section
/-! DEFINITION. The shared fault operations: armed injections and the records they make (14 R347, R348), and the fault of
a command's own unit. -/

namespace Sys2Proof.Machine

/-- The injection armed at a checker, with the address it names or for any address (14 Table 14.7). -/
def armed (s : State) (target unit : Nat) (hit : Nat → Bool) : Option Injection :=
  s.fault.injections.find? (fun i => i.target == target && i.unit == unit && (i.address == 0 || hit i.address.toNat))

/-- `FSEQ` of the record of a source instance; of a dropped record, the number it took (14 R343, Table 14.7). -/
def fseqOf (s : State) (src inst : Nat) : U32 :=
  match s.fault.log.find? (fun c => sameInst c src inst) with
  | some c => c.fseq
  | none => s.fault.fseq - 1

/-- Complete the `FAULT_INJECT` commands whose record has been made (14 R348). Where the fault causes a reset the completion is
due after it, and the reset takes the session with it. -/
def finishInjections (s : State) (src inst : Nat) : State :=
  (s.cmds.filter (fun c => c.op == .faultInject && (c.misc == [src, inst, 0] || c.misc == [src, inst, 1]))).foldl
    (fun s c => complete s c .ok (natLe 4 (fseqOf s src inst).toNat)) s

/-- An injection fires: its fault is reported with `INJECTED` set, and its command completes when the record is made. -/
def fireInjection (s : State) (i : Injection) (c : Capture) : State :=
  let s := { s with fault := { s.fault with injections := s.fault.injections.filter (fun x => x.cmd != i.cmd) } }
  let s := raise s { c with injected := true }
  let s := match cmdOf s i.cmd with
    | some d => setCmd s { d with misc := [c.source, c.inst, c.cls] }
    | none => s
  if s.fault.forward.any (fun x => sameInst x c.source c.inst) then s else finishInjections s c.source c.inst

/-- Report a fault, as injected where an injection is armed at its checker. -/
def raiseAt (s : State) (target unit : Nat) (c : Capture) : State :=
  match armed s target unit (fun _ => true) with
  | some i => fireInjection s i c
  | none => raise s c

/-- Set `WARN` bits of an open command. -/
def warnCmd (s : State) (id : Nat) (w : BitVec 8) : State :=
  match cmdOf s id with
  | some c => setCmd s { c with warn := c.warn ||| w }
  | none => s

/-- Count a re-run of a `GRAPH_RUN`'s tile command (11 Table 11.9 `RETRIES`). -/
def countRetry (s : State) (id : Nat) : State :=
  match cmdOf s id with
  | some c => if c.op = .graphRun then setCmd s { c with lost := c.lost + 1, res := (c.res ++ zeroBytes 8).take 8 ++ natLe 4 (c.lost + 1) } else s
  | none => s

end Sys2Proof.Machine
end

