-- ==== Sys2Proof/Machine/Reals.lean ====
section
/-! DEFINITION. The real functions that 06 names with error bounds: exponential, logarithm and the nonlinear functions of Table 6.8 as
reference values with 96 fraction bits, and results that are the device's own within a bound (06 R151, R152; 09 R223, R224; 10 R238). -/

namespace Sys2Proof.Machine

/- ### Reference values in units of 2⁻⁹⁶ -/

def fixOne : Int := 2 ^ 96
def fixMul (a b : Int) : Int := a * b / 2 ^ 96
def fixDiv (a b : Int) : Int := a * 2 ^ 96 / b

/-- A mantissa at an exponent in units of 2⁻⁹⁶. -/
def fixAt (v e : Int) : Int := if 0 ≤ e + 96 then v * 2 ^ (e + 96).toNat else v / 2 ^ (-(e + 96)).toNat
def fixFp (v : Int) : Fp := .fin (decide (v < 0)) v.natAbs (-96)

/-- A power series: `fuel` terms from number `k`, each got from the last. -/
def fixSeries (next : Int → Nat → Int) : Nat → Nat → Int → Int
  | 0, _, _ => 0
  | fuel + 1, k, t => t + fixSeries next fuel (k + 1) (next t k)

/-- ln 2. -/
def fixLn2 : Int := 54916777467707473351141471128

/-- e^r for 0 ≤ r < 1. -/
def fixExpm (r : Int) : Int := fixSeries (fun t k => fixMul t r / ((k : Int) + 1)) 34 0 fixOne

/-- e^x as an exact floating-point value close to it. -/
def expFp : Fp → Fp
  | .nan => .nan
  | .inf neg => if neg then .fin false 0 0 else .inf false
  | .fin neg m e =>
    let t := fixAt (if neg then -(m : Int) else m) e
    if 256 * fixOne ≤ t then .inf false
    else if t ≤ -256 * fixOne then .fin false 0 0
    else .fin false (fixExpm (t % fixLn2)).toNat (t / fixLn2 - 96)

/-- ln y for 1 ≤ y < 2. -/
def fixLnm (y : Int) : Int :=
  let z := fixDiv (y - fixOne) (y + fixOne)
  let q := fixMul z z
  2 * fixSeries (fun t k => fixMul t q * (2 * (k : Int) + 1) / (2 * (k : Int) + 3)) 36 0 z

/-- ln x. -/
def lnFp : Fp → Fp
  | .nan => .nan
  | .inf neg => if neg then .nan else .inf false
  | .fin neg m e =>
    if m = 0 then .inf true
    else if neg then .nan
    else fixFp (fixLnm ((m : Int) * 2 ^ 96 / 2 ^ m.log2) + (e + m.log2) * fixLn2)

/- ### Exponentials and logarithms in FP32 -/

/-- A value lies within relative 2⁻ᵖ × `c` of another. -/
def relWithin (c p : Nat) (got exact : Fp) : Bool :=
  got.finite && exact.finite && Fp.le (fpAdd got exact.neg).abs (fpMul (.fin false c (-(p : Int))) exact.abs)

/-- The device's exponential of an FP32 value, number `n`: any value within relative 2⁻²⁰ (06 R152). That of 0 is 1 (09 R225;
notes/assumptions/78.md). -/
def fexp (n : Nat) (x : U32) : U32 :=
  let r := expFp (fpOf x)
  let got := Config.expPick n x
  if fpOf x = .fin false 0 0 ∨ fpOf x = .fin true 0 0 then 0x3F800000
  else if relWithin 1 20 (fpOf got) r then got else fpBits 24 r

/-- `m` + ln `σ` in FP32, number `n`, within relative 2⁻¹⁸ × `c` (09 R224, Table 9.5). -/
def flogsum (n c : Nat) (m sigma : U32) : U32 :=
  let r := fpAdd (fpOf m) (lnFp (fpOf sigma))
  let got := Config.freeBits n
  if relWithin c 18 (fpOf got) r then got else fpBits 24 r

/- ### The nonlinear functions (06 Table 6.8) -/

/-- 1 / (1 + e^−x). -/
def fixSigmoid (x : Int) : Int :=
  let a : Int := x.natAbs
  let s := if 128 * fixOne ≤ a then fixOne
    else match expFp (fixFp (-a)) with
      | .fin _ m e => fixDiv fixOne (fixOne + fixAt m e)
      | _ => fixOne
  if x < 0 then fixOne - s else s

/-- √(2/π). -/
def fixRoot2Pi : Int := 63214927650911841617241039488

/-- erf (x / √2); 1 beyond 8. -/
def fixErf (x : Int) : Int :=
  let a : Int := x.natAbs
  let h := fixMul a a / 2
  let e := if 8 * fixOne ≤ a then fixOne
    else fixMul fixRoot2Pi (fixSeries (fun t k => -(fixMul t h * (2 * (k : Int) + 1) / (((k : Int) + 1) * (2 * (k : Int) + 3)))) 150 0 a)
  if x < 0 then -e else e

/-- What function 1 to 4 or 5 gives at x, and the bound on its error, both in units of 2⁻⁹⁶. -/
def nlTarget (f : Nat) (x : Int) : Int × Int :=
  let wide := (max fixOne (x.natAbs : Int)) / 2 ^ 14
  match f with
  | 1 => (fixSigmoid x, fixOne / 2 ^ 16)
  | 2 => (2 * fixSigmoid (2 * x) - fixOne, fixOne / 2 ^ 15)
  | 3 => (fixMul x (fixSigmoid x), wide)
  | 4 => (fixMul x (fixOne + fixErf x) / 2, wide)
  | _ =>
    let v := match expFp (fixFp (min x (16 * fixOne))) with | .fin _ m e => fixAt m e | _ => 0
    (v, if x < -12 * fixOne then fixOne / 2 ^ 17 else v / 2 ^ 12)

/-- An exact value is rounded to units of 2^`e` and clipped to 24 bits. -/
def fixRound (v e : Int) : Int × Bool :=
  let r := rneShift v (e + 96).toNat
  (clamp r (minOf 24) (maxOf 24), decide (r < minOf 24) || decide (maxOf 24 < r))

/-- A result in units of 2^`e` lies within a bound and half a unit of its target; a clipped one lies beyond the range. -/
def nlWithin (v e : Int) (t : Int × Int) : Bool :=
  let y := fixAt v e
  let b := t.2 + fixAt 1 (e - 1)
  (decide (t.1 - b ≤ y) || decide (v = maxOf 24)) && (decide (y ≤ t.1 + b) || decide (v = minOf 24))

/-- A LOG result for `x` × 2^`ewk` > 0: |y·x − 1| ≤ 2⁻¹⁵, or |y²·x − 1| within the square of that, give half a unit. -/
def logWithin (f : Nat) (x ewk v e : Int) : Bool :=
  let le := fun (a : Fp) (b : Fp) => Fp.le a b
  let xf : Fp := .fin false x.toNat ewk
  let half := fun (d : Int) => (.fin (decide (2 * v + d < 0)) (2 * v + d).natAbs (e - 1) : Fp)
  let val := fun (y : Fp) => if f = 6 then fpMul y xf else fpMul (fpMul y y) xf
  let lo : Fp := if f = 6 then .fin false (2 ^ 15 - 1) (-15) else .fin false ((2 ^ 15 - 1) * (2 ^ 15 - 1)) (-30)
  let hi : Fp := if f = 6 then .fin false (2 ^ 15 + 1) (-15) else .fin false ((2 ^ 15 + 1) * (2 ^ 15 + 1)) (-30)
  decide (0 ≤ v) && (le lo (val (half 1)) || decide (v = maxOf 24)) && (decide (2 * v - 1 ≤ 0) || le (val (half (-1))) hi)

/-- The reciprocal or reciprocal root of `x` × 2^`ewk`, rounded to units of 2^`e`. -/
def logRef (f : Nat) (x ewk e : Int) : Int × Bool :=
  let n := x.toNat
  let r : Int :=
    if f = 6 then
      let k := 1 - (ewk + e)
      if 0 ≤ k then ((2 : Int) ^ k.toNat / n + 1) / 2 else 0
    else
      let k := 2 - (ewk + 2 * e)
      if 0 ≤ k then (Nat.sqrt (2 ^ k.toNat / n) + 1) / 2 else 0
  (clamp r 0 (maxOf 24), decide (maxOf 24 < r))

/-- The nonlinear unit for a built-in function: the evaluation of R150 with the table the device built, held to the bound of 06 Table 6.8
(R151); a host table has no bound. -/
def nlUnit (f : Nat) (t : NlTable) (xi ewk enl : Int) : Int × Bool × Bool :=
  let r := nlEval t xi ewk enl
  if f = 15 ∨ r.2.2 then r
  else if f = 6 ∨ f = 7 then
    if logWithin f xi ewk r.1 enl then r
    else let q := logRef f xi ewk enl; (q.1, q.2, false)
  else
    let g := nlTarget f (fixAt xi ewk)
    if nlWithin r.1 enl g then r
    else let q := fixRound g.1 enl; (q.1, q.2, false)

end Sys2Proof.Machine
end

