-- ==== Sys2Proof/Machine/Flags.lean ====
section
/-! DEFINITION. The result flags of an operator (06 Table 6.13) and the gate pipeline that sets them: saturation in the
accumulators, the stages `BIAS` to `OUTQ` and the conversions of the outputs (06 R141 to R153). -/

namespace Sys2Proof.Machine

/- ### OUT_FLAGS (06 Table 6.13, 08 Table 8.6) -/

def flagAccSat : BitVec 16 := 1
def flagOutSat : BitVec 16 := 2
def flagNan : BitVec 16 := 4
def flagInf : BitVec 16 := 8
def flagNlDomain : BitVec 16 := 16
def flagCheckSkipped : BitVec 16 := 32
def flagSrcTruncated : BitVec 16 := 64
def flagEdge : BitVec 16 := 128

/-- A flag where a condition holds. -/
def flagIf (b : Bool) (f : BitVec 16) : BitVec 16 := if b then f else 0

/- ### Accumulation (06 R141) -/

/-- Signed saturating 32-bit addition of pass sums, in order. -/
def accumulate (acc : Int) : List Int → Int × Bool
  | [] => (acc, false)
  | x :: t =>
    let r := satTo 32 (acc + x)
    let q := accumulate r.1 t
    (q.1, r.2 || q.2)

/- ### The gate pipeline (06 Table 6.5) -/

/-- A working value: an integer with its exponent, or FP32 in the BF16 mode (06 R147). -/
inductive Working where
  | int (v : Int) (e : Int)
  | fp (x : U32)
deriving DecidableEq, Repr

/-- The stages a command enables and the operands they read. -/
structure Gates where
  stages : Nat
  nlFunc : Nat
  eWk : Int
  eNl : Int
  eGate : Int
  table : NlTable
  b : Desc
  g : Desc
  r : Desc
  y : Desc
deriving DecidableEq, Repr

def Gates.on (p : Gates) (i : Nat) : Bool := p.stages.testBit i

/-- `BIAS` (06 R148) on an integer accumulator. -/
def biasInt (s : State) (p : Gates) (acc eAcc : Int) (n : Nat) : Int × BitVec 16 :=
  if p.on 0 then
    let b := align (p.b.int s n) p.b.e eAcc (minOf 32) (maxOf 32)
    let r := satTo 32 (acc + b.1)
    (r.1, flagIf (b.2 || r.2) flagOutSat)
  else (acc, 0)

/-- `NL` (06 R150, R151). -/
def nlStage (p : Gates) : Working → Working × BitVec 16
  | .int v e =>
    if p.on 1 then
      let r := nlUnit p.nlFunc p.table v e p.eNl
      (.int r.1 p.eNl, flagIf r.2.1 flagOutSat ||| flagIf r.2.2 flagNlDomain)
    else (.int v e, 0)
  | .fp x =>
    if p.on 1 then
      let i := fpToInt x p.eWk (minOf 24) (maxOf 24)
      let r := nlUnit p.nlFunc p.table i.1 p.eWk p.eNl
      (.fp (intToFp r.1 p.eNl), flagIf (i.2 || r.2.1) flagOutSat ||| flagIf r.2.2 flagNlDomain ||| flagIf (isNan x) flagNan)
    else (.fp x, 0)

/-- `GATE` (06 R149) on the output element of dense index `i`. -/
def gateStage (s : State) (p : Gates) (i : Nat) : Working → Working × BitVec 16
  | .int v e =>
    if p.on 2 then
      let r := align (v * (p.g.int s i - p.g.zp)) (e + p.g.e) p.eGate (minOf 24) (maxOf 24)
      (.int r.1 p.eGate, flagIf r.2 flagOutSat)
    else (.int v e, 0)
  | .fp x => if p.on 2 then (.fp (fmul x (p.g.fp s i)), 0) else (.fp x, 0)

/-- `RESID` (06 R149). -/
def residStage (s : State) (p : Gates) (i : Nat) : Working → Working × BitVec 16
  | .int v e =>
    if p.on 3 then
      let r := align (p.r.int s i - p.r.zp) p.r.e e (minOf 24) (maxOf 24)
      let q := satTo 24 (v + r.1)
      (.int q.1 e, flagIf (r.2 || q.2) flagOutSat)
    else (.int v e, 0)
  | .fp x => if p.on 3 then (.fp (fadd x (p.r.fp s i)), 0) else (.fp x, 0)

/-- Add the zero point and saturate to the format (06 R142). -/
def storeInt (y : Desc) (r : Int × Bool) : List Byte × BitVec 16 :=
  let v := clamp (r.1 + y.zp) (intLo y.format) (intHi y.format)
  (intLe (elemBytes y.format) v, flagIf (r.2 || decide (v ≠ r.1 + y.zp)) flagOutSat)

/-- Write an FP32 value as BF16 or FP32 (06 R143). -/
def storeFp (y : Desc) (x : U32) : List Byte × BitVec 16 :=
  if y.format = 0x04 then
    let h := toBf16 x
    let z := BitVec.ofNat 32 (h * 65536)
    (natLe 2 h, flagIf (isNan z) flagNan ||| flagIf (isInf z) flagInf)
  else (natLe 4 x.toNat, flagIf (isNan x) flagNan ||| flagIf (isInf x) flagInf)

/-- `OUTQ` (06 R153): the stored element and its flags. -/
def outq (y : Desc) : Working → List Byte × BitVec 16
  | .int v e =>
    if isInt y.format then storeInt y (align v e y.e (intLo y.format) (intHi y.format)) else storeFp y (intToFp v e)
  | .fp x =>
    if isInt y.format then
      let q := storeInt y (fpToInt x y.e (intLo y.format) (intHi y.format))
      (q.1, q.2 ||| flagIf (isNan x) flagNan)
    else storeFp y x

/-- The working value after `RESID` from an integer accumulator (column `n`, output index `i`). -/
def pipeInt (s : State) (p : Gates) (acc eAcc : Int) (n i : Nat) : Working × BitVec 16 :=
  let b := biasInt s p acc eAcc n
  let w := align b.1 eAcc p.eWk (minOf 24) (maxOf 24)
  let x1 := nlStage p (.int w.1 p.eWk)
  let x2 := gateStage s p i x1.1
  let x3 := residStage s p i x2.1
  (x3.1, b.2 ||| flagIf w.2 flagOutSat ||| x1.2 ||| x2.2 ||| x3.2)

/-- The working value after `RESID` from an FP32 accumulator. -/
def pipeFp (s : State) (p : Gates) (acc : U32) (n i : Nat) : Working × BitVec 16 :=
  let a := if p.on 0 then fadd acc (p.b.fp s n) else acc
  let x1 := nlStage p (.fp a)
  let x2 := gateStage s p i x1.1
  let x3 := residStage s p i x2.1
  (x3.1, x1.2 ||| x2.2 ||| x3.2)

/-- The gate pipeline up to `RESID` for one output from its accumulator. -/
def pipeline (s : State) (p : Gates) (isFp : Bool) (acc eAcc : Int) (n i : Nat) : Working × BitVec 16 :=
  if isFp then pipeFp s p (BitVec.ofInt 32 acc) n i else pipeInt s p acc eAcc n i

/-- Whether an output counts in `SAT_COUNT` (06 Table 6.13). -/
def countsSat (f : BitVec 16) : Bool := f &&& (flagAccSat ||| flagOutSat) != 0

end Sys2Proof.Machine
end

