-- ==== Sys2Proof/Machine/PowerOps.lean ====
section
/-! DEFINITION. The shared power-domain operations: return delays, refusal counting, demands, aborts and the class
order of returns (01 R14; 15 R354 to R358). -/

namespace Sys2Proof.Machine

/-- Return delay from RET in ticks (15 Table 15.4). -/
def retDelay (d : Nat) : Nat :=
  if d = 0x01 || d = 0x02 then 6144
  else if d = 0x03 then 1536
  else if d = 0x04 then 93
  else if d = 0x05 then 308
  else if d = 0x06 || d = 0x07 then 3072
  else if d = 0x08 then 62
  else if d = 0x10 then 308
  else if d = 0x11 then 216
  else if d = 0x12 || d = 0x16 then 7
  else if d = 0x13 || d = 0x14 then 47
  else if d = 0x15 then 615
  else if 0x18 ≤ d && d ≤ 0x1B then 77
  else if 0x1C ≤ d && d ≤ 0x1F then 62
  else 25

/-- Return delay from OFF in ticks (15 Table 15.4); CTRL depends on the retained firmware (01 R16). -/
def offDelay (s : State) (d : Nat) : Nat :=
  if d = 0x01 || d = 0x02 then 36864
  else if d = 0x03 then 6144
  else if d = 0x04 then 1229
  else if d = 0x05 then 6144
  else if d = 0x06 || d = 0x07 then 15360
  else if d = 0x10 then (if s.power.fwRetained then 18432 else 122880)
  else if d = 0x11 then 3072
  else if d = 0x12 || d = 0x16 then 62
  else if d = 0x13 || d = 0x14 then 552960
  else if d = 0x15 then 9216
  else if 0x18 ≤ d && d ≤ 0x1B then 3687
  else if 0x1C ≤ d && d ≤ 0x1F then 308
  else 461

/-- Delay of the return that a domain is in; `target` keeps the state it returns from. -/
def returnDelay (s : State) (x : Dom) : Nat := if x.target = 2 then offDelay s x.id else retDelay x.id

/-- Close the time account of a domain's state (15 Table 15.10 `T_ON`, `T_RET`, `T_OFF`). -/
def bookTime (s : State) (x : Dom) : Dom :=
  let n := s.stb - x.mark
  match x.state with
  | .ret => { x with tRet := x.tRet + n, mark := s.stb }
  | .off => { x with tOff := x.tOff + n, mark := s.stb }
  | _ => { x with tOn := x.tOn + n, mark := s.stb }

/-- Add a (refuser, reason) pair to the four entries of a domain record (15 Table 15.10). -/
def countPair (l : List (Nat × Nat × Nat)) (refuser reason : Nat) : List (Nat × Nat × Nat) :=
  if l.any (fun e => e.1 == refuser && e.2.1 == reason) then
    l.map (fun e => if e.1 = refuser ∧ e.2.1 = reason then (e.1, e.2.1, min (e.2.2 + 1) 65535) else e)
  else if l.length < 4 then l ++ [(refuser, reason, 1)] else l

/-- A refused entry leaves the domain as it was and restarts its timers (15 R356). -/
def refuseEntry (s : State) (d refuser reason : Nat) : State :=
  updDom s d (fun x => { x with refused := x.refused + 1, refusers := countPair x.refusers refuser reason, lastRefusal := s.stb,
                                idleAt := s.stb, expiredAt := none, byHost := none })

/-- A domain that tenant 1 owns: its changes make no trace event (17 R391). -/
def t1Domain (s : State) (d : Nat) : Bool :=
  if 0x18 ≤ d ∧ d ≤ 0x1B then t1Coppice s (d - 0x18)
  else if 0x1C ≤ d ∧ d ≤ 0x1F then t1Coppice s (d - 0x1C)
  else if 0x20 ≤ d ∧ d ≤ 0x47 then t1Coppice s ((d - 0x20) / 10) else false

/-- Code of a domain's state (15 Table 15.10). -/
def domCode (x : Dom) : Nat :=
  match x.state with | .on => 0 | .ret => 1 | .off => if x.heldOff then 5 else 2 | .entering => 3 | .returning => 4

/-- Trace a domain's new state (17 Table 17.6). -/
def traceDomain (s : State) (d : Nat) : State :=
  if t1Domain s d then s else traceEvent s 0x00 0x03 0x08 0x03 0 0 0 (d + 256 * domCode (domOf s d))

/-- An aborted entry leaves the domain as it was with nothing lost (15 R355, R356): the reason is counted with 0x80. -/
def abortEntry (s : State) (d refuser reason : Nat) : State :=
  traceDomain (updDom s d (fun x => { x with
    state := if x.fromRet then .ret else .on, aborted := x.aborted + 1, refusers := countPair x.refusers refuser (reason + 0x80),
    lastRefusal := s.stb, idleAt := s.stb, expiredAt := none, byHost := none, stopped := false, fromRet := false })) d

/-- Start the return of a domain that is in RET or OFF (15 R358). -/
def startReturn (s : State) (d : Nat) : State :=
  traceDomain (updDom s d (fun x =>
    let y := bookTime s x
    { y with state := .returning, target := if x.state = .off then 2 else 1, entryAt := s.stb, demand := false })) d

/-- Whether PRIV_N holds a domain OFF (03 R65, R67). -/
def privForced (s : State) (d : Nat) : Bool := s.listen.priv && (d == 0x01 || d == 0x02 || d == 0x03 || d == 0x06 || d == 0x07)

/-- Domains of the MEM class. -/
def memDoms : List Nat := [0x13, 0x14]

/-- A domain that is wanted and not yet ON. -/
def pendingReturn (s : State) (d : Nat) : Bool := (domOf s d).demand || (domOf s d).state == .returning

/-- A tile domain whose tile is neither mapped nor held: a spare before its use and a retired tile stay OFF (01 R11). -/
def tileUnmapped (s : State) (d : Nat) : Bool :=
  decide (0x20 ≤ d) && decide (d ≤ 0x47) && !(s.work.tiles.any (fun x => x.logical.contains (d - 0x20)))

/-- The class of COP, with DMA, NAND and OBS (15 R358). -/
def copClass : List Nat := [0x12, 0x15, 0x16, 0x18, 0x19, 0x1A, 0x1B]

/-- The class before a domain's own has finished its returns (01 R14): CTRL, then MEMA and MEMB, then COP with DMA,
NAND and OBS, then TILE; an EDGE domain follows its own COP. Gorse domains and LINK have no class before them. -/
def classReady (s : State) (d : Nat) : Bool :=
  if d < 0x10 || d = domCtrl || d = domLink then true
  else if memDoms.contains d then domOn s domCtrl
  else if d ≤ 0x1B then domOn s domCtrl && memDoms.all (fun m => !pendingReturn s m)
  else if d ≤ 0x1F then domOn s (domCop (d - 0x1C))
  else domOn s (domCop ((d - 0x20) / 10)) && copClass.all (fun m => !pendingReturn s m)

/-- Start every wanted return whose class is due. -/
def pumpReturns (s : State) : State :=
  (s.power.doms.map (·.id)).foldl (fun s d =>
    let x := domOf s d
    if x.demand && (x.state == .ret || x.state == .off) && !x.heldOff && !privForced s d && classReady s d
    then startReturn s d else s) s

/-- A demand for a domain (15 R355, R358): it aborts an entry before its clock-stop point, waits for an entry past it,
and starts or queues the return of a domain in RET or OFF. A domain held OFF returns only at the host's request. -/
def demandDom (s : State) (d refuser reason : Nat) : State :=
  let x := domOf s d
  if !domPresent s.fuse.part d || x.heldOff || privForced s d || tileUnmapped s d then s
  else match x.state with
    | .on => s
    | .returning => s
    | .entering =>
      if x.stopped then updDom s d (fun x => { x with demand := true })
      else
        let s := abortEntry s d refuser reason
        if x.fromRet then pumpReturns (updDom s d (fun x => { x with demand := true })) else s
    | _ => pumpReturns (updDom s d (fun x => { x with demand := true }))

/-- Every domain of a list is ON. -/
def allOn (s : State) (ds : List Nat) : Bool := ds.all (domOn s)

/-- The MEM domains of a tenant's channel groups. -/
def memDomsOf (s : State) (fn : Fn) : List Nat :=
  (if (groupsOf s fn).any (· < 2) then [domMema] else []) ++ (if (groupsOf s fn).any (2 ≤ ·) then [domMemb] else [])

/-- MEM domain of a group. -/
def memOfGroup (g : Nat) : Nat := if g < 2 then domMema else domMemb

/-- Bits of a list of units. -/
def maskOf (l : List Nat) : Nat := ((List.range 4).map (fun i => if l.contains i then 2 ^ i else 0)).sum

/-- Channel groups named for memory work (15 R359): they leave self refresh now where their domain is ON, else at its
return. -/
def wantGroups (s : State) (gs : List Nat) : State :=
  let now := BitVec.ofNat 4 (maskOf (gs.filter (fun g => domOn s (memOfGroup g))))
  { s with power := { s.power with wantGroups := s.power.wantGroups ||| BitVec.ofNat 4 (maskOf gs),
                                   selfRefresh := s.power.selfRefresh &&& ~~~now } }

/-- Ask Gorse for Laurel domains and channel groups (15 R358): the refuser is CTRL. The request goes over the die link, which carries
nothing while it retrains (01 R6, R9); what still needs the domains asks again at every settling. -/
def demandGroups (s : State) (ds gs : List Nat) : State :=
  if s.dlink.trained then ds.foldl (fun s d => demandDom s d domCtrl 0x01) (wantGroups s gs) else s

/-- Demand domains for a command's or step's work, with the tenant's groups behind the MEM domains among them. -/
def demandWork (s : State) (fn : Fn) (ds : List Nat) : State :=
  demandGroups s ds (if ds.any memDoms.contains then (groupsOf s fn).filter (fun g => ds.contains (memOfGroup g)) else [])

/-- Force a domain OFF at once (15 R357): counted in `FORCED`. -/
def forceOff (s : State) (d : Nat) : State :=
  traceDomain (updDom s d (fun x =>
    let y := bookTime s x
    if x.state = .off then { y with demand := false }
    else { y with state := .off, demand := false, forced := min (x.forced + 1) 255, frozenAt := s.stb, expiredAt := none,
                  byHost := none, stopped := false, fromRet := false })) d

/-- Put a Gorse sensor or listen domain into a state under its own control (15 R365: such transitions have no idle
timer and follow the cascade). -/
def cascadeState (s : State) (d : Nat) (st : DomState) : State :=
  traceDomain (updDom s d (fun x =>
    let y := bookTime s x
    if x.state = st then x
    else { y with state := st, entries := x.entries + 1, demand := false, frozenAt := s.stb, stopped := false, fromRet := false })) d

end Sys2Proof.Machine
end

