-- ==== Sys2Proof/Machine/Jobs.lean ====
section
/-! DEFINITION. Operators cut into tile and edge commands: which units may run one, admission at a boundary, and the commit
of one command's outputs (06 R154 to R159, R447; 08 R189, R197; 11 R259, R270; 15 R362 to R364; 07 R174). -/

namespace Sys2Proof.Machine

/- ### Units -/

/-- Logical tiles of a coppice that `TILE_MASK` names; 0 names every active one (06 Table 6.12). Work that names only tiles that the
coppice has lost since runs on those that are left (01 R13). -/
def maskedTiles (s : State) (c mask : Nat) : List Nat :=
  let l := (List.range (activeTiles s c)).filter (fun t => mask == 0 || mask.testBit t)
  if l.isEmpty then List.range (activeTiles s c) else l

/-- A unit is not held OFF (15 R365, 11 R270). -/
def usable (s : State) (d : Nat) : Bool := !(domOf s d).heldOff

/-- Coppices a command's mask names. -/
def cmdCoppices (c : Cmd) : List Nat := maskList (blk c 4 1)

/-- Some coppice with a tile, or an edge engine, that is not held OFF (11 R270). -/
def someUnit (s : State) (cops : List Nat) (mask : Nat) (edge : Bool) : Bool :=
  cops.any (fun c => usable s (domCop c) &&
    (if edge then usable s (domEdge c) else (maskedTiles s c mask).any (fun t => usable s (domTile (physTile s c t)))))

/-- The static conditions on `COPPICES` and `TILE_MASK` (06 R159): reserved bits, not 0, within the tenant's partition, and
within the active count. -/
def masksOk (s : State) (c : Cmd) (tiles : Bool) : Bool :=
  decide (blk c 4 1 < 16) && decide (blk c 4 1 ≠ 0) && (cmdCoppices c).all (ownsCoppice s c.fn)
    && (!tiles || (cmdCoppices c).all (fun k => decide (blk c 5 1 < 2 ^ activeTiles s k)))

/-- A coppice the part does not have is named (00 R1, 06 R159). -/
def absentCoppice (s : State) (mask : Nat) : Bool := (maskList mask).any (fun c => !coppicePresent s c)

/-- Domains an operator's work needs. -/
def jobDomains (s : State) (c : Cmd) (cops : List Nat) (mask : Nat) (edge : Bool) : List Nat :=
  memDomsOf s c.fn ++ cops.map domCop ++
    (if edge then cops.map domEdge else cops.flatMap (fun k => (maskedTiles s k mask).map (fun t => domTile (physTile s k t))))

/-- Domains of an operator in flight, while it has tile or edge commands to admit. -/
def jobDoms (s : State) (c : Cmd) (j : Job) : List Nat :=
  if c.phase = .parked .tiles then jobDomains s c (cmdCoppices c) (blk c 5 1) j.edge else []

/-- Start an operator: its units return (15 R358) and its tile or edge commands wait for admission. -/
def startJob (s : State) (c : Cmd) (j : Job) : State :=
  let s := bumpFree { s with work := { s.work with jobs := s.work.jobs ++ [{ j with draw := s.freeCtr }] } }
  let s := matchWatch (setCmd s { c with phase := .parked .tiles }) c
  demandWork s c.fn (jobDomains s c (cmdCoppices c) (blk c 5 1) j.edge)

def jobOf (s : State) (id : Nat) : Option Job := s.work.jobs.find? (fun j => j.id == id)
def setJob (s : State) (j : Job) : State :=
  { s with work := { s.work with jobs := s.work.jobs.map (fun x => if x.id = j.id then j else x) } }

/-- Kill convolutions whose frames a closing gate takes (08 R201): their edge commands are discarded, none is admitted any more, and they end
with the deadlines of the tick, after `CANCELLED`. -/
def killImages (s : State) (ids : List Nat) : State :=
  let s : State := ids.foldl (fun s id => discardCuts s (.cmd id) 3) s
  { s with work := { s.work with imageEnds := s.work.imageEnds ++ ids.map (fun id => (id, ctrlStamp s)) } }

/-- End the killed convolutions that `due` names by the stamp of the kill. -/
def endImages (due : Nat → Bool) (s : State) : State :=
  endAll s ((s.work.imageEnds.filter (fun e => due e.2)).map (·.1)) .privacyBlock

/- ### What an operator computes -/

/-- What the tile adds up in one pass and checks (06 R144, R145): the activations of the pass's rows, and for each row its weights over
the columns of the block. A pair of rows of the INT16 × INT8 mode stands as two rows. -/
inductive PassOps where
  | int (xs : List Int) (ws : List (List Int)) (shift : Nat)
  | fp (xs : List U32) (ws : List (List U32))
deriving DecidableEq, Repr

/-- Neither a NaN nor an infinity. -/
def isOdd (x : U32) : Bool := isNan x || isInf x

/-- A sum of FP32 values. -/
def sum32 (n : Nat) (l : List U32) : U32 := fpSum n (l.map fpOf)

/-- Dot product in the BF16 mode: exact products, rounded additions in an open order (06 R135, R158). -/
def fpDot (n : Nat) (l : List (U32 × U32)) : U32 × Bool :=
  fpSumOvf 2 n (l.map (fun t => fpOf (fmul t.1 t.2)))

/-- `C`, `T` and the tolerance of a pass in the BF16 mode: row sums, row magnitudes and column sums, each in FP32. -/
def fpCheckSums (n : Nat) (xs : List U32) (ws : List (List U32)) : U32 × U32 × U32 :=
  let mag := fun x : U32 => x &&& 0x7FFFFFFF
  let cols := (List.range (ws.headD []).length).map (fun i => (fpDot n (xs.zip (ws.map (fun r => r.getD i 0)))).1)
  ((fpDot n (xs.zip (ws.map (sum32 n)))).1, sum32 n cols,
    fmul 0x38800000 (fpDot n ((xs.map mag).zip (ws.map (fun r => sum32 n (r.map mag))))).1)

/-- A pass that is not checked: a NaN or an infinity stands in an operand or a sum (06 R145). -/
def PassOps.skipped : PassOps → Bool
  | .int _ _ _ => false
  | .fp xs ws =>
    let q := fpCheckSums 0 xs ws
    xs.any isOdd || ws.any (·.any isOdd) || isOdd q.1 || isOdd q.2.1 || isOdd q.2.2

/-- The comparison of a pass fails (06 R144, R145), with the column sums moved by `delta`. -/
def PassOps.fails (delta : Int) : PassOps → Bool
  | .int xs ws shift =>
    let c := (xs.zipWith (fun x r => x * r.sum) ws).sum * 2 ^ shift
    let t := ((List.range (ws.headD []).length).map (fun i => (xs.zipWith (fun x r => x * r.getD i 0) ws).sum * 2 ^ shift)).sum
    decide (c ≠ t + delta)
  | .fp xs ws =>
    let q := fpCheckSums 0 xs ws
    !(PassOps.fp xs ws).skipped
      && !Fp.le (fpAdd (fpOf (fadd q.2.1 (BitVec.ofInt 32 delta))) (fpOf q.1).neg).abs (fpOf q.2.2)

/-- The statistics that an operator writes: none, `NORM` to S, `SOFTMAX` to S from T (06 R152), or records of its own (09 R224). -/
inductive Stats where
  | none
  | norm (d : Desc)
  | soft (d t : Desc)
  | own (d : Desc) (record : Nat → Nat → List Acc → Nat → List Byte)

/-- One operator's work: the shape of its outputs and of its cuts, how a cut goes on from accumulators, and what a finished
accumulator becomes. `extend n t m a` are the accumulators of row `m` after the K range of the cut `t`, with the flags raised, where `n` is the number
of the first of the row's draws `draws t`; `mode` is the arithmetic mode, for the energy estimate; `values b m cols a` the working values of columns; `bad t` why an operand cannot be delivered. -/
structure Prob where
  rows : Nat
  cols : Nat
  batches : Nat
  depth : Nat
  unit : Nat
  block : WorkCut → Bool
  cycles : WorkCut → Nat
  mode : Nat
  products : WorkCut → Nat
  skipped : WorkCut → Nat
  check : WorkCut → List (List Acc) → List PassOps
  start : WorkCut → List Acc
  extend : Nat → WorkCut → Nat → List Acc → List Acc × BitVec 16
  draws : WorkCut → Nat
  values : Nat → Nat → Nat → List Nat → List Acc → List (Working × BitVec 16)
  stats : Stats
  outIdx : Nat → Nat → Nat → Nat
  bad : WorkCut → Option ReadError
  emptyRow : Nat → Nat → Bool
  emptyWindow : Nat → Nat → Bool
  y : Desc

/-- The numbers of a half-open range. -/
def span (a b : Nat) : List Nat := (List.range (b - a)).map (a + ·)

/-- Cells of a cut: output rows and columns. -/
def cells (t : WorkCut) : List (Nat × Nat) := (span t.m0 t.m1).flatMap (fun m => (span t.n0 t.n1).map (fun n => (m, n)))

/-- Blocks of outputs that share an element. -/
def blocksMeet (m0 m1 n0 n1 p0 p1 q0 q1 : Nat) : Bool := overlap m0 (m1 - m0) p0 (p1 - p0) && overlap n0 (n1 - n0) q0 (q1 - q0)

/-- The accumulators kept for a cut's block. -/
def partialOf (j : Job) (t : WorkCut) : Option Partial :=
  j.partials.find? (fun p => p.batch == t.batch && p.m0 == t.m0 && p.m1 == t.m1 && p.n0 == t.n0 && p.n1 == t.n1 && p.k == t.k0)

/-- A cut fits the operator, its unit's accumulators and the bound of 32,768 cycles, and continues what has been committed (06 R132, R154, R155; 08
R189, R197). -/
def cutFits (pr : Prob) (j : Job) (t : WorkCut) : Bool :=
  decide (t.batch < pr.batches) && decide (t.m0 < t.m1) && decide (t.m1 ≤ pr.rows) && decide (t.n0 < t.n1)
    && decide (t.n1 ≤ pr.cols) && decide (t.k0 ≤ t.k1) && decide (t.k1 ≤ pr.depth)
    && (t.k0 % pr.unit == 0) && (t.k1 == pr.depth || t.k1 % pr.unit == 0) && (decide (t.k0 < t.k1) || pr.depth == 0)
    && pr.block t && decide (pr.cycles t ≤ 32768)
    && (cells t).all (fun x => !j.done.contains (pr.outIdx t.batch x.1 x.2))
    && (if t.k0 = 0 then j.partials.all (fun p => p.batch != t.batch || !blocksMeet p.m0 p.m1 p.n0 p.n1 t.m0 t.m1 t.n0 t.n1)
        else (partialOf j t).isSome)

/-- Two cuts share an output element. -/
def cutsMeet (a b : WorkCut) : Bool :=
  decide (a.work = b.work) && a.batch == b.batch && blocksMeet a.m0 a.m1 a.n0 a.n1 b.m0 b.m1 b.n0 b.n1

/- ### Writing Y -/

/-- An encoded or stored block of a `ZMASK` tensor (07 R165). -/
def zmaskBlock (d : Desc) (raw : List Byte) : List Byte × Bool :=
  let n := elemBytes d.format
  let enc := zmaskEncode n (zeroValue d.format d.zp) (elemsOf n raw) 65 ++ natLe 4 (crc32c raw).toNat
  let enc := enc ++ zeroBytes (roundUp enc.length 16 - enc.length)
  if roundUp raw.length 16 ≤ enc.length then (raw, true) else (enc, false)

/-- Elements of block `k` of an output tensor. -/
def blockElems (d : Desc) (k : Nat) : List Nat :=
  let n := elemBytes d.format
  (List.range (d.blockRaw k / n)).map (fun i => 4096 / n * k + i)

/-- A block whose elements have all committed (07 R174). -/
def blockDone (d : Desc) (done : List Nat) (k : Nat) : Bool := (blockElems d k).all done.contains

/-- Write the blocks of a `ZMASK` output that a commit completed: slot first, index entry last (07 R174). -/
def writeBlocks' (s : State) (d : Desc) (staged : Mem) (before after : List Nat) : State :=
  ((List.range d.blocks).filter (fun k => blockDone d after k && !blockDone d before k)).foldl (fun s k =>
    let b := zmaskBlock d (memReadN staged (4096 * k) (d.blockRaw k))
    let s := tierWrite s d.tier (d.off + d.payload + 4096 * k) b.1
    tierWrite s d.tier (d.off + d.index + 4 * k) (natLe 4 (4096 * k + b2n b.2))) s

/-- The first commit sets every index entry of a `ZMASK` output to `INVALID` (07 R174). -/
def invalidate (s : State) (d : Desc) : State :=
  if d.form = 1 then tierWrite s d.tier (d.off + d.index) (List.replicate (4 * d.blocks) 0xFF) else s

/-- Commit one output element. -/
def commitElem (d : Desc) (i : Nat) (bs : List Byte) (x : State × Job) : State × Job :=
  let s := if d.form = 0 then tierWrite x.1 d.tier (d.off + d.elemOff i) bs else x.1
  (s, { x.2 with done := x.2.done ++ [i], staged := memWriteN x.2.staged (elemBytes d.format * i) bs })

/-- The larger of two FP32 values (08 R194), by an ordering that takes +0 above −0. -/
def fpKey (x : U32) : Int := if bit x.toNat 31 then -(x.toNat % 2 ^ 31 : Nat) - 1 else x.toNat
def fpMax (a b : U32) : U32 := if isNan a || isNan b then canonicalNan else if fpKey a < fpKey b then b else a

/-- The largest of FP32 values; which zero it is where both signs occur is open. -/
def fpMaxOf (free : Nat) (m : U32) (l : List U32) : U32 :=
  let r := l.foldl fpMax m
  if r = 0 ∧ (m :: l).contains 0x80000000 = true ∧ Config.sumPick free 0 % 2 = 1 then 0x80000000 else r

/-- A working value as an exact floating-point number, and as FP32. -/
def workFp : Working → Fp
  | .int v e => .fin (decide (v < 0)) v.natAbs e
  | .fp x => fpOf x
def work32 (w : Working) : U32 := fpBits 24 (workFp w)

/-- The `NORM` record of a row of working values (06 R152); whether a square is rounded before it is added is open. -/
def normRecord (vs : List U32) (free : Nat) : List Byte :=
  let sq := fun (x : Fp) => if Config.sumPick (free + 2) 0 % 2 = 0 then fpMul x x else fpOf (fpBits 24 (fpMul x x))
  natLe 4 (sum32 free vs).toNat ++ natLe 4 (fpSum (free + 1) (vs.map (fun v => sq (fpOf v)))).toNat ++ natLe 4 vs.length ++ zeroBytes 4

/-- `SOFTMAX` takes the next group of 128 columns of a row: the running maximum and sum, and the exponentials (06 R152). -/
def softGroup (n : Nat) (r : RowState) (vs : List U32) : RowState × List U32 :=
  let m := fpMaxOf n r.max vs
  let ps := vs.map (fun v => fexp n (fsub v m))
  ({ r with max := m, sigma := fadd (fmul r.sigma (fexp n (fsub r.max m))) (sum32 (n + 1) ps) }, ps)

/-- The groups of 128 columns of a row, in order; `fuel` bounds them. -/
def softGroups (n : Nat) (r : RowState) (vs : List U32) : Nat → RowState × List U32
  | 0 => (r, [])
  | fuel + 1 =>
    if vs.isEmpty then (r, [])
    else
      let a := softGroup n r (vs.take 128)
      let b := softGroups (n + 2) a.1 (vs.drop 128) fuel
      (b.1, a.2 ++ b.2)

/-- The `SOFTMAX` record of a row (06 R152). -/
def softRecord (n : Nat) (r : RowState) : List Byte :=
  natLe 4 r.max.toNat ++ natLe 4 r.sigma.toNat ++ natLe 4 (fexp n (fsub r.start r.max)).toNat ++ zeroBytes 4

/-- The statistics of a row so far; `SOFTMAX` starts from T, where it is present. -/
def rowState (s : State) (j : Job) (pr : Prob) (b m : Nat) : RowState :=
  match j.rows.find? (fun r => r.batch == b && r.row == m) with
  | some r => r
  | none =>
    let at_ := 4 * (m + pr.rows * b)
    let t := match pr.stats with | .soft _ t => if t.present then some (t.fp s at_, t.fp s (at_ + 1)) else none | _ => none
    let m0 := (t.map (·.1)).getD 0xFF800000
    { batch := b, row := m, max := m0, sigma := (t.map (·.2)).getD 0, start := m0 }

def setRow (j : Job) (r : RowState) : Job :=
  { j with rows := j.rows.filter (fun x => !(x.batch == r.batch && x.row == r.row)) ++ [r] }

/-- Write one 16-byte record of a statistics output. -/
def writeRecord (s : State) (d : Desc) (i : Nat) (bs : List Byte) : State :=
  if d.present then (List.range 4).foldl (fun s w => tierWrite s d.tier (d.off + d.elemOff (i + w)) (bytesAt bs (4 * w) 4)) s else s

/-- The statistics stages on the columns of a row that a cut finished: the values that go on to `OUTQ`. -/
def statRow (pr : Prob) (b m : Nat) (vs : List Working) (x : State × Job) : (State × Job) × List Working :=
  let (s, j) := x
  let r := rowState s j pr b m
  match pr.stats with
  | .norm _ => ((s, setRow j { r with vals := r.vals ++ vs.map work32 }), vs)
  | .soft _ _ =>
    let q := softGroups s.freeCtr r (vs.map work32) vs.length
    (({ s with freeCtr := s.freeCtr + 2 * vs.length + 2 }, setRow j q.1), q.2.map Working.fp)
  | _ => (x, vs)

/-- Write the record of a row whose columns have all committed (06 R152, 09 R224), and count an empty one (09 R226). -/
def endRow (pr : Prob) (b m : Nat) (accs : List Acc) (x : State × Job) : State × Job :=
  let (s, j) := x
  if (List.range pr.cols).all (fun n => j.done.contains (pr.outIdx b m n)) then
    let r := rowState s j pr b m
    let i := 4 * (m + pr.rows * b)
    let j := { j with rows := j.rows.filter (fun x => !(x.batch == b && x.row == m)), emptyRows := j.emptyRows + b2n (pr.emptyRow b m) }
    let s4 := { s with freeCtr := s.freeCtr + 4 }
    match pr.stats with
    | .none => (s, j)
    | .norm d => (writeRecord s4 d i (normRecord r.vals s.freeCtr), j)
    | .soft d _ => (writeRecord s4 d i (softRecord s.freeCtr r), j)
    | .own d f => (writeRecord s4 d i (f b m accs s.freeCtr), j)
  else x

/-- Commit one output: its element, its flags and its counts. -/
def commitOutput (pr : Prob) (b m : Nat) (x : State × Job) (o : (Nat × Bool) × (Working × BitVec 16)) : State × Job :=
  let (s, j) := x
  let q := outq pr.y o.2.1
  let fl := o.2.2 ||| q.2
  let j := { j with outFlags := j.outFlags ||| fl, satCount := j.satCount + b2n (o.1.2 || countsSat fl),
                    emptyWindows := j.emptyWindows + b2n (pr.emptyWindow m o.1.1) }
  commitElem pr.y (pr.outIdx b m o.1.1) q.1 (s, j)

/-- The outputs of a row's columns from their finished accumulators: the gate pipeline, the statistics and the elements (06 Table 6.5). -/
def finishRow (pr : Prob) (t : WorkCut) (m : Nat) (accs : List Acc) (x : State × Job) : State × Job :=
  let ns := span t.n0 t.n1
  let ws := pr.values x.1.freeCtr t.batch m ns accs
  let q := statRow pr t.batch m (ws.map (·.1)) ({ x.1 with freeCtr := x.1.freeCtr + ns.length }, x.2)
  let outs := (ns.zip (accs.map (·.sat))).zip (q.2.zip (ws.map (·.2)))
  endRow pr t.batch m accs (outs.foldl (commitOutput pr t.batch m) q.1)

/-- Commit one row of a cut: its accumulators where K goes on, else its outputs. -/
def commitRow (pr : Prob) (t : WorkCut) (old : Option Partial) (x : (State × Job) × List (List Acc)) (m : Nat) :
    (State × Job) × List (List Acc) :=
  let (s, j) := x.1
  let q := pr.extend s.freeCtr t m ((old.bind (fun p => p.rows[m - t.m0]?)).getD (pr.start t))
  let s := { s with freeCtr := s.freeCtr + pr.draws t }
  let j := { j with outFlags := j.outFlags ||| q.2 }
  if t.k1 < pr.depth then ((s, j), x.2 ++ [q.1]) else (finishRow pr t m q.1 (s, j), x.2)

/-- The whole commit of a tile or edge command (06 R155). -/
def commitCut (s : State) (pr : Prob) (j : Job) (t : WorkCut) : State × Job :=
  let s := if j.tileCmds = 0 then invalidate s pr.y else s
  let old := partialOf j t
  let skips := ((pr.check t ((old.map (·.rows)).getD [])).filter PassOps.skipped).length
  let s := { s with work := { s.work with checkSkips := s.work.checkSkips + skips } }
  let q := (span t.m0 t.m1).foldl (commitRow pr t old) ((s, j), [])
  let x := if pr.y.form = 1 then (writeBlocks' q.1.1 pr.y q.1.2.staged j.done q.1.2.done, q.1.2) else q.1
  let kept := x.2.partials.filter (fun p => decide (some p ≠ old))
  let new := if t.k1 < pr.depth then
      [{ batch := t.batch, m0 := t.m0, m1 := t.m1, n0 := t.n0, n1 := t.n1, k := t.k1, rows := q.2 }] else []
  (x.1, { x.2 with tileCmds := x.2.tileCmds + 1, skipped := x.2.skipped + pr.skipped t, partials := kept ++ new,
                   outFlags := x.2.outFlags ||| flagIf (0 < skips) flagCheckSkipped })

/-- Why an operand of a cut cannot be delivered, if it cannot (06 R447, 07 R173). -/
def cutBad (pr : Prob) (t : WorkCut) : Option ReadError := pr.bad t

/-- The comparisons of a cut fail, with an error of the hardware (06 R144, R145; 14 R339). -/
def cutFails (pr : Prob) (j : Job) (t : WorkCut) (upset : Option Upset) : Bool :=
  match upset with
  | none => false
  | some u => match (pr.check t (((partialOf j t).map (·.rows)).getD []))[u.pass]? with
    | some p => p.fails u.delta
    | none => false

/- ### Counters of a commit (17 Table 17.1, R386) -/

/-- Add to a bin's values. -/
def addBin (b : Bin) (vs : List Nat) : Bin :=
  { b with commands := b.commands + 1, values := b.values.zipWith (fun x v => x + BitVec.ofNat 64 v) vs }

def emptyBin (l o : U16) : Bin := { layerId := l, opId := o, commands := 0, values := List.replicate 7 0 }

/-- A commit's counts go to the bin of its command's pair, or to the overflow bin (17 R386). -/
def binCommit (s : State) (c : Cmd) (vs : List Nat) : State :=
  let o := s.obs
  let same := fun (b : Bin) => b.layerId == c.pkt.layerId && b.opId == c.pkt.opId
  if c.fn = .pf1 || s.fuse.dbgOff then s
  else if o.bins.any same then { s with obs := { o with bins := o.bins.map (fun b => if same b then addBin b vs else b) } }
  else if o.bins.length < 1024 then
    { s with obs := { o with bins := o.bins ++ [addBin (emptyBin c.pkt.layerId c.pkt.opId) vs] } }
  else { s with obs := { o with overflow := some (addBin (o.overflow.getD (emptyBin 0xFFFF 0xFFFF)) vs) } }

/-- Count a committed tile or edge command. Cycle and byte counts are free values (notes/assumptions/1.md). -/
def countCommit (s : State) (c : Option Cmd) (edge : Bool) (unit products skipped : Nat) : State :=
  let f := fun i => Config.freeNat (s.freeCtr + i)
  let s := { s with freeCtr := s.freeCtr + 7 }
  let s := if edge then countUp s 0x0006 unit 1
    else countUp (countUp (countUp s 0x0002 unit 1) 0x0003 unit (f 0)) 0x0004 unit products
  match c with
  | none => s
  | some c =>
    let s := binCommit s c [f 1, f 2, f 3, f 4, f 5, f 6, skipped]
    let u := if edge then 0x48 + unit else unit
    traceUnit s c u 0x05 (u + 65536 * (f 1 % 65536))

/- ### Admission (11 R259, 15 R362 to R364) -/

/-- Commands whose work a cut is. -/
def workCmds (s : State) : WorkRef → List Nat
  | .cmd id => [id]
  | .step fn m => match stepOf s fn m with | some t => t.members.map (·.cmd) | none => []

/-- Class of a piece of work: its ring's, or its step's (11 R258, R259). -/
def workClass (s : State) : WorkRef → Nat
  | .cmd id => match cmdOf s id with | some c => c.cls | none => 4
  | .step fn m => match stepOf s fn m with | some t => t.cls | none => 4

/-- Tenant of a piece of work. -/
def workFn (s : State) : WorkRef → Fn
  | .cmd id => match cmdOf s id with | some c => c.fn | none => .pf0
  | .step fn _ => fn

/-- Effective package limit in mW (15 R361, R364). -/
def effLimit (s : State) : Nat := if s.power.cap then min s.power.limit 8000 else s.power.limit

/-- Both tenants are active (13 R308). -/
def bothActive (s : State) : Bool := decide (s.regs.partition ≠ 0) && decide (s.sess1.number ≠ 0)

/-- The tenant that a slot of a shared link belongs to (13 R308): slot 0 is the device's; while one tenant alone is active the others are all its own. When a
transfer is under way in its slot is timing, which the model leaves out (notes/assumptions/30.md). -/
def slotOwner (s : State) (slot : Nat) : Option Fn :=
  let t1 := bits s.regs.partition.toNat 15 12
  if slot % 16 = 0 then none
  else if bothActive s then some (if slot % 16 * t1 / 15 ≠ (slot % 16 - 1) * t1 / 15 then .pf1 else .pf0)
  else some (if s.sess0.number = 0 ∧ s.sess1.number ≠ 0 then .pf1 else .pf0)

/-- The limit that a tenant's commands are admitted against: its share of what the baseline leaves, while both tenants are active (13 R309, 15 R363). -/
def limitOf (s : State) (fn : Fn) (baseline : Nat) : Nat :=
  if bothActive s then (effLimit s - baseline) * (coppicesOf s fn).length / max 1 (unitsOf s.fuse.part) else effLimit s

/-- The power limit lets a command in: the window's measured energy and the estimate stay within both bounds, or the coppice
is owed its one command in 3,072 tk (15 R362, R364); `est` is the command's estimate. Energies in µJ. -/
def powerAdmits (s : State) (t : WorkCut) (est : Nat) (measured : Energies) : Bool :=
  let lim := limitOf s (workFn s t.work) measured.baseline
  (decide ((measured.window + est) * 100 ≤ lim * 10 * 102) && decide ((measured.recent + est) * 100 ≤ lim * 125))
    || (match s.power.lastAdmit.find? (fun e => e.1 == t.coppice) with
        | some e => decide (e.2 + 3072 ≤ s.stb)
        | none => true)

/-- The limit defers an admission in the current 30,720-tk window, which POWER_STATS shows in the next (15 R362, Table 15.9). -/
def deferCut (s : State) : State :=
  let w := s.stb / 30720
  { s with power := { s.power with deferrals := w :: (s.power.deferrals.filter (fun x => x != w)).take 1 } }

/-- No step of a higher class is in flight on the coppice (11 R259, R260): until it commits it has tile commands to admit
(notes/assumptions/38.md). -/
def classTurn (s : State) (t : WorkCut) : Bool :=
  s.work.steps.all (fun x => decide (WorkRef.step x.fn x.model = t.work) || !x.coppices.toNat.testBit t.coppice
    || decide (workClass s t.work ≤ x.cls))

/-- The unit a cut runs on is free and ON. -/
def unitReady (s : State) (t : WorkCut) (edge : Bool) : Bool :=
  let d := if edge then domEdge t.coppice else domTile (physTile s t.coppice t.tile)
  usable s (domCop t.coppice) && domOn s (domCop t.coppice) && usable s d && domOn s d
    && s.work.admitted.all (fun a => !(a.cut.coppice == t.coppice && a.edge == edge && (edge || a.cut.tile == t.tile)))

/-- The work names the coppice and the tile of a cut. -/
def workNames (s : State) (t : WorkCut) (edge : Bool) : Bool :=
  match t.work with
  | .cmd id => match cmdOf s id with
    | some c => (cmdCoppices c).contains t.coppice && (edge || (maskedTiles s t.coppice (blk c 5 1)).contains t.tile)
    | none => false
  | .step fn m => match stepOf s fn m with
    | some x => x.coppices.toNat.testBit t.coppice && decide (t.tile < activeTiles s t.coppice)
    | none => false

/-- A cut without the unit it runs on. -/
def anywhere (t : WorkCut) : WorkCut := { t with coppice := 0, tile := 0 }

/-- Put a cut on its unit; one whose comparisons failed before stays a re-run, on whatever tile (06 R146). A suspended step resumes when
admission reaches it again (11 R261). -/
def admitCut (s : State) (t : WorkCut) (edge : Bool) : State :=
  { s with
    work := { s.work with admitted := s.work.admitted ++ [{ cut := t, edge := edge, retried := s.work.retried.contains (anywhere t) }],
                          steps := s.work.steps.map (fun x => if WorkRef.step x.fn x.model = t.work then { x with suspended := false } else x) }
    power := { s.power with lastAdmit := (t.coppice, s.stb) :: s.power.lastAdmit.filter (fun e => e.1 != t.coppice) } }

/-- Take an admitted cut off its unit. -/
def removeCut (s : State) (t : WorkCut) : State :=
  { s with work := { s.work with admitted := s.work.admitted.filter (fun a => decide (a.cut ≠ t)) } }

/-- A command with an undeliverable operand ends once none of its cuts runs (06 R447). -/
def endPoisoned (s : State) (id : Nat) : State :=
  match cmdOf s id, jobOf s id with
  | some c, some j =>
    if j.poisoned && s.work.admitted.all (fun a => decide (a.cut.work ≠ .cmd id)) then endCmd s c .poison else s
  | _, _ => s

end Sys2Proof.Machine
end

