-- ==== Sys2Proof/Machine/Tiles.lean ====
section
/-! DEFINITION. Matrix products on the tiles: the modes, the conditions of `MATMUL`, what its outputs are (06 R131 to R159),
and what `CONV2D` shares with it. -/

namespace Sys2Proof.Machine

/-- Arithmetic modes (06 Table 6.2). -/
inductive Mode where
  | int8 | code4 | code2 | int16 | bf16
deriving DecidableEq, Repr

/-- The mode of a format pair (06 R131). -/
def modeOf (a w : Nat) : Option Mode :=
  if a = 0x01 ∨ a = 0x02 then
    (if w = 0x01 ∨ w = 0x02 then some .int8 else if w = 0x08 then some .code4 else if w = 0x09 then some .code2 else none)
  else if a = 0x03 then (if w = 0x01 ∨ w = 0x02 then some .int16 else none)
  else if a = 0x04 ∧ w = 0x04 then some .bf16
  else none

/-- K per pass, columns per pass and products per cycle (06 Table 6.3). -/
def Mode.kPass : Mode → Nat
  | .int8 => 64 | .code4 => 64 | .code2 => 64 | .int16 => 32 | .bf16 => 16
def Mode.cols : Mode → Nat
  | .int8 => 128 | .code4 => 256 | .code2 => 512 | .int16 => 128 | .bf16 => 128
def Mode.products : Mode → Nat
  | .int8 => 8192 | .code4 => 16384 | .code2 => 32768 | .int16 => 4096 | .bf16 => 2048
def Mode.sweep : Mode → Nat
  | .int8 => 256 | .code4 => 128 | .code2 => 64 | .int16 => 256 | .bf16 => 256
/-- Cycles in which a weight block loads (06 R132); a shorter sweep waits for it. -/
def Mode.load : Mode → Nat
  | .bf16 => 16
  | _ => 32
/-- The mode's number in the energy estimate (15 R362). -/
def Mode.code : Mode → Nat
  | .int8 => 0 | .code4 => 1 | .code2 => 2 | .int16 => 3 | .bf16 => 4
def Mode.isCode : Mode → Bool
  | .code4 | .code2 => true
  | _ => false
def Mode.isFp : Mode → Bool
  | .bf16 => true
  | _ => false

/-- A signed parameter byte lies in the exponent range. -/
def expOk (v : Int) : Bool := decide (-32 ≤ v) && decide (v ≤ 31)

/-- The gate pipeline of a `MATMUL` or `CONV2D` block; `nlAt` is the place of `NL_TABLE`. The table of a built-in function is
the device's own (06 R151, notes/assumptions/9.md). -/
def gatesOf (s : State) (c : Cmd) (nlAt : Nat) : Gates :=
  let f := blk c 7 1
  let ewk := blkS c 8 1
  let enl := blkS c 9 1
  let table := match builtinShape f with
    | some (lg, dp, lo, hi) => { log := lg, dOrP := dp, low := lo, high := hi, segs := builtSegs (Config.nlTable f ewk enl) }
    | none => nlTableOf (tierRead s (tierOf (blk c nlAt 8)) (offOf (blk c nlAt 8)) 528)
  { stages := blk c 6 1, nlFunc := f, eWk := ewk, eNl := enl, eGate := blkS c 10 1, table := table,
    b := descAt c.pkt.block 256, g := descAt c.pkt.block 320, r := descAt c.pkt.block 384, y := descAt c.pkt.block 192 }

/-- Stage, function and exponent fields that the packet alone decides (06 R150, R151, R159). -/
def stagesOk (c : Cmd) (nlAt : Nat) : Bool :=
  let st := blk c 6 1
  let f := blk c 7 1
  expOk (blkS c 8 1) && expOk (blkS c 9 1) && expOk (blkS c 10 1)
  && (decide (f ≤ 7) || decide (f = 15)) && (bit st 1 == decide (f ≠ 0)) && (decide (f = 15) || decide (blk c nlAt 8 = 0))
  && (match builtinShape f with
      | some (false, d, _, _) => decide (5 ≤ d - blkS c 8 1) && decide (d - blkS c 8 1 ≤ 28)
      | _ => true)
  && !(bit st 4 && bit st 5)

/-- The host table of `NL_FUNC` 15 is readable and valid (06 R150, R159). -/
def hostTableOk (s : State) (c : Cmd) (nlAt : Nat) : Bool :=
  decide (blk c 7 1 ≠ 15) ||
    (let v := blk c nlAt 8
     (tierOf v == 1 || tierOf v == 2) && ownsRange s c.fn (tierOf v) (offOf v) 528
       && nlTableOk (tierRead s (tierOf v) (offOf v) 528) (blkS c 8 1))

/-- Formats of the bias, streams and output for a mode (06 Table 6.1, R148, R149). -/
def biasFormat (m : Mode) : Nat := if m.isFp then 0x05 else 0x03
def streamOk (m : Mode) (f : Nat) : Bool := if m.isFp then f == 0x04 else isInt f
def outFormat (f : Nat) : Bool := isInt f || f == 0x04 || f == 0x05

/-- An operand is present exactly while its stage is enabled, and then valid and of the shape given. -/
def stageOperand (on : Bool) (d : Desc) (output : Bool) (fmt : Nat → Bool) (dims : List Nat) : Bool :=
  if on then d.present && d.ok output && fmt d.format
      && (List.range 5).all (fun i => d.dim1 i == dims.getD i 1)
  else !d.present

/-- Dims of a descriptor with ones beyond the rank. -/
def Desc.dims1 (d : Desc) : List Nat := (List.range 5).map d.dim1

/-- The operands of `MATMUL` agree (06 Table 6.12, R159). -/
def matmulOperands (c : Cmd) : Bool :=
  let b := c.pkt.block
  let a := descAt b 64
  let w := descAt b 128
  let y := descAt b 192
  let st := blk c 6 1
  let n := w.dim 0
  let rowDims := [4, a.dim 1, a.dim1 2, a.dim1 3, a.dim1 4]
  match modeOf a.format w.format with
  | none => false
  | some m =>
    a.present && w.present && y.present && a.ok false && w.ok false && y.ok true && outFormat y.format && decide (y.form ≤ 1)
    && decide (2 ≤ a.rank) && decide (2 ≤ w.rank) && decide (2 ≤ y.rank)
    && a.dim 0 == w.dim 1 && y.dims1 == [n, a.dim 1, a.dim1 2, a.dim1 3, a.dim1 4]
    && [2, 3, 4].all (fun i => w.dim1 i == 1 || w.dim1 i == a.dim1 i)
    && stageOperand (bit st 0) (descAt b 256) false (· == biasFormat m) [n]
    && (!bit st 0 || (descAt b 256).rank == 1)
    && stageOperand (bit st 2) (descAt b 320) false (streamOk m) y.dims1
    && stageOperand (bit st 3) (descAt b 384) false (streamOk m) y.dims1
    && stageOperand (bit st 4 || bit st 5) (descAt b 448) true (· == 0x05) rowDims
    && ((descAt b 448).form == 0 || !(descAt b 448).present)
    && (!(descAt b 512).present || (stageOperand (bit st 5) (descAt b 512) false (· == 0x05) rowDims && (descAt b 512).form == 0))

/-- Static conditions of `MATMUL` (06 R159). -/
def paramsMatmul (s : State) (c : Cmd) : Bool :=
  decide (blk c 0 2 = 0x0001) && decide (blk c 2 2 = 1) && masksOk s c true && decide (blk c 6 1 < 64) && stagesOk c 16
    && blkZero c 11 15 && blkZero c 24 63 && matmulOperands c

/-- The present descriptors of a block lie in the tenant's allocations, and its `ENTROPY` operands have valid headers (06
R159, 07 R168). -/
def operandsPlaced (s : State) (c : Cmd) : Bool :=
  (descPlaces c.op c.pkt.block).all (fun o =>
    let d := descAt c.pkt.block o
    !d.present || (d.placed s c.fn && (d.form != 2 || d.headerOk s)))

/-- Slices of a K range, one per pass. -/
def slices (pass k0 : Nat) : Nat → List (Nat × Nat)
  | 0 => []
  | k + 1 => (k0 + pass * k, k0 + pass * (k + 1)) :: slices pass k0 k

def passSlices (pass k0 k1 : Nat) : List (Nat × Nat) :=
  (slices pass k0 (ceilDiv (k1 - k0) pass)).reverse.map (fun x => (x.1, min x.2 k1))

/-- The block of a cut fits one accumulator bank and one weight block's columns (06 R132, Table 6.3). -/
def Mode.holds (m : Mode) (t : WorkCut) : Bool :=
  decide (t.m1 - t.m0 ≤ m.sweep) && decide (t.n1 - t.n0 ≤ m.cols) && (!m.isCode || t.n0 / m.cols == (t.n1 - 1) / m.cols)

/-- Cycles of a tile command of `passes` sweeps: the first load and table, the sweeps, the drain, the pipeline and the commit (06 R139,
R154). -/
def Mode.cycles (m : Mode) (t : WorkCut) (passes : Nat) : Nat :=
  40 + passes * max (t.m1 - t.m0) m.load + ceilDiv ((t.m1 - t.m0) * (t.n1 - t.n0)) 128 + 24 + 8

/-- Batch index of W for a batch of A: 0 along the dims where W has 1 (06 R159). -/
def weightBatch (a w : Desc) (b : Nat) : Nat :=
  let dims := [a.dim1 2, a.dim1 3, a.dim1 4]
  let wd := [w.dim1 2, w.dim1 3, w.dim1 4]
  ravel wd ((unravel dims b).zipWith (fun i n => if n = 1 then 0 else i) wd)

/-- One weight with its block shift, for row `k` and column `n` of product `b` of `kTotal` rows. -/
def weightAt (s : State) (w : Desc) (kTotal b k n : Nat) : Int × Nat :=
  if isCode w.format then w.code s kTotal b k n
  else (w.int s (n + w.dim 0 * (k + kTotal * b)) - w.zp, 0)

def weightBad (s : State) (w : Desc) (kTotal b k n : Nat) : Option ReadError :=
  if isCode w.format then w.badCode s kTotal b k n else w.badElem s (n + w.dim 0 * (k + kTotal * b))

/-- Why the operands of the gate stages of an output cannot be delivered. -/
def gateBad (s : State) (p : Gates) (n i : Nat) : Option ReadError :=
  [if p.on 0 then p.b.badElem s n else none, if p.on 2 then p.g.badElem s i else none,
   if p.on 3 then p.r.badElem s i else none].findSome? id

/-- Exact sums as mantissa and exponent. -/
def Fp.pair : Fp → Option (Int × Int)
  | .fin s m e => some (if s then -(m : Int) else m, e)
  | _ => none
def pairFp (x : Int × Int) : Fp := .fin (decide (x.1 < 0)) x.1.natAbs x.2

/-- A BF16 accumulator takes the products of a K range: rounded additions in an open order, held to the bound for all `k` products so
far (06 R135, R141, R158). The flag says that it overflowed. -/
def fpExtend (n k : Nat) (a : Acc) (terms : List (U32 × U32)) : Acc × Bool :=
  let ps := terms.map (fun t => fpOf (fmul t.1 t.2))
  let ex := terms.map (fun t => fpMul (fpOf t.1) (fpOf t.2))
  let old := fpOf (BitVec.ofInt 32 a.val)
  let q := fpSumGo n (ps.length + 1) (if k = 0 ∧ Config.sumPick n (2 * ps.length + 2) % 2 = 0 then ps else old :: ps)
  let exact : Fp := match a.exact with | some x => ex.foldl fpAdd (pairFp x) | none => .nan
  let mag := (ex.map Fp.abs).foldl fpAdd (pairFp a.mag)
  ({ val := (heldSum (clog2 (k + terms.length) + 2) q.1 exact mag).toNat, exact := exact.pair, mag := mag.pair.getD (0, 0) },
    q.2 || (ex.zip ps).any (fun x => x.1.finite && !x.2.finite))

/-- An integer accumulator takes pass sums (06 R141). -/
def intExtend (a : Acc) (sums : List Int) : Acc :=
  let r := accumulate a.val sums
  { a with val := r.1, sat := a.sat || r.2 }

/-- One operand pair of a K range: the activation and the weight of each row. -/
def passInt (xs : List Int) (ws : List (Int × Nat)) : Int :=
  (xs.zipWith (fun x w => x * w.1) ws).sum * 2 ^ (ws.headD (0, 0)).2

/-- Rows of a pass as the array holds them: a pair for each INT16 activation, of the low and the high part (06 R134, R144). -/
def passRows (m : Mode) (xs : List Int) (ws : List (List Int)) (shift : Nat) : PassOps :=
  if m = .int16 then
    .int (xs.flatMap (fun x => [x % 256, x / 256])) (ws.flatMap (fun r => [r, r.map (256 * ·)])) shift
  else .int xs ws shift

/-- Columns that a pass works on: in the code modes all of the stored block, padding codes included (06 R138, R144). -/
def passCols (m : Mode) (t : WorkCut) : List Nat :=
  if m.isCode then span (t.n0 / m.cols * m.cols) ((t.n0 / m.cols + 1) * m.cols) else span t.n0 t.n1

/-- The lines of T that a cut reads: the first finished columns of each row do (06 R152, R447). -/
def statBad (s : State) (t : Desc) (rows : Nat) (c : WorkCut) : Option ReadError :=
  if t.present then
    (span c.m0 c.m1).findSome? (fun m => [0, 1].findSome? (fun w => t.badElem s (4 * (m + rows * c.batch) + w)))
  else none

/-- Why a host table of the `NL` stage cannot be delivered (06 R447). -/
def tableBad (s : State) (c : Cmd) (nlAt : Nat) : Option ReadError :=
  if blk c 7 1 = 15 ∧ (firstPoison s (tierOf (blk c nlAt 8)) (offOf (blk c nlAt 8)) 528).isSome then some .poison else none

/-- What a `MATMUL` computes. -/
def matmulProb (s : State) (c : Cmd) : Prob :=
  let bl := c.pkt.block
  let a := descAt bl 64
  let w := descAt bl 128
  let y := descAt bl 192
  let g := gatesOf s c 16
  let kT := a.dim 0
  let mT := a.dim 1
  let nT := w.dim 0
  let m := (modeOf a.format w.format).getD .int8
  let aIdx := fun b i k => k + kT * (i + mT * b)
  let out := fun b i n => n + nT * (i + mT * b)
  let wFp := fun b k n => w.fp s (n + nT * (k + kT * weightBatch a w b))
  let wInt := fun b k n => weightAt s w kT (weightBatch a w b) k n
  let aInt := fun b i k => a.int s (aIdx b i k) - a.zp
  let passes := fun (t : WorkCut) => ceilDiv (t.k1 - t.k0) m.kPass
  { rows := mT, cols := nT, batches := a.dim1 2 * a.dim1 3 * a.dim1 4, depth := kT, unit := m.kPass,
    block := m.holds
    cycles := fun t => m.cycles t (passes t)
    mode := m.code
    products := fun t => (t.m1 - t.m0) * passes t * ceilDiv (t.n1 - t.n0) m.cols * m.products
    skipped := fun _ => 0
    check := fun t _ => (span t.m0 t.m1).flatMap (fun i => (passSlices m.kPass t.k0 t.k1).map (fun sl =>
      let ks := span sl.1 sl.2
      if m.isFp then .fp (ks.map (fun k => a.fp s (aIdx t.batch i k))) (ks.map (fun k => (passCols m t).map (wFp t.batch k)))
      else passRows m (ks.map (aInt t.batch i)) (ks.map (fun k => (passCols m t).map (fun n => (wInt t.batch k n).1)))
        (wInt t.batch sl.1 t.n0).2))
    start := fun t => List.replicate (t.n1 - t.n0) { val := 0 }
    extend := fun free t i accs =>
      let r := ((span t.n0 t.n1).zip accs).map (fun x =>
        if m.isFp then
          fpExtend (free + (x.1 - t.n0)) t.k0 x.2 ((span t.k0 t.k1).map (fun k => (a.fp s (aIdx t.batch i k), wFp t.batch k x.1)))
        else
          let q := intExtend x.2 ((passSlices m.kPass t.k0 t.k1).map (fun sl =>
            let ks := span sl.1 sl.2
            passInt (ks.map (aInt t.batch i)) (ks.map (fun k => wInt t.batch k x.1))))
          (q, q.sat && !x.2.sat))
      (r.map (·.1), flagIf (r.any (·.2)) (if m.isFp then flagInf else flagAccSat))
    draws := fun t => t.n1 - t.n0
    values := fun _ b i ns accs => (ns.zip accs).map (fun x => pipeline s g m.isFp x.2.val (a.e + w.e) x.1 (out b i x.1))
    stats := if g.on 5 then .soft (descAt bl 448) (descAt bl 512) else if g.on 4 then .norm (descAt bl 448) else .none
    outIdx := out
    bad := fun t => ((cells t).flatMap (fun x =>
        (span t.k0 t.k1).flatMap (fun k => [a.badElem s (aIdx t.batch x.1 k), weightBad s w kT (weightBatch a w t.batch) k x.2])
          ++ (if t.k1 = kT then [gateBad s g x.2 (out t.batch x.1 x.2)] else []))
        ++ (if t.k1 = kT then [statBad s (descAt bl 512) mT t, tableBad s c 16] else [])).findSome? id
    emptyRow := fun _ _ => false
    emptyWindow := fun _ _ => false
    y := y }

/-- Result of `MATMUL` (06 Table 6.13). -/
def matmulResult (j : Job) : List Byte :=
  natLe 4 j.tileCmds ++ natLe 4 j.satCount ++ natLe 2 j.outFlags.toNat ++ natLe 2 j.retries

/-- `MATMUL` starts: its remaining conditions, then its tile commands wait for admission (06 R159). -/
def runMatmul (c : Cmd) (s : State) : State :=
  let a := descAt c.pkt.block 64
  let pr := matmulProb s c
  if !operandsPlaced s c || !hostTableOk s c 16 then complete s c .badParam
  else if pr.rows * pr.cols * pr.batches = 0 then complete s c .dimEmpty
  else if !someUnit s (cmdCoppices c) (blk c 5 1) false then complete s c .cancelled
  else startJob s { c with aux := a.format, res := zeroBytes 12 } { id := c.id, total := pr.rows * pr.cols * pr.batches }

end Sys2Proof.Machine
end

