-- ==== Sys2Proof/Machine/Conv.lean ====
section
/-! DEFINITION. Convolution on tiles and edge engines, pooling, and camera frames as input (08 R181 to R201). -/

namespace Sys2Proof.Machine

/- ### Geometry (08 R182 to R188) -/

/-- The geometry of a convolution or pooling. -/
structure Geo where
  kh : Nat
  kw : Nat
  sh : Nat
  sw : Nat
  dh : Nat
  dw : Nat
  pt : Nat
  pb : Nat
  pl : Nat
  pr : Nat
  h : Nat
  w : Nat
  cin : Nat
  cout : Nat
  groups : Nat
  batch : Nat
deriving DecidableEq, Repr

/-- Output size on one axis (08 R185); the division rounds toward −∞. -/
def outSize (n p q d k st : Nat) : Int := ((n : Int) + p + q - d * ((k : Int) - 1) - 1) / st + 1

def Geo.ho (g : Geo) : Int := outSize g.h g.pt g.pb g.dh g.kh g.sh
def Geo.wo (g : Geo) : Int := outSize g.w g.pl g.pr g.dw g.kw g.sw
def Geo.rowsOut (g : Geo) : Nat := g.ho.toNat
def Geo.colsOut (g : Geo) : Nat := g.wo.toNat
def Geo.cg (g : Geo) : Nat := g.cin / max 1 g.groups

/-- The limits of 08 Table 8.3, with `C`out 0 and an empty batch left to R185 (notes/assumptions/32.md). -/
def Geo.ok (g : Geo) : Bool :=
  [g.kh, g.kw, g.sh, g.sw, g.dh, g.dw].all (fun n => decide (1 ≤ n) && decide (n ≤ 31))
  && [g.h, g.w].all (fun n => decide (1 ≤ n) && decide (n ≤ 16384))
  && decide (1 ≤ g.cin) && decide (g.cin ≤ 65535) && decide (g.cout ≤ 65535)
  && decide (1 ≤ g.groups) && (g.cin % g.groups == 0) && (g.cout % g.groups == 0)

/-- No output element exists (08 R185). -/
def Geo.empty (g : Geo) : Bool := decide (g.ho ≤ 0) || decide (g.wo ≤ 0) || decide (g.batch = 0) || decide (g.cout = 0)

/-- Input row and column of a tap of the output position `m` of a batch image; nothing in padding. -/
def Geo.at (g : Geo) (m kh kw : Nat) : Option (Nat × Nat) :=
  let y : Int := (m / g.colsOut : Nat) * g.sh - g.pt + kh * g.dh
  let x : Int := (m % g.colsOut : Nat) * g.sw - g.pl + kw * g.dw
  if 0 ≤ y ∧ y < g.h ∧ 0 ≤ x ∧ x < g.w then some (y.toNat, x.toNat) else none

/-- The taps in the order of 08 R182. -/
def Geo.taps (g : Geo) : List (Nat × Nat) :=
  (List.range g.kh).flatMap (fun kh => (List.range g.kw).map (fun kw => (kh, kw)))

/-- The in-image taps of an output position: the tap and its input position. -/
def Geo.reads (g : Geo) (m : Nat) : List ((Nat × Nat) × (Nat × Nat)) :=
  g.taps.filterMap (fun t => (g.at m t.1 t.2).map (fun p => (t, p)))

/-- A tap reads only padding for every position of a cut (08 R188). -/
def Geo.padded (g : Geo) (t : WorkCut) (k : Nat × Nat) : Bool := (span t.m0 t.m1).all (fun m => (g.at m k.1 k.2).isNone)

/-- Passes of a cut that run, where each tap takes `per` of them in the order of 08 R182: the tap and the place in it. -/
def Geo.passesOf (g : Geo) (per : Nat) (t : WorkCut) : List ((Nat × Nat) × Nat) :=
  ((span t.k0 t.k1).map (fun u => (g.taps.getD (u / per) (0, 0), u % per))).filter (fun x => !g.padded t x.1)

/-- Taps that begin in a cut and are skipped (08 R188, 17 Table 17.1). -/
def Geo.skips (g : Geo) (per : Nat) (t : WorkCut) : Nat :=
  ((span t.k0 t.k1).filter (fun u => u % per == 0 && g.padded t (g.taps.getD (u / per) (0, 0)))).length

/-- The geometry fields of a `CONV2D` or `POOL2D` block, whose bytes 12 to 21 are common. -/
def geoOf (c : Cmd) (h w cin cout groups batch : Nat) : Geo :=
  { kh := blk c 12 1, kw := blk c 13 1, sh := blk c 14 1, sw := blk c 15 1, dh := blk c 16 1, dw := blk c 17 1,
    pt := blk c 18 1, pb := blk c 19 1, pl := blk c 20 1, pr := blk c 21 1, h := h, w := w, cin := cin, cout := cout,
    groups := groups, batch := batch }

/- ### Stripes (08 R190 to R192) -/

/-- Ways of a coppice buffer that hold no tenant object; pinned copies count as tenant objects (11 R273). -/
def freeWays (s : State) (cop : Nat) : Nat :=
  16 - ((s.store.allocs.filter (fun a => a.tier == 1 && (decide (a.obj ≤ 4) || a.obj == 21) && a.base / copSize == cop)).map
    (fun a => ceilDiv a.size waySize)).sum

/-- The fewest free ways over the coppices of a command (notes/assumptions/33.md). -/
def fewestWays (s : State) (cops : List Nat) : Nat := ((cops.map (freeWays s)).min?).getD 0

/-- Ways of a coppice that a step's working copies take (11 R261). -/
def stepWays (s : State) (t : Step) : Nat := match modelOf s t.fn t.model with | some m => Config.workWays m.image | none => 0

/-- Two ways can be freed on every coppice of a command: what holds the others is no tenant object, and no copy of a step in flight, which is
never evicted (08 R191, 11 R272). -/
def waysAvailable (s : State) (cops : List Nat) : Bool :=
  cops.all (fun c => decide (2 + ((s.work.steps.filter (fun x => x.coppices.toNat.testBit c)).map (stepWays s)).sum ≤ freeWays s c))

/-- Input rows of `n` output rows. -/
def Geo.rowsFor (g : Geo) (n : Nat) : Nat := (n - 1) * g.sh + g.dh * (g.kh - 1) + 1

/-- The largest `STRIPE` that fits a budget (08 R191), and `STRIPE_ROWS` below it. -/
def Geo.stripe (g : Geo) (elem budget want : Nat) : Nat :=
  let rows := budget / max 1 (g.w * g.cin * elem)
  let n := if rows < g.rowsFor 1 then 0 else min g.rowsOut ((rows - g.rowsFor 1) / max 1 g.sh + 1)
  if 0 < want ∧ want < n then want else n

/-- Width of a column tile when one output row does not fit (08 R192). -/
def Geo.colTile (g : Geo) (elem budget : Nat) : Nat :=
  let cols := budget / max 1 (g.rowsFor 1 * g.cin * elem)
  let need := g.dw * (g.kw - 1) + 1
  if cols < need then 1 else max 1 ((cols - need) / max 1 g.sw + 1)

/-- The stripe, and the column tile with it, that an output position lies in. -/
def Geo.stripeOf (g : Geo) (elem budget want m : Nat) : Nat :=
  let n := g.stripe elem budget want
  if n = 0 then m / g.colsOut * g.colsOut + m % g.colsOut / g.colTile elem budget else m / g.colsOut / n

/-- Input rows that output rows `[r0, r1)` read (08 R187). -/
def Geo.rowsRead (g : Geo) (r0 r1 : Nat) : List Nat :=
  (List.range g.h).filter (fun y => (List.range g.kh).any (fun k =>
    let t : Int := (y : Int) + g.pt - k * g.dh
    decide (0 ≤ t) && t % g.sh == 0 && decide ((r0 : Int) ≤ t / g.sh) && decide (t / g.sh < (r1 : Int))))

/-- Stripes that committed work has run, as image and number, where `done` lists dense output elements. -/
def Geo.stripesRun (g : Geo) (rows : Nat) (done : List Nat) : List (Nat × Nat) :=
  (done.map (fun i =>
    let p := i / max 1 g.cout
    (p / max 1 (g.colsOut * g.rowsOut), p % max 1 (g.colsOut * g.rowsOut) / max 1 g.colsOut / rows))).eraseDups

/-- Stripes run and input rows fetched more than once, for what has committed (08 Table 8.6, 05 R117). -/
def Geo.stripeCounts (g : Geo) (elem budget want : Nat) (done : List Nat) : Nat × Nat :=
  let n := max 1 (g.stripe elem budget want)
  let run := g.stripesRun n done
  let rows := fun (x : Nat × Nat) => (g.rowsRead (x.2 * n) (min ((x.2 + 1) * n) g.rowsOut)).map (fun y => (x.1, y))
  let fetched := run.flatMap rows
  (run.length, min 65535 (fetched.length - fetched.eraseDups.length))

/- ### Sources (08 R182, R200) -/

/-- The camera of a port. -/
def camOf (s : State) (port : Nat) : Cam := if port = 0 then s.cam0 else s.cam1

/-- `FRAME_PORT` names a port with an ISP on this part (08 R201). -/
def framePortPresent (s : State) (c : Cmd) : Bool := blk c 34 1 != 1 || portPresent s.fuse.part (blk c 35 1)

/-- The stored frame a command names; 0xFFFF_FFFF is the newest. -/
def frameNamed (s : State) (c : Cmd) : Option CamFrame :=
  let l := (camOf s (blk c 35 1)).frames
  if blk c 36 4 = 0xFFFFFFFF then l.getLast? else l.find? (fun f => f.number == blk c 36 4)

/-- Place of a sample of a frame in DRAM: Y, then the rows of alternate Cb and Cr (04 Table 4.12, 08 R200). -/
def frameByte (g : Geo) (f : CamFrame) (y x ch : Nat) : Nat :=
  if ch = 0 then f.base + y * g.w + x else f.base + g.w * g.h + y / 2 * (roundUp g.w 2) + x / 2 * 2 + (ch - 1)

/-- One activation less its zero point: batch, row, column, channel. -/
def convInt (s : State) (a : Desc) (g : Geo) (f : Option CamFrame) (zpY b y x ch : Nat) : Int :=
  match f with
  | none => a.int s (ch + g.cin * (x + g.w * (y + g.h * b))) - a.zp
  | some f => ((memRead s.store.dram (frameByte g f y x ch)).toNat : Int) - (if ch = 0 then zpY else 128)

/-- Why an activation cannot be delivered. -/
def convBad (s : State) (a : Desc) (g : Geo) (f : Option CamFrame) (b y x ch : Nat) : Option ReadError :=
  match f with
  | none => a.badElem s (ch + g.cin * (x + g.w * (y + g.h * b)))
  | some f => if (firstPoison s 2 (frameByte g f y x ch) 1).isSome then some .poison else none

def convIdx (g : Geo) (b y x ch : Nat) : Nat := ch + g.cin * (x + g.w * (y + g.h * b))

/- ### CONV2D -/

/-- Geometry of a `CONV2D` whose input has the given shape. -/
def convGeo (c : Cmd) (h w cin batch : Nat) : Geo := geoOf c h w cin ((descAt c.pkt.block 128).dim 0) (blk c 22 2) batch

/-- Geometry of a `CONV2D`: from A, or from the frame it reads (08 R200). -/
def convGeoOf (c : Cmd) (f : Option CamFrame) : Geo :=
  let a := descAt c.pkt.block 64
  match f with
  | some f => convGeo c f.height f.width (if blk c 40 1 = 1 then 3 else 1) 1
  | none => convGeo c (a.dim 2) (a.dim 1) (a.dim 0) (a.dim1 3)

/-- Dims of an output of `n` channels agree with 08 Table 8.2; its rows and columns are compared where R185 gives at least 1. -/
def Geo.shapes (g : Geo) (n : Nat) (d : Desc) : Bool :=
  d.dim1 0 == n && d.dim1 3 == g.batch && d.dim1 4 == 1 && (decide (g.ho < 1) || decide (g.wo < 1) || (d.dim1 1 == g.colsOut && d.dim1 2 == g.rowsOut))

/-- An operand of a stage of `CONV2D` is present exactly while its stage is enabled, and then valid and of the shape of Table 8.2 (08 R193). -/
def convOperand (on : Bool) (d : Desc) (output : Bool) (fmt : Nat → Bool) (shape : Desc → Bool) : Bool :=
  if on then d.present && d.ok output && fmt d.format && shape d else !d.present

/-- The operands of `CONV2D` agree with 08 Table 8.2, whose W has rank 4 and whose G, R and S have the rank of Y (notes/assumptions/32.md). -/
def convShapes (c : Cmd) (g : Geo) (rankOk : Nat → Bool) : Bool :=
  let b := c.pkt.block
  let w := descAt b 128
  let y := descAt b 192
  let st := blk c 6 1
  let fmtA := if blk c 34 1 = 1 then 0x02 else (descAt b 64).format
  let m := (modeOf fmtA w.format).getD .int8
  let like := fun n (d : Desc) => g.shapes n d && d.rank == y.rank
  g.ok && w.rank == 4 && w.dims1 == [g.cout, g.cg, g.kw, g.kh, 1] && rankOk y.rank && g.shapes g.cout y
  && convOperand (bit st 0) (descAt b 256) false (· == biasFormat m) (fun d => d.rank == 1 && d.dim 0 == g.cout)
  && convOperand (bit st 2) (descAt b 320) false (streamOk m) (like g.cout)
  && convOperand (bit st 3) (descAt b 384) false (streamOk m) (like g.cout)
  && convOperand (bit st 4) (descAt b 448) true (· == 0x05) (like 4)
  && ((descAt b 448).form == 0 || !(descAt b 448).present)

/-- The limits of an edge engine (08 Table 8.8). -/
def edgeFits (c : Cmd) (cin : Nat) : Bool :=
  let b := c.pkt.block
  let a := descAt b 64
  let w := descAt b 128
  let y := descAt b 192
  let int8 := fun f : Nat => f == 0x01 || f == 0x02
  decide (min cin (w.dim 0) ≤ 16) && decide (max cin (w.dim 0) ≤ 256) && blk c 22 2 == 1
  && decide (blk c 12 1 ≤ 15) && decide (blk c 13 1 ≤ 15)
  && (blk c 34 1 == 1 || (int8 a.format && a.form == 0)) && int8 w.format && w.form == 0
  && isInt y.format && y.form == 0 && decide (blk c 6 1 < 4) && (!bit (blk c 6 1) 0 || (descAt b 256).form == 0)

/-- The command runs on edge engines (08 R198, R200). -/
def onEdge (c : Cmd) : Bool :=
  let cin := if blk c 34 1 = 1 then (if blk c 40 1 = 1 then 3 else 1) else (descAt c.pkt.block 64).dim 0
  blk c 11 1 == 2 || blk c 34 1 == 1 || (blk c 11 1 == 0 && edgeFits c cin)

/-- Static conditions of `CONV2D` (08 R193, 06 R159). -/
def paramsConv2d (s : State) (c : Cmd) : Bool :=
  let b := c.pkt.block
  let a := descAt b 64
  let w := descAt b 128
  let y := descAt b 192
  let frame := blk c 34 1 == 1
  let cin := if frame then (if blk c 40 1 = 1 then 3 else 1) else a.dim 0
  decide (blk c 0 2 = 0x0010) && decide (blk c 2 2 = 1) && masksOk s c (!onEdge c) && decide (blk c 6 1 < 32) && stagesOk c 24
  && decide (blk c 11 1 ≤ 2) && decide (blk c 34 1 ≤ 1) && !(blk c 11 1 == 1 && frame)
  && (!(blk c 11 1 == 2 || frame) || edgeFits c cin)
  && (if frame then decide (blk c 35 1 ≤ 1) && decide (blk c 40 1 ≤ 1) && expOk (blkS c 42 1) else blkZero c 35 42)
  && blkZero c 43 63
  && (modeOf (if frame then 0x02 else a.format) w.format).isSome
  && w.present && y.present && w.ok false && y.ok true && outFormat y.format && decide (y.form ≤ 1)
  && (if frame then !a.present
      else a.present && a.ok false && (a.rank == 3 || a.rank == 4)
        && convShapes c (convGeoOf c none) (· == a.rank))
  && [64, 128, 256, 320, 384, 448].all (fun o => !y.overlaps (descAt b o))

/-- Cycles of an edge command of `passes` passes: groups of 64 adjacent positions of one output row by groups of 16 channels, and the 64 of its
stripe (08 R197). -/
def Geo.edgeCycles (g : Geo) (t : WorkCut) (passes : Nat) : Nat :=
  let w := max 1 g.colsOut
  let groups := ((span (t.m0 / w) ((t.m1 - 1) / w + 1)).map (fun r => ceilDiv (min t.m1 ((r + 1) * w) - max t.m0 (r * w)) 64)).sum
  groups * passes * ceilDiv (t.n1 - t.n0) 16 + 64

/-- What a `CONV2D` computes (08 R183 to R189, R197 to R200). K counts passes: on the tiles each tap has one for each slice of channels, on an
edge engine one for each channel. -/
def convProb (s : State) (c : Cmd) (f : Option CamFrame) (edge : Bool) (budget : Nat) : Prob :=
  let bl := c.pkt.block
  let a := descAt bl 64
  let w := descAt bl 128
  let y := descAt bl 192
  let g := convGeoOf c f
  let p := gatesOf s c 24
  let m := (modeOf (if f.isSome then 0x02 else a.format) w.format).getD .int8
  let eA : Int := if f.isSome then blkS c 42 1 else a.e
  let elem := if f.isSome then 1 else elemBytes a.format
  let perGroup := max 1 (g.cout / max 1 g.groups)
  let out := fun b i n => n + g.cout * (i + g.colsOut * g.rowsOut * b)
  let first := fun n => n / perGroup * g.cg
  let tapNo := fun t : Nat × Nat => t.1 * g.kw + t.2
  let kPass := if edge then 1 else m.kPass
  let per := max 1 (ceilDiv g.cg kPass)
  let chans := fun u => span (u * kPass) (min ((u + 1) * kPass) g.cg)
  let xInt := fun b i n (u : (Nat × Nat) × Nat) => (chans u.2).map (fun k => match g.at i u.1.1 u.1.2 with
    | some q => convInt s a g f (blk c 41 1) b q.1 q.2 (first n + k)
    | none => 0)
  let xFp := fun b i n (u : (Nat × Nat) × Nat) => (chans u.2).map (fun k => match g.at i u.1.1 u.1.2 with
    | some q => a.fp s (convIdx g b q.1 q.2 (first n + k))
    | none => 0)
  let wInt := fun (u : (Nat × Nat) × Nat) n k => weightAt s w g.cg (tapNo u.1) k n
  let wFp := fun (u : (Nat × Nat) × Nat) n k => w.fp s (n + g.cout * (k + g.cg * tapNo u.1))
  let st := g.stripeOf elem budget (blk c 32 2)
  { rows := g.rowsOut * g.colsOut, cols := g.cout, batches := g.batch, depth := g.kh * g.kw * (if g.cg = 0 then 0 else per), unit := 1,
    block := fun t => st t.m0 == st (t.m1 - 1) && t.n0 / perGroup == (t.n1 - 1) / perGroup && (edge || m.holds t)
    cycles := fun t =>
      let n := (g.passesOf per t).length
      if edge then g.edgeCycles t n else m.cycles t n
    mode := if edge then 5 else m.code
    products := fun t => (t.m1 - t.m0) * (g.passesOf per t).length * ceilDiv (t.n1 - t.n0) m.cols * m.products
    skipped := g.skips per
    check := fun t _ => (span t.m0 t.m1).flatMap (fun i =>
      if edge then
        let us := g.passesOf per t
        (List.range (ceilDiv (t.n1 - t.n0) 16)).map (fun q =>
          let ns := span (t.n0 + 16 * q) (min t.n1 (t.n0 + 16 * (q + 1)))
          .int (us.flatMap (fun u => xInt t.batch i t.n0 u)) (us.flatMap (fun u => (chans u.2).map (fun k => ns.map (fun n => (wInt u n k).1)))) 0)
      else (g.passesOf per t).map (fun u =>
        if m.isFp then .fp (xFp t.batch i t.n0 u) ((chans u.2).map (fun k => (passCols m t).map (fun n => wFp u n k)))
        else passRows m (xInt t.batch i t.n0 u) ((chans u.2).map (fun k => (passCols m t).map (fun n => (wInt u n k).1)))
          (wInt u t.n0 (u.2 * kPass)).2))
    start := fun t => List.replicate (t.n1 - t.n0) { val := 0 }
    extend := fun free t i accs =>
      let us := g.passesOf per t
      let r := ((span t.n0 t.n1).zip accs).map (fun x =>
        if m.isFp then
          fpExtend (free + (x.1 - t.n0)) (t.k0 * kPass) x.2 (us.flatMap (fun u => (xFp t.batch i x.1 u).zip ((chans u.2).map (wFp u x.1))))
        else
          let q := intExtend x.2 (us.map (fun u => passInt (xInt t.batch i x.1 u) ((chans u.2).map (wInt u x.1))))
          (q, q.sat && !x.2.sat))
      (r.map (·.1), flagIf (r.any (·.2)) (if m.isFp then flagInf else flagAccSat))
    draws := fun t => t.n1 - t.n0
    values := fun _ b i ns accs => (ns.zip accs).map (fun x => pipeline s p m.isFp x.2.val (eA + w.e) x.1 (out b i x.1))
    stats := if p.on 4 then .norm (descAt bl 448) else .none
    outIdx := out
    bad := fun t => ((cells t).flatMap (fun x =>
        (g.passesOf per t).flatMap (fun u => (chans u.2).flatMap (fun k =>
          [(g.at x.1 u.1.1 u.1.2).bind (fun q => convBad s a g f t.batch q.1 q.2 (first x.2 + k)), weightBad s w g.cg (tapNo u.1) k x.2]))
        ++ (if t.k1 = g.kh * g.kw * per then [gateBad s p x.2 (out t.batch x.1 x.2)] else []))
        ++ (if t.k1 = g.kh * g.kw * per then [tableBad s c 24] else [])).findSome? id
    emptyRow := fun _ _ => false
    emptyWindow := fun _ _ => false
    y := y }

/-- Result of `CONV2D` for its committed work (08 Table 8.6). -/
def convResult (c : Cmd) (j : Job) : List Byte :=
  let elem := if j.frame.isSome then 1 else elemBytes (descAt c.pkt.block 64).format
  let st := (convGeoOf c j.frame).stripeCounts elem c.aux (blk c 32 2) j.done
  natLe 4 j.tileCmds ++ natLe 2 j.outFlags.toNat ++ natLe 2 st.1 ++ natLe 2 st.2 ++ natLe 2 j.retries

/-- `CONV2D` starts (08 R185, R191, R193, R198, R201). -/
def runConv2d (c : Cmd) (s : State) : State :=
  let frame := blk c 34 1 == 1
  let f := if frame then frameNamed s c else none
  let g := convGeoOf c f
  let edge := onEdge c
  let ways := min 8 (fewestWays s (cmdCoppices c))
  if frame && !(camOf s (blk c 35 1)).gateOpen then complete s c .privacyBlock
  else if (frame && f.isNone) || !operandsPlaced s c || !hostTableOk s c 24
      || (frame && !convShapes c g (fun r => r == 3 || r == 4)) then complete s c .badParam
  else if g.empty then complete s c .dimEmpty
  else if !waysAvailable s (cmdCoppices c) then complete s c .quota
  else if !someUnit s (cmdCoppices c) (blk c 5 1) edge then complete s c .cancelled
  else
    let j : Job := { id := c.id, edge := edge, total := g.rowsOut * g.colsOut * g.cout * g.batch, frame := f,
                     outFlags := flagIf edge flagEdge ||| (match f with | some f => flagIf (f.flags.getLsbD 0) flagSrcTruncated | none => 0) }
    let c := { c with aux := ways * waySize }
    startJob s { c with res := convResult c j } j

/- ### POOL2D (08 R194 to R196) -/

/-- `a / b` rounded to nearest, ties to even. -/
def rneDiv (a b : Nat) : Nat :=
  let q := a / b
  let r := a % b
  if b < 2 * r || (2 * r == b && q % 2 == 1) then q + 1 else q

/-- FP32 reciprocal of a count, rounded to nearest: 60 quotient bits and a sticky bit decide it. -/
def fpRecip (n : Nat) : U32 := fpBits 24 (.fin false (2 ^ 60 / n * 2 + b2n (2 ^ 60 % n != 0)) (-61))

/-- Geometry of a `POOL2D`. -/
def poolGeo (c : Cmd) : Geo :=
  let a := descAt c.pkt.block 64
  geoOf c (a.dim 2) (a.dim 1) (a.dim 0) (a.dim 0) 1 (a.dim1 3)

/-- Static conditions of `POOL2D` (08 R196). -/
def paramsPool2d (s : State) (c : Cmd) : Bool :=
  let a := descAt c.pkt.block 64
  let y := descAt c.pkt.block 128
  let g := poolGeo c
  decide (blk c 0 2 = 0x0011) && decide (blk c 2 2 = 1) && masksOk s c true
  && decide (blk c 6 1 ≤ 1) && decide (blk c 7 1 ≤ 1) && !(blk c 7 1 == 1 && blk c 6 1 == 0)
  && blkZero c 8 11 && blkZero c 22 31 && blkZero c 34 63
  && a.present && y.present && a.ok false && y.ok true && (isInt a.format || a.format == 0x04) && outFormat y.format
  && decide (y.form ≤ 1) && (a.rank == 3 || a.rank == 4) && y.rank == a.rank && g.ok
  && g.shapes g.cout y && !y.overlaps a

/-- One pooled output: the working value of its window. -/
def poolWindow (s : State) (c : Cmd) (a : Desc) (g : Geo) (b i n free : Nat) : Working :=
  let reads := (g.reads i).map (fun r => convIdx g b r.2.1 r.2.2 n)
  let cnt := if blk c 7 1 = 1 then g.kh * g.kw else reads.length
  if a.format = 0x04 then
    let vs := reads.map (a.fp s)
    match vs with
    | [] => .fp 0
    | v :: t =>
      if blk c 6 1 = 0 then .fp (t.foldl fpMax (if isNan v then canonicalNan else v))
      else .fp (fmul (fpSum free (vs.map fpOf)) (fpRecip cnt))
  else
    let vs := reads.map (fun k => a.int s k - a.zp)
    match vs with
    | [] => .int 0 a.e
    | v :: t =>
      if blk c 6 1 = 0 then .int (t.foldl max v) a.e
      else
        let l := cnt.log2
        .int (vs.sum * (rneDiv (2 ^ (16 + l)) cnt : Nat)) (a.e - 16 - l)

/-- What a `POOL2D` computes: its windows pass the lanes, 128 channels of one position per cycle (08 R194). -/
def poolProb (s : State) (c : Cmd) (budget : Nat) : Prob :=
  let a := descAt c.pkt.block 64
  let y := descAt c.pkt.block 128
  let g := poolGeo c
  let out := fun b i n => n + g.cout * (i + g.colsOut * g.rowsOut * b)
  let st := g.stripeOf (elemBytes a.format) budget (blk c 32 2)
  { rows := g.rowsOut * g.colsOut, cols := g.cout, batches := g.batch, depth := g.kh * g.kw, unit := 1,
    block := fun t => st t.m0 == st (t.m1 - 1) && t.k0 == 0 && t.k1 == g.kh * g.kw
    cycles := fun t => (t.m1 - t.m0) * (g.kh * g.kw) * ceilDiv (t.n1 - t.n0) 128 + 24 + 8
    mode := 6
    products := fun _ => 0, skipped := g.skips 1
    check := fun _ _ => []
    start := fun t => List.replicate (t.n1 - t.n0) { val := 0 }
    extend := fun _ _ _ accs => (accs, 0)
    draws := fun _ => 0
    values := fun free b i ns _ => ns.zipIdx.map (fun x => (poolWindow s c a g b i x.1 (free + x.2), 0))
    stats := .none
    outIdx := out
    bad := fun t => ((cells t).flatMap (fun x => (g.reads x.1).map (fun r => a.badElem s (convIdx g t.batch r.2.1 r.2.2 x.2)))).findSome? id
    emptyRow := fun _ _ => false
    emptyWindow := fun i _ => (g.reads i).isEmpty
    y := y }

/-- Result of `POOL2D` for its committed work (08 Table 8.7). -/
def poolResult (c : Cmd) (j : Job) : List Byte :=
  let st := (poolGeo c).stripeCounts (elemBytes (descAt c.pkt.block 64).format) c.aux (blk c 32 2) j.done
  natLe 4 j.tileCmds ++ natLe 2 j.outFlags.toNat ++ natLe 2 st.1 ++ natLe 4 j.emptyWindows

/-- `POOL2D` starts (08 R185, R191, R196). -/
def runPool2d (c : Cmd) (s : State) : State :=
  let g := poolGeo c
  let ways := min 8 (fewestWays s (cmdCoppices c))
  if !operandsPlaced s c then complete s c .badParam
  else if g.empty then complete s c .dimEmpty
  else if !waysAvailable s (cmdCoppices c) then complete s c .quota
  else if !someUnit s (cmdCoppices c) (blk c 5 1) false then complete s c .cancelled
  else
    let c := { c with aux := ways * waySize, res := zeroBytes 12 }
    startJob s c { id := c.id, total := g.rowsOut * g.colsOut * g.cout * g.batch }

end Sys2Proof.Machine
end

