-- ==== Sys2Proof/Machine/Dram.lean ====
section
/-! DEFINITION. The memory controllers: the interleave, poisoned lines, ECC faults and injections, rank retirement,
migration and retraining, the NAND channels (12 R290 to R303). -/

namespace Sys2Proof.Machine

/- ### The interleave (12 R290) -/

/-- Grain of a group at an address: 4 KiB in the device reserve, else by `MEM_CONFIG`. -/
def grainAt (s : State) (off : Nat) : Nat :=
  let g := off / groupSize
  if reserveBase g ≤ off then 4096 else 256 * 2 ^ bits s.regs.memConfig.toNat (4 * g + 3) (4 * g)

/-- Channel (group × 8 + channel in the group) of a tier-2 offset. -/
def channelOf (s : State) (off : Nat) : Nat :=
  off / groupSize * 8 + (off % groupSize / grainAt s off) % 8

/-- Data address of a tier-2 offset in its channel. -/
def dataAddr (s : State) (off : Nat) : Nat :=
  let gr := grainAt s off
  let l := off % groupSize
  l / (8 * gr) * gr + l % gr

/-- Bytes of data in a rank (12 R296). -/
def rankData : Nat := 992 * mib

def rankOf (s : State) (off : Nat) : Nat := dataAddr s off / rankData

/-- Migration unit of an offset within its rank. -/
def unitOfRank (s : State) (off : Nat) : Nat := dataAddr s off % rankData / 65536

/- ### Spare ranks and retirement (12 R295 to R298) -/

def spareOf (s : State) (i : Nat) : SpareCh := if i = 0 then s.dram.spare0 else s.dram.spare1
def setSpare (s : State) (i : Nat) (x : SpareCh) : State :=
  if i = 0 then { s with dram := { s.dram with spare0 := x } } else { s with dram := { s.dram with spare1 := x } }

/-- Tenant of a channel. -/
def channelFn (s : State) (ch : Nat) : Fn := if t1Group s (ch / 8) then .pf1 else .pf0

/-- The first spare rank free for a tenant, in the order of R295. -/
def nextSpare (s : State) (fn : Fn) : Option (Nat × Nat) :=
  (((List.range (sparesOf s.fuse.part)).flatMap (fun i => [(i, 0), (i, 1)])).filter (fun x =>
    let sp := spareOf s x.1
    !sp.retraining && (sp.owner.isNone || sp.owner == some fn) && (if x.2 = 0 then sp.rank0.isNone else sp.rank1.isNone))).head?

/-- Take a spare rank for a (channel, rank). -/
def takeSpare (s : State) (i r : Nat) (ch rank : Nat) : State :=
  let sp := { spareOf s i with owner := some (channelFn s ch) }
  setSpare s i (if r = 0 then { sp with rank0 := some (ch, rank) } else { sp with rank1 := some (ch, rank) })

/-- A rank is already moved, moving or known to fail. -/
def rankHandled (s : State) (ch rank : Nat) : Bool :=
  s.dram.migrations.any (fun m => m.ch == ch && m.rank == rank && !m.retraining) || s.dram.moved.any (fun m => m.1 == ch && m.2.1 == rank)
    || s.dram.degraded.contains (ch, rank)

/-- Start the retirement of a rank: now, at the end of self refresh, or not at all for want of a spare (12 R295, R298). -/
def startRetire (s : State) (ch rank : Nat) : State :=
  let d := s.dram
  if rankHandled s ch rank || d.pendingRetire.contains (ch, rank) then s
  else if s.power.selfRefresh.toNat.testBit (ch / 8) then { s with dram := { d with pendingRetire := d.pendingRetire ++ [(ch, rank)] } }
  else match nextSpare s (channelFn s ch) with
    | some (i, r) =>
      let s := takeSpare s i r ch rank
      { s with dram := { s.dram with migrations := s.dram.migrations ++ [{ ch := ch, rank := rank, spare := i, spareRank := r }] } }
    | none => bumpMap { s with dram := { d with degraded := d.degraded ++ [(ch, rank)] } }

/-- A capture at a tier-2 address. -/
def captureAt (c : Capture) (tier off access : Nat) : Capture :=
  { c with address := BitVec.ofNat 64 (addrField tier off), access := access }

/-- An uncorrectable line: poisoned, a CONTAINED fault, and the retirement of its rank; on a degraded rank a fault for each
line (12 R295, R297, R298). -/
def badLine (s : State) (off access : Nat) (cap : Nat → Nat → Nat → Capture) : State :=
  let ch := channelOf s off
  let rank := rankOf s off
  let s := poisonRange s (off / 64 * 64) 64
  let s := raise s (captureAt (cap 0x11 ch 1) 2 off access)
  let s := startRetire s ch rank
  if s.dram.degraded.contains (ch, rank) then raise s (captureAt (cap 0x13 ch 1) 2 off access) else s

/-- A corrected read of a line (12 R291, R294): counted for its group. -/
def correctedLine (s : State) (off access : Nat) (cap : Nat → Nat → Nat → Capture) : State :=
  countUp (raise s (captureAt (cap 0x11 (channelOf s off) 0) 2 off access)) 0x0021 (off / groupSize) 1

/- ### Reads that checkers see (14 R347, Table 14.7) -/

/-- Lines of a range. -/
def linesOf (off len unit : Nat) : List Nat := (List.range (ceilDiv (off % unit + len) unit)).map (fun i => off / unit + i)

/-- Mark the 64 B line or 4 KiB unit at an offset of a tier poisoned (12 R297, R303; 14 Table 14.3 source 0x01). -/
def poisonAt (s : State) (tier a : Nat) : State :=
  let st := s.store
  let add := fun (l : List Nat) (n : Nat) => if l.contains n then l else l ++ [n]
  if tier = 1 then { s with store := { st with poison1 := add st.poison1 (a / 64) } }
  else if tier = 2 then { s with store := { st with poison := add st.poison (a / 64) } }
  else { s with store := { st with poisonUnits := add st.poisonUnits (a / 4096) } }

/-- Tier whose reads a source checks, if any. -/
def tierOfSource (src : Nat) : Option Nat :=
  if src = 0x01 then some 1 else if src = 0x11 then some 2 else if src = 0x14 then some 3 else none

/-- Source instance that checks an offset of a tier (14 Table 14.4). -/
def instAt (s : State) (tier a : Nat) : Nat := if tier = 1 then a / copSize else if tier = 2 then channelOf s a else a / nandSize

/-- The places an armed injection may strike in a read of some ranges (tier, offset, length): its own line, or the lines of its
unit. One of 0x01 without an address waits for a tile (14 Table 14.7, notes/assumptions/52.md). -/
def strikePlaces (s : State) (i : Injection) (ranges : List (Nat × Nat × Nat)) : List (Nat × Nat) :=
  match tierOfSource i.target with
  | none => []
  | some t =>
    let unit := if t = 3 then 4096 else 64
    if i.address ≠ 0 then [(t, offOf i.address.toNat / unit * unit)]
    else if t = 1 then []
    else (((ranges.filter (fun r => r.1 == t)).flatMap (fun r => linesOf r.2.1 r.2.2 unit)).filter
      (fun l => instAt s t (l * unit) == i.unit)).map (fun l => (t, l * unit))

/-- The region of the buffers that a source's instance names: 0x01 of a tier-1 line is its coppice's (notes/assumptions/52.md). -/
def linesRegion (src inst : Nat) : Nat := if src = 0x01 then domCop inst else sourceDom src inst

/-- One injection strikes a read, where poison at one of its places would spoil that read: one bit is corrected, two bits poison
the place and a rank is retired (12 R295, R297; 14 R347, R348). `cap` makes the capture of a source, instance and class. -/
def strikeOnce (cap : Nat → Nat → Nat → Capture) (ranges : List (Nat × Nat × Nat)) (bad : State → Bool) (s : State) : State :=
  match s.fault.injections.findSome? (fun i =>
      ((strikePlaces s i ranges).find? (fun l => !bad s && bad (poisonAt s l.1 l.2))).map (fun l => (i, l))) with
  | none => s
  | some (i, tier, a) =>
    let inst := instAt s tier a
    let s := fireInjection s i (captureAt ((cap i.target inst (if i.bits = 1 then 0 else 1)).inRegion s (linesRegion i.target inst)) tier a 0)
    if i.bits = 1 then (if tier = 2 then countUp s 0x0021 (a / groupSize) 1 else s)
    else
      let s := poisonAt s tier a
      if tier = 2 then startRetire s (channelOf s a) (rankOf s a) else s

/-- Every armed injection that a read meets strikes. `bad` says whether the read meets poison in a state. -/
def strike (cap : Nat → Nat → Nat → Capture) (ranges : List (Nat × Nat × Nat)) (bad : State → Bool) (s : State) : State :=
  s.fault.injections.foldl (fun s _ => strikeOnce cap ranges bad s) s

/-- The capture of a command's read by a master (14 Tables 14.4, 14.5). -/
def captureBy (s : State) (c : Cmd) (master src inst cls : Nat) : Capture := { captureCmd s c src inst cls with master := master }

/-- DMA of a function as a master. -/
def dmaMaster (fn : Fn) : Nat := if fn = .pf0 then 0x12 else 0x13

/-- Extents of a command's tensors. -/
def tensorRanges (c : Cmd) : List (Nat × Nat × Nat) :=
  ((descPlaces c.op c.pkt.block).map (descAt c.pkt.block)).filterMap (fun d => if d.present then some (d.tier, d.off, d.extent) else none)

/-- Read a range of tier 1, 2 or 3 for a command: armed injections strike, and the offset of the first poisoned byte is
answered. -/
def checkedRead (s : State) (c : Cmd) (master tier off len : Nat) : State × Option Nat :=
  let s := strike (captureBy s c master) [(tier, off, len)] (fun t => (firstPoison t tier off len).isSome) s
  (s, firstPoison s tier off len)

/- ### Context entries, directories and page lists (12 R297) -/

/-- Tier-2 offset of a handle's context entry, in the reserve of its group (11 R262). -/
def contextAddr (s : State) (h : Nat) : Nat :=
  let g := h / handleBlock s
  g * groupSize + groupSize - 48 * mib + Config.contextTable g % (16 * mib) / 64 * 64 + 64 * (h % handleBlock s)

/-- The entries of contexts that are not in the context cache. -/
def entryRanges (s : State) (hs : List Nat) : List (Nat × Nat × Nat) :=
  (hs.filter (fun h => !s.work.cached.contains h)).map (fun h => (2, contextAddr s h, 64))

/-- The entry of a sequence, its directory and its lists. -/
def seqRanges (s : State) (q : Seqn) : List (Nat × Nat × Nat) := entryRanges s [q.handle] ++ [(2, q.dir, q.charge)]

/-- Device structures that a command reads for the context it names. -/
def contextRanges (s : State) (c : Cmd) : List (Nat × Nat × Nat) :=
  let h := ctxHandle c.pkt
  let mine := s.work.seqs.filter (fun q => q.fn == c.fn && (q.handle == h || (c.op == .seqFree && q.conv == some h)))
  match c.op with
  | .seqAppend | .seqFork | .attention | .trainStep => if ctxValid c.pkt then mine.flatMap (seqRanges s) else []
  | .seqFree => (if (convOf s c.fn h).isSome then entryRanges s [h] else []) ++ mine.flatMap (seqRanges s)
  | .streamChunk | .stateSwap | .streamClose =>
    (match streamOf s c.fn h with | some x => entryRanges s [h, x.stateHandle] | none => [])
  | .stepPolicy => if arg c 24 1 = 3 then entryRanges s [arg c 48 4] else []
  | _ => []

def rangesPoisoned (s : State) (rs : List (Nat × Nat × Nat)) : Bool := rs.any (fun r => (firstPoison s r.1 r.2.1 r.2.2).isSome)

/-- The state once a command has read the structures of its context: an armed memory checker fires on them (14 R347, R348). -/
def contextRead (c : Cmd) (s : State) : State :=
  if (contextRanges s c).isEmpty then s
  else strike (captureBy s c 0x54) (contextRanges s c) (fun t => rangesPoisoned t (contextRanges s c)) s

/-- A command that needs a context entry, directory or page list goes on where none of its lines is poisoned, else completes `POISON` (12
R297). -/
def withContext (c : Cmd) (s : State) (f : State → State) : State :=
  if rangesPoisoned (contextRead c s) (contextRanges s c) then endCmd (contextRead c s) c .poison else f (contextRead c s)

/- ### Events of the LPDDR5 controller -/

/-- A group's memory runs: its domain is ON and the group is not in self refresh. -/
def groupRuns (s : State) (g : Nat) : Bool :=
  groupPresent s g && domOn s (memOfGroup g) && !s.power.selfRefresh.toNat.testBit g

/-- `PATROL_SCRUB` of one 64 B line (12 R294). A line below the last one begins a new pass. -/
def patrolScrub (line : Nat) (r : LineResult) (s : State) : State :=
  let off := line * 64
  let ch := channelOf s off
  let rank := rankOf s off
  if !groupRuns s (off / groupSize) then s
  else
    let d := s.dram
    let s := { s with dram := { d with scrubPos := line, corrected := if line < d.scrubPos then [] else d.corrected } }
    let i := s.fault.injections.find? (fun i => i.target == 0x11 && i.unit == ch && (i.address == 0 || offOf i.address.toNat / 64 == line))
    match i, r with
    | some i, _ =>
      let s := fireInjection s i (captureAt (capture s 0x11 ch (if i.bits = 1 then 0 else 1)) 2 off 5)
      if i.bits = 1 then countUp s 0x0021 (off / groupSize) 1 else startRetire (poisonRange s off 64) ch rank
    | none, .clean => s
    | none, .corrected =>
      let s := correctedLine s off 5 (capture s)
      let l := s.dram.corrected
      let n := match l.find? (fun e => e.1 == ch && e.2.1 == rank) with | some e => e.2.2 + 1 | none => 1
      let s := { s with dram := { s.dram with corrected := (ch, rank, n) :: l.filter (fun e => !(e.1 == ch && e.2.1 == rank)) } }
      if 1024 < n then startRetire s ch rank else s
    | none, .uncorrectable => badLine s off 5 (capture s)

/-- The next rank of a retraining, or the end of it (12 R299). -/
def retrainNext (s : State) (m : Migration) : State :=
  if m.rank = 0 then
    { s with dram := { s.dram with migrations := s.dram.migrations ++ [{ m with rank := 1, spareRank := 1, watermark := 0 }] } }
  else bumpMap (if m.back then setSpare s m.spare {} else s)

/-- The end of a migration: the spare takes the rank's addresses for good, or the retraining goes on (12 R296, R299). -/
def migrationEnd (s : State) (m : Migration) : State :=
  let s := { s with dram := { s.dram with migrations := s.dram.migrations.filter (fun x => decide (x ≠ m)) } }
  if m.retraining then retrainNext s m
  else bumpMap { s with dram := { s.dram with moved := s.dram.moved ++ [(m.ch, m.rank, 2 * m.spare + m.spareRank)] } }

/-- `MIGRATION_UNIT`: one 64 KiB unit is copied; a line that cannot be read is written poisoned (12 R296, R297). -/
def migrationUnit (ch rank : Nat) (badLines : List Nat) (s : State) : State :=
  match s.dram.migrations.find? (fun m => m.ch == ch && m.rank == rank) with
  | none => s
  | some m =>
    if !groupRuns s (ch / 8) then s
    else
      let mine := badLines.filter (fun l => channelOf s (l * 64) == ch && rankOf s (l * 64) == rank && unitOfRank s (l * 64) == m.watermark)
      let s : State := mine.foldl (fun s l => badLine s (l * 64) 0 (capture s)) s
      if m.watermark + 1 = 15872 then migrationEnd s m
      else { s with dram := { s.dram with migrations := s.dram.migrations.map (fun x =>
              if x = m then { m with watermark := m.watermark + 1 } else x) } }

/-- A wholly free spare channel. -/
def freeSpareChannel (s : State) : Option Nat :=
  (List.range (sparesOf s.fuse.part)).find? (fun i =>
    (spareOf s i).rank0.isNone && (spareOf s i).rank1.isNone && !(spareOf s i).retraining)

/-- Start the online retraining of a channel, or count the hold of an in-place one (12 R299). -/
def startRetraining (s : State) (ch : Nat) : State :=
  if s.dram.migrations.any (fun m => m.ch == ch) || (spareOf s 0).rank0 == some (ch, 0) && (spareOf s 0).retraining
      || (spareOf s 1).rank0 == some (ch, 0) && (spareOf s 1).retraining then s
  else match freeSpareChannel s with
    | none => { s with dram := { s.dram with retrainHolds := s.dram.retrainHolds + 1 } }
    | some i =>
      let s := setSpare s i { rank0 := some (ch, 0), rank1 := some (ch, 1), owner := some (channelFn s ch), retraining := true }
      { s with dram := { s.dram with migrations := s.dram.migrations ++ [{ ch := ch, rank := 0, spare := i, spareRank := 0, retraining := true }] } }

/-- `TRAINING_CHECK` of a channel (12 R295, R299). -/
def trainingCheck (ch : Nat) (badRank : Option Nat) (drift : Bool) (s : State) : State :=
  if !groupRuns s (ch / 8) || decide (32 ≤ ch) then s
  else
    let s := match badRank with
      | some r => if r < 2 then startRetire (raise s (capture s 0x12 ch 0)) ch r else s
      | none => s
    if drift then startRetraining (raise s (capture s 0x12 ch 0)) ch else s

/-- `RETRAINING_DONE`: the channel has retrained on its spare, and its data is migrated back (12 R299). -/
def retrainingDone (ch : Nat) (s : State) : State :=
  match (List.range 2).find? (fun i => (spareOf s i).retraining && (spareOf s i).rank0 == some (ch, 0)) with
  | none => s
  | some i =>
    if s.dram.migrations.any (fun m => m.ch == ch && m.retraining) then s
    else { s with dram := { s.dram with migrations := s.dram.migrations ++
            [{ ch := ch, rank := 0, spare := i, spareRank := 0, retraining := true, back := true }] } }

/-- `DISTURB_WINDOW`: the activate table of a bank is cleared (12 R293). -/
def disturbWindow (ch bank : Nat) (s : State) : State :=
  { s with dram := { s.dram with rows := s.dram.rows.filter (fun r => !(r.ch == ch && r.bank == bank)) } }

/-- Retirements that waited for the end of self refresh (12 R295). -/
def resumeRetire (s : State) (g : Nat) : State :=
  let mine := s.dram.pendingRetire.filter (fun x => x.1 / 8 == g)
  let s := { s with dram := { s.dram with pendingRetire := s.dram.pendingRetire.filter (fun x => x.1 / 8 != g) } }
  mine.foldl (fun s x => startRetire s x.1 x.2) s

/- ### Events of the NAND channels (12 R302) -/

def updNand (s : State) (n : Nat) (f : NandCh → NandCh) : State :=
  { s with nand := s.nand.zipIdx.map (fun x => if x.2 = n then f x.1 else x.1) }

/-- `READ_REFRESH`: a block at the read limit is relocated, so its reads since its last program start at 0. -/
def readRefresh (ch block : Nat) (s : State) : State :=
  if !(nandPresent s ch && (nandCh s ch).inService) then s
  else updNand s ch (fun x => { x with reads := x.reads.filter (fun r => r.1 != block) })

/-- `PROGRAM_FAILURE`: the block is retired. The share of spare blocks left is a free value that never rises; below 1 % the
channel is read-only (notes/assumptions/36.md). -/
def programFailure (ch block : Nat) (s : State) : State :=
  let x := nandCh s ch
  if !(nandPresent s ch && x.inService) || x.retired.contains block then s
  else
    let left := min x.sparePermille (Config.freeNat s.freeCtr)
    let s := updNand (bumpFree s) ch (fun x => { x with retired := x.retired ++ [block], sparePermille := left,
                                                        readOnly := x.readOnly || decide (left < 10) })
    if left < 10 ∧ x.readOnly = false then bumpMap (raise s (capture s 0x15 ch 0)) else s

end Sys2Proof.Machine
end

