-- ==== Sys2Proof/Machine/Attention.lean ====
section
/-! DEFINITION. Forward attention over the pages of a sequence or over tensors: which keys a row sees, what the result
fixes, and the conditions of `ATTENTION` (09 R203 to R205, R221 to R229). -/

namespace Sys2Proof.Machine

/- ### Page geometry (09 R203 to R206) -/

/-- Tokens of a page. -/
def pageTokens (kvHeads headDim eb : Nat) : Nat := 2 ^ (65536 / max 1 (kvHeads * headDim * eb)).log2

def KvGeom.tokens (g : KvGeom) : Nat := pageTokens g.kvHeads g.headDim (elemBytes g.fmt)
def KvGeom.pagesMax (g : KvGeom) : Nat := 65536 / g.tokens

/-- Bytes of one page list: the entries, the shifts of INT8 pages, padded to 64 (09 R206). -/
def KvGeom.listBytes (g : KvGeom) : Nat :=
  roundUp (4 * g.pagesMax + (if g.fmt = 0x01 then g.pagesMax * g.kvHeads else 0)) 64

/-- Bytes of a sequence's directory and lists. -/
def KvGeom.dirBytes (g : KvGeom) : Nat := 64 + 16 * g.layers + 2 * g.layers * g.listBytes

/-- A geometry that a sequence can have (09 R203). -/
def KvGeom.ok (g : KvGeom) : Bool :=
  decide (1 ≤ g.kvHeads) && decide (g.kvHeads ≤ 64) && decide (16 ≤ g.headDim) && decide (g.headDim ≤ 256) && g.headDim % 16 == 0
    && (g.fmt == 0x01 || g.fmt == 0x04) && decide (g.kvHeads * g.headDim * elemBytes g.fmt ≤ 4096)
    && decide (1 ≤ g.layers) && decide (g.layers ≤ 256)

/-- Byte of element `d` of head `h` for token slot `t` of a page. -/
def pageByte (tokens headDim eb h t d : Nat) : Nat := ((h * tokens + t) * headDim + d) * eb

/- ### What a query sees (09 R221, R222) -/

/-- The fields of an attention. -/
structure AttnArgs where
  causal : Bool
  windowEn : Bool
  prefixEn : Bool
  pages : Bool
  eScore : Int
  layer : Nat
  qPos0 : Nat
  kFirst : Nat
  kLen : Nat
  window : Nat
  pref : Nat
  qHeads : Nat
  kvHeads : Nat
deriving DecidableEq, Repr

/-- A pair of positions is allowed (09 R221). -/
def AttnArgs.allowed (a : AttnArgs) (q k : Nat) : Bool :=
  decide (a.kFirst ≤ k) && decide (k - a.kFirst < a.kLen)
  && (!a.causal || decide (k ≤ q) || (a.prefixEn && decide (q < a.pref) && decide (k < a.pref)))
  && (!a.windowEn || decide ((if k ≤ q then q - k else k - q) < a.window))

/-- Allowed keys of query row `i`, as indexes into the key range. -/
def AttnArgs.keys (a : AttnArgs) (i : Nat) : List Nat :=
  (List.range a.kLen).filter (fun j => a.allowed (a.qPos0 + i) (a.kFirst + j))

/-- First page of keys and number of pages the key range touches; tensor keys are paged from their first. -/
def AttnArgs.page0 (a : AttnArgs) (tokens : Nat) : Nat := if a.pages then a.kFirst / tokens else 0
def AttnArgs.blocks (a : AttnArgs) (tokens : Nat) : Nat :=
  if a.kLen = 0 then 0
  else if a.pages then (a.kFirst + a.kLen - 1) / tokens - a.kFirst / tokens + 1 else ceilDiv a.kLen tokens

/-- Key indexes of the range that lie in its block `kb`. -/
def AttnArgs.blockKeys (a : AttnArgs) (tokens kb : Nat) : List Nat :=
  (List.range a.kLen).filter (fun j => (if a.pages then (a.kFirst + j) / tokens else j / tokens) == a.page0 tokens + kb)

/-- A block of 64 query rows and one page of keys in which no pair is allowed (09 R222). -/
def AttnArgs.skipped (a : AttnArgs) (tokens nq qb kb : Nat) : Bool :=
  (a.blockKeys tokens kb).all (fun j => (span (64 * qb) (min nq (64 * qb + 64))).all (fun i =>
    !a.allowed (a.qPos0 + i) (a.kFirst + j)))

/-- The fields of an `ATTENTION` block (09 Table 9.6); `len` is the sequence's committed length. -/
def attnArgs (c : Cmd) (len : Nat) : AttnArgs :=
  let m := blk c 6 1
  { causal := bit m 0, windowEn := bit m 1, prefixEn := bit m 2, pages := blk c 7 1 == 0, eScore := blkS c 8 1, layer := blk c 10 2,
    qPos0 := blk c 12 4, kFirst := blk c 16 4,
    kLen := if blk c 7 1 = 0 ∧ blk c 20 4 = 0xFFFFFFFF then len - blk c 16 4 else blk c 20 4,
    window := blk c 24 4, pref := blk c 28 4, qHeads := blk c 32 2, kvHeads := blk c 34 2 }

/- ### Keys and values -/

/-- Where one key or value row stands: the tensor or page source of an attention. -/
structure KvSource where
  pages : Bool
  tokens : Nat
  headDim : Nat
  keys : Nat
  fmt : Nat
  list : List Page
  k : Desc
  v : Desc
deriving DecidableEq, Repr

/-- The page of a layer and list that holds a position. -/
def KvSource.page (x : KvSource) (isV : Bool) (pos : Nat) : Option Page :=
  x.list.find? (fun p => p.isV == isV && p.index == pos / x.tokens)

/-- Element `d` of a key or value row of a head, with the exponent it stands at. Key `j` of a tensor, position `j` of a
sequence. -/
def KvSource.int (s : State) (x : KvSource) (isV : Bool) (h j d : Nat) : Int × Int :=
  if x.pages then
    match x.page isV j with
    | some p => (sfield (tierRead s 2 (p.pfn * 65536 + pageByte x.tokens x.headDim 1 h (j % x.tokens) d) 1) 0 1, p.shifts.getD h 0)
    | none => (0, 0)
  else
    let t := if isV then x.v else x.k
    (t.int s (d + x.headDim * (j + x.keys * h)) - t.zp, t.e)

/-- The same element of a BF16 source as FP32. -/
def KvSource.fp (s : State) (x : KvSource) (isV : Bool) (h j d : Nat) : U32 :=
  if x.pages then
    match x.page isV j with
    | some p => bf16To32 (leNat (tierRead s 2 (p.pfn * 65536 + pageByte x.tokens x.headDim 2 h (j % x.tokens) d) 2))
    | none => 0
  else (if isV then x.v else x.k).fp s (d + x.headDim * (j + x.keys * h))

/-- Why a key or value row cannot be delivered. -/
def KvSource.bad (s : State) (x : KvSource) (isV : Bool) (h j : Nat) : Option ReadError :=
  if x.pages then
    match x.page isV j with
    | some p =>
      let eb := elemBytes x.fmt
      if (firstPoison s 2 (p.pfn * 65536 + pageByte x.tokens x.headDim eb h (j % x.tokens) 0) (x.headDim * eb)).isSome
      then some .poison else none
    | none => none
  else (List.range x.headDim).findSome? (fun d => (if isV then x.v else x.k).badElem s (d + x.headDim * (j + x.keys * h)))

/- ### ATTENTION -/

/-- Static conditions of `ATTENTION` (09 R228, Table 9.6, 06 R159). -/
def paramsAttention (s : State) (c : Cmd) : Bool :=
  let b := c.pkt.block
  let q := descAt b 64
  let k := descAt b 128
  let v := descAt b 192
  let o := descAt b 256
  let st := descAt b 320
  let a := attnArgs c 0
  let int8 := q.format == 0x01 || q.format == 0x02
  decide (blk c 0 2 = 0x0020) && decide (blk c 2 2 = 1) && masksOk s c true
  && decide (blk c 6 1 < 8) && decide (blk c 7 1 ≤ 1) && expOk a.eScore && blkZero c 9 9 && blkZero c 36 63
  && (!a.windowEn || (decide (1 ≤ a.window) && decide (a.window ≤ 65536))) && (!a.prefixEn || decide (a.pref ≤ 65536))
  && decide (a.qHeads ≤ 256) && decide (1 ≤ a.kvHeads) && a.qHeads % max 1 a.kvHeads == 0
  && q.present && q.ok false && (int8 || q.format == 0x04) && q.dims1 == [q.dim 0, q.dim1 1, a.qHeads, 1, 1]
  && o.present && o.ok true && outFormat o.format && decide (o.form ≤ 1) && o.dims1 == q.dims1
  && (!st.present || (st.ok true && st.format == 0x05 && st.form == 0 && st.dims1 == [4, q.dim1 1, a.qHeads, 1, 1]))
  && decide (a.qPos0 + q.dim1 1 ≤ 65536)
  && (if a.pages then ctxValid c.pkt && !k.present && !v.present
      else [k, v].all (fun d => d.present && d.ok false && d.format == (if int8 then 0x01 else 0x04)
              && d.dims1 == [q.dim 0, k.dim1 1, a.kvHeads, 1, 1])
            && decide (a.kFirst + a.kLen ≤ k.dim1 1))
  && [q, k, v].all (fun d => !o.overlaps d && !st.overlaps d)

/-- The source an `ATTENTION` reads, with the pages its start fixed (09 R229). -/
def kvSource (c : Cmd) (j : Job) : KvSource :=
  let b := c.pkt.block
  let q := descAt b 64
  let fmt := if q.format = 0x04 then 0x04 else 0x01
  { pages := blk c 7 1 == 0, tokens := pageTokens (blk c 34 2) (q.dim 0) (elemBytes fmt), headDim := q.dim 0,
    keys := (descAt b 128).dim1 1, fmt := fmt, list := j.pages, k := descAt b 128, v := descAt b 192 }

/-- The larger of two FP32 values as C's `fmaxf` takes it: a NaN gives way. -/
def fmaxf (a b : U32) : U32 := if isNan a then b else if isNan b then a else fpMax a b

/-- What the rows of one head of an `ATTENTION` need: the fields, the source, Q, the KV head, and the run of exponentials. -/
structure HeadRun where
  a : AttnArgs
  x : KvSource
  q : Desc
  h : Nat
  draw : Nat
deriving DecidableEq, Repr

def HeadRun.isFp (r : HeadRun) : Bool := r.x.fmt == 0x04
def HeadRun.kvh (r : HeadRun) : Nat := r.h / max 1 (r.a.qHeads / max 1 r.a.kvHeads)
/-- Index of the key `j` of the range in its source. -/
def HeadRun.pos (r : HeadRun) (j : Nat) : Nat := if r.a.pages then r.a.kFirst + j else j
def HeadRun.qInt (r : HeadRun) (s : State) (i d : Nat) : Int := r.q.int s (d + r.x.headDim * (i + r.q.dim1 1 * r.h)) - r.q.zp
def HeadRun.qFp (r : HeadRun) (s : State) (i d : Nat) : U32 := r.q.fp s (d + r.x.headDim * (i + r.q.dim1 1 * r.h))
def HeadRun.kvInt (r : HeadRun) (s : State) (isV : Bool) (j d : Nat) : Int := (KvSource.int s r.x isV r.kvh (r.pos j) d).1
def HeadRun.kvE (r : HeadRun) (s : State) (isV : Bool) (j : Nat) : Int := (KvSource.int s r.x isV r.kvh (r.pos j) 0).2
def HeadRun.kvFp (r : HeadRun) (s : State) (isV : Bool) (j d : Nat) : U32 := KvSource.fp s r.x isV r.kvh (r.pos j) d

/-- The score of a row and key (09 R223): an exact integer dot product converted once, or a BF16 product, and the exact shift. -/
def HeadRun.score (r : HeadRun) (s : State) (n i j : Nat) : U32 :=
  let ds := List.range r.x.headDim
  if r.isFp then fmul (fpDot n (ds.map (fun d => (r.qFp s i d, r.kvFp s false j d)))).1 (intToFp 1 r.a.eScore)
  else intToFp (ds.map (fun d => r.qInt s i d * r.kvInt s false j d)).sum (r.q.e + r.kvE s false j + r.a.eScore)

/-- A probability as the value product takes it: INT16 at exponent −14, or BF16 (09 R223). -/
def pInt (p : U32) : Int := (fpToInt p (-14) (minOf 16) (maxOf 16)).1
def pBf16 (p : U32) : U32 := bf16To32 (toBf16 p)

/-- A row of one head between key blocks: the accumulators of the output, then *m* and *σ* (09 R223). -/
def rowStart (hd : Nat) : List Acc := List.replicate hd { val := 0 } ++ [{ val := 0xFF800000 }, { val := 0 }]
def accFp (l : List Acc) (i : Nat) : U32 := BitVec.ofInt 32 (l.getD i { val := 0 }).val

/-- The passes of a block of keys for a row: the score product over the head, the value product over the keys (09 R223). -/
def HeadRun.passes (r : HeadRun) (s : State) (i : Nat) (ks all : List Nat) (ps : List U32) : List PassOps :=
  let ds := List.range r.x.headDim
  let cut := fun (n w : Nat) => passSlices w 0 n
  if r.isFp then
    (cut r.x.headDim 16).map (fun sl => .fp ((span sl.1 sl.2).map (r.qFp s i)) ((span sl.1 sl.2).map (fun d => all.map (fun j => r.kvFp s false j d))))
      ++ (cut ks.length 16).map (fun sl => .fp ((ps.drop sl.1).take (sl.2 - sl.1))
          (((ks.drop sl.1).take (sl.2 - sl.1)).map (fun j => ds.map (fun d => r.kvFp s true j d))))
  else
    (cut r.x.headDim 64).map (fun sl => .int ((span sl.1 sl.2).map (r.qInt s i)) ((span sl.1 sl.2).map (fun d => all.map (fun j => r.kvInt s false j d))) 0)
      ++ (cut ks.length 32).map (fun sl => passRows .int16 (((ps.drop sl.1).take (sl.2 - sl.1)).map pInt)
          (((ks.drop sl.1).take (sl.2 - sl.1)).map (fun j => ds.map (fun d => r.kvInt s true j d))) 0)

/-- A row meets one block of keys (09 R223): the new accumulators, the flags raised and the passes made. `n` is the number of the first of its
sums. -/
def HeadRun.block (r : HeadRun) (s : State) (i n : Nat) (all : List Nat) (acc : List Acc) : List Acc × BitVec 16 × List PassOps :=
  let hd := r.x.headDim
  let ks := all.filter (fun j => r.a.allowed (r.a.qPos0 + i) (r.a.kFirst + j))
  let ss := ks.zipIdx.map (fun x => r.score s (n + x.2) i x.1)
  let m := accFp acc hd
  let mn := fmaxf m (ss.foldl fmaxf 0xFF800000)
  if ks.isEmpty then (acc, 0, r.passes s i [] all [])
  else if mn = 0xFF800000 then (acc, 0, r.passes s i [] all [])
  else
    let c := fexp r.draw (fsub m mn)
    let es := ss.map (fun x => fexp r.draw (fsub x mn))
    let ps := if r.isFp then es.map pBf16 else es.map (fun p => intToFp (pInt p) (-14))
    let n := n + ks.length
    let sigma := fadd (fmul (accFp acc (hd + 1)) c) (sum32 n ps)
    let o := (List.range hd).map (fun d =>
      let old := fmul (accFp acc d) c
      let was := (acc.getD d { val := 0 }).sat
      if r.isFp then
        let q := fpDot (n + 1 + d) (ps.zip (ks.map (fun j => r.kvFp s true j d)))
        (({ val := (fadd old q.1).toNat, sat := was } : Acc), q.2)
      else
        let q := accumulate 0 ((passSlices 32 0 ks.length).map (fun sl =>
          (((es.zip ks).drop sl.1).take (sl.2 - sl.1)).map (fun x => pInt x.1 * r.kvInt s true x.2 d) |>.sum))
        ({ val := (fadd old (intToFp q.1 (r.kvE s true (ks.headD 0) - 14))).toNat, sat := was || q.2 }, q.2))
    (o.map (·.1) ++ [{ val := mn.toNat }, { val := sigma.toNat }],
      flagIf (o.any (·.2)) (if r.isFp then flagInf else flagAccSat), r.passes s i ks all ps)

/-- A row goes over the key blocks of a cut that are not skipped, in ascending order (09 R222, R223). -/
def HeadRun.row (r : HeadRun) (s : State) (nq i n : Nat) (kbs : List Nat) (acc : List Acc) : List Acc × BitVec 16 × List PassOps :=
  (kbs.filter (fun kb => !r.a.skipped r.x.tokens nq (i / 64) kb)).zipIdx.foldl (fun x kb =>
    let q := r.block s i (n + kb.2 * (r.x.tokens + r.x.headDim + 1)) (r.a.blockKeys r.x.tokens kb.1) x.1
    (q.1, x.2.1 ||| q.2.1, x.2.2 ++ q.2.2)) (acc, 0, [])

/-- What an `ATTENTION` computes (09 R221 to R227): a row's accumulators pass from one tile command to the next, and its output is written
with its last key block. -/
def attentionProb (s : State) (c : Cmd) (j : Job) : Prob :=
  let b := c.pkt.block
  let q := descAt b 64
  let o := descAt b 256
  let st := descAt b 320
  let a := attnArgs c c.aux
  let x := kvSource c j
  let hd := q.dim 0
  let nq := q.dim1 1
  let run := fun h : Nat => ({ a := a, x := x, q := q, h := h, draw := j.draw } : HeadRun)
  let kPass := if x.fmt = 0x04 then 16 else 64
  let vPass := if x.fmt = 0x04 then 16 else 32
  let live := fun (t : WorkCut) => (span t.k0 t.k1).filter (fun kb => !a.skipped x.tokens nq (t.m0 / 64) kb)
  { rows := nq, cols := hd, batches := a.qHeads, depth := a.blocks x.tokens, unit := 1,
    block := fun t => t.m0 / 64 == (t.m1 - 1) / 64 && t.n0 == 0 && t.n1 == hd
    cycles := fun t => 40 + (live t).length * ((ceilDiv x.tokens 128 * ceilDiv hd kPass + ceilDiv hd 128 * ceilDiv x.tokens vPass) * max (t.m1 - t.m0) 32
      + ceilDiv ((t.m1 - t.m0) * (x.tokens + hd)) 128) + 24 + 8
    mode := if x.fmt = 0x04 then 4 else 0
    products := fun t => (live t).length * (t.m1 - t.m0) * (ceilDiv x.tokens 128 * ceilDiv hd kPass * 128 * kPass + ceilDiv hd 128 * ceilDiv x.tokens vPass * 128 * vPass)
    skipped := fun t => if t.batch = 0 ∧ t.m0 % 64 = 0 then (t.k1 - t.k0) - (live t).length else 0
    check := fun t rows => (span t.m0 t.m1).flatMap (fun i => ((run t.batch).row s nq i 0 (span t.k0 t.k1) (rows.getD (i - t.m0) (rowStart hd))).2.2)
    start := fun _ => rowStart hd
    extend := fun free t i acc => let r := (run t.batch).row s nq i free (span t.k0 t.k1) acc; (r.1, r.2.1)
    draws := fun t => (t.k1 - t.k0) * (x.tokens + hd + 1)
    values := fun _ _ _ ns acc => ns.map (fun d =>
      let sigma := accFp acc (hd + 1)
      (.fp (if !isNan sigma && decide (0 < fpKey sigma) then fdiv (accFp acc d) sigma else 0), 0))
    stats := if st.present then .own st (fun _ i acc n =>
        let m := accFp acc hd
        let sigma := accFp acc (hd + 1)
        natLe 4 m.toNat ++ natLe 4 sigma.toNat ++ natLe 4 (flogsum n (clog2 (a.keys i).length + 1) m sigma).toNat ++ zeroBytes 4)
      else .none
    outIdx := fun h i d => d + hd * (i + nq * h)
    bad := fun t =>
      let ks := (live t).flatMap (a.blockKeys x.tokens)
      ((cells t).map (fun y => q.badElem s (y.2 + hd * (y.1 + nq * t.batch)))
        ++ ks.flatMap (fun k => [KvSource.bad s x false (run t.batch).kvh ((run t.batch).pos k), KvSource.bad s x true (run t.batch).kvh ((run t.batch).pos k)])).findSome? id
    emptyRow := fun h i => h == 0 && (a.keys i).isEmpty
    emptyWindow := fun _ _ => false
    y := o }

/-- The sequence that an `ATTENTION` over pages reads. -/
def attnSeq (s : State) (c : Cmd) : Option Seqn := if blk c 7 1 = 0 then seqOf s c.fn (ctxHandle c.pkt) else none

/-- The sequence fits the command (09 R228). -/
def attnSeqOk (c : Cmd) (q : Seqn) : Bool :=
  let a := attnArgs c q.length
  let d := descAt c.pkt.block 64
  q.geom.kvHeads == a.kvHeads && q.geom.headDim == d.dim 0 && decide (a.layer < q.geom.layers)
    && q.geom.fmt == (if d.format = 0x04 then 0x04 else 0x01) && decide (a.kFirst + a.kLen ≤ q.length)
    && decide (a.kFirst ≤ q.length)

/-- `ATTENTION` starts (09 R228, R229). -/
def runAttention (c : Cmd) (s : State) : State := withContext c s (fun s =>
  let q := descAt c.pkt.block 64
  let a := attnArgs c 0
  let bad := a.pages && (match attnSeq s c with | some x => !attnSeqOk c x | none => true)
  let total := q.dim 0 * q.dim1 1 * a.qHeads
  if bad || !operandsPlaced s c then complete s c .badParam
  else if total = 0 then complete s c .dimEmpty
  else if !someUnit s (cmdCoppices c) (blk c 5 1) false then complete s c .cancelled
  else match attnSeq s c with
    | none => startJob s { c with res := zeroBytes 12 } { id := c.id, total := total }
    | some x =>
      startJob (addReader s x c.id) { c with aux := x.length, res := zeroBytes 12 }
        { id := c.id, total := total, pages := x.pages.filter (fun p => p.layer == a.layer) })

/-- Result of `ATTENTION` (09 Table 9.6). -/
def attentionResult (j : Job) : List Byte :=
  natLe 4 j.tileCmds ++ natLe 4 j.skipped ++ natLe 2 (min j.emptyRows 65535) ++ natLe 2 (j.outFlags.toNat % 64)

end Sys2Proof.Machine
end

