-- ==== Sys2Proof/Machine/Memory.lean ====
section
/-! DEFINITION. Memory management: `ALLOC`, `FREE`, `COPY`, `PLACE_HINT`, `QUOTA_SET` and `MEM_CONFIG` (12 R279 to R290). -/

namespace Sys2Proof.Machine

/-- A bit of `WARN` where a condition holds. -/
def Cmd.warns (c : Cmd) (b : Bool) (w : BitVec 8) : Cmd := if b then { c with warn := c.warn ||| w } else c

/-- Bytes `[a, 63]` are zero. -/
def inlineEnd (c : Cmd) (a : Nat) : Bool := restZero c a

/- ### ALLOC (12 R284 to R286) -/

/-- Size limit of a tier in `ALLOC`. -/
def tierLimit (tier : Nat) : Nat := if tier = 1 then 12 * mib else if tier = 2 then 15824 * mib else 100 * 1024 * mib

/-- What an `ALLOC` or a hint asks for. -/
structure PlaceReq where
  obj : Nat
  tier : Nat
  mode : Nat
  coppice : Nat
  groups : Nat
deriving DecidableEq, Repr

/-- The fields of a request that its packet alone decides. -/
def PlaceReq.ok (r : PlaceReq) : Bool :=
  ((decide (1 ≤ r.tier) && decide (r.tier ≤ 3)) || r.tier == 0xFF) && (decide (r.mode ≤ 1) || r.tier == 0xFF)
    && (decide (r.coppice ≤ 3) || r.coppice == 0xFF) && decide (r.groups < 16)

/-- Tiers of an AUTO placement by object (12 Table 12.7). -/
def autoTiers (obj : Nat) : List Nat :=
  if obj = 0 then [2, 3] else if obj = 1 then [1, 2] else if obj = 3 then [3, 2] else [2]

/-- The try order (12 R285). -/
def PlaceReq.order (r : PlaceReq) : List Nat :=
  if r.tier = 0xFF then autoTiers r.obj
  else if r.mode = 1 then [r.tier]
  else [r.tier] ++ [2, 3].filter (fun t => t != r.tier)

/-- The units named lie in the partition while their tier is in the try order (12 R285). -/
def PlaceReq.unitsOk (s : State) (fn : Fn) (r : PlaceReq) : Bool :=
  (!r.order.contains 1 || r.coppice == 0xFF || ownsCoppice s fn r.coppice)
  && (!r.order.contains 2 || (maskList r.groups).all (ownsGroup s fn))
  && (!r.order.contains 3 || (maskList r.groups).all (ownsNand s fn))

/-- The request with the hint of its object in place of the row of AUTO (12 R287); a limit of its own stands (R285; notes/assumptions/81.md). -/
def PlaceReq.hinted (s : State) (fn : Fn) (r : PlaceReq) : PlaceReq :=
  if r.tier ≠ 0xFF then r
  else match s.store.hints.find? (fun h => h.fn == fn && h.target == r.obj) with
    | some h => { obj := r.obj, tier := h.tier, mode := h.mode, coppice := (if r.coppice = 0xFF then h.coppice else r.coppice),
                  groups := (if r.groups = 0 then h.groups else r.groups) }
    | none => r

def allocReq (c : Cmd) : PlaceReq :=
  { obj := arg c 32 1, tier := arg c 33 1, mode := arg c 34 1, coppice := arg c 35 1, groups := arg c 36 1 }

/-- Coppices to try in tier 1: the named one, else by free `TIER1` quota, the most first. -/
def copsToTry (s : State) (fn : Fn) (cop : Nat) : List Nat :=
  if cop ≠ 0xFF then [cop]
  else sortOn (fun c => 8 - (quotaLimit s fn 3 c - quotaUsed s fn 3 c)) (coppicesOf s fn)

/-- Place in one tier. -/
def tryTier (s : State) (fn : Fn) (r : PlaceReq) (size tier : Nat) : Option (State × Nat × Bool) :=
  if tierLimit tier < size then none
  else if tier = 1 then
    (copsToTry s fn r.coppice).findSome? (fun c =>
      if quotaFits s fn 3 c (ceilDiv size waySize) then placeObject s fn 1 (2 ^ c) size r.obj 0 false else none)
  else placeObject s fn tier r.groups size r.obj 0 false

/-- Static conditions of `ALLOC` (12 R285). -/
def paramsAlloc (c : Cmd) : Bool :=
  let r := allocReq c
  decide (r.obj ≤ 4) && r.ok && decide (arg c 24 8 ≠ 0) && restZero c 37

/-- `ALLOC` (12 R285). -/
def runAlloc (c : Cmd) (s : State) : State :=
  let size := arg c 24 8
  let r := (allocReq c).hinted s c.fn
  if !r.unitsOk s c.fn || r.order.all (fun t => decide (tierLimit t < size)) then complete s c .badParam
  else match r.order.findSome? (fun t => (tryTier s c.fn r size t).map (fun x => (t, x))) with
    | none => complete s c .quota
    | some (t, s1, base, ev) =>
      complete s1 (c.warns ev warnEvicted) .ok
        (natLe 8 (addrField t base) ++ [BitVec.ofNat 8 t, BitVec.ofNat 8 (b2n (r.order.head? != some t)), 0, 0])

/- ### FREE (12 R288) -/

/-- The live allocation that a field names the base of. -/
def allocNamed (s : State) (fn : Fn) (v : Nat) : Option Alloc :=
  s.store.allocs.find? (fun a => a.fn == fn && decide (a.obj ≤ 4) && a.tier == tierOf v && a.base == offOf v)

def paramsFree (c : Cmd) : Bool := restZero c 32

/-- `FREE` waits for the earlier commands whose operands lie in the allocation. -/
def runFree (c : Cmd) (s : State) : State :=
  match allocNamed s c.fn (arg c 24 8) with
  | none => complete s c .badParam
  | some a =>
    let ids := (s.cmds.filter (fun d => d.fn == c.fn && decide (d.id < c.id) && usesAlloc d a)).map (·.id)
    setCmd s { c with phase := .parked .others, awaited := ids }

/-- The allocation's range and charge are released. -/
def resumeFree (c : Cmd) (s : State) : Option State :=
  if stillOpen s c.awaited then none
  else match allocNamed s c.fn (arg c 24 8) with
    | none => some (complete s c .badParam)
    | some a =>
      let s := { s with store := { s.store with allocs := s.store.allocs.filter (fun x => decide (x ≠ a)) } }
      some (complete s c .ok (natLe 8 a.size))

/- ### The readable device-owned structures (09 R206) -/

/-- A page-list entry (09 Table 9.2). -/
def entryOf (p : Option Page) : Nat :=
  match p with
  | some p => p.pfn + 2 ^ 20 * b2n p.valid + 2 ^ 21 * b2n p.shared + 2 ^ 22 * b2n p.fullRo
  | none => 0

/-- One page list of a sequence. -/
def listImage (q : Seqn) (layer : Nat) (isV : Bool) : List Byte :=
  let g := q.geom
  let place := fun i => q.pages.find? (fun p => p.layer == layer && p.isV == isV && p.index == i)
  let entries := (List.range g.pagesMax).flatMap (fun i => natLe 4 (entryOf (place i)))
  let shifts := if g.fmt = 0x01 then (List.range g.pagesMax).flatMap (fun i =>
    (List.range g.kvHeads).map (fun h => match place i with | some p => BitVec.ofInt 8 (p.shifts.getD h 0) | none => 0)) else []
  let body := entries ++ shifts
  body ++ zeroBytes (g.listBytes - body.length)

/-- The directory and lists of a sequence, as they stand from `q.dir` on (09 Table 9.1). -/
def dirImage (q : Seqn) : List Byte :=
  let g := q.geom
  let place := fun n => natLe 8 (addrField 2 (q.dir + 64 + 16 * g.layers + n * g.listBytes))
  natLe 2 1 ++ natLe 2 g.layers ++ natLe 4 q.length ++ natLe 2 g.tokens ++ natLe 1 g.fmt ++ [0] ++ natLe 2 g.kvHeads
    ++ natLe 2 g.headDim ++ natLe 4 g.pagesMax ++ natLe 4 q.pages.length ++ zeroBytes 40
    ++ (List.range g.layers).flatMap (fun l => place (2 * l) ++ place (2 * l + 1))
    ++ (List.range g.layers).flatMap (fun l => listImage q l false ++ listImage q l true)

/-- The sequence whose directory and lists hold a tier-2 range. -/
def dirHolding (s : State) (fn : Fn) (off len : Nat) : Option Seqn :=
  s.work.seqs.find? (fun q => q.fn == fn && inside off len q.dir q.charge)

/- ### COPY (12 R289) -/

/-- A field names a tier that `COPY` accepts. -/
def copyTier (v : Nat) : Bool := [1, 2, 3, 8].contains (tierOf v)

/-- Static conditions of `COPY`. -/
def paramsCopy (c : Cmd) : Bool :=
  let src := arg c 24 8
  let dst := arg c 32 8
  let len := arg c 40 8
  copyTier src && copyTier dst && decide (1 ≤ len) && decide (len ≤ 2 ^ 40) && restZero c 48
  && !(tierOf src == tierOf dst && overlap (offOf src) len (offOf dst) len)

/-- One side of a `COPY` is the tenant's (12 R280, R289). -/
def copySide (s : State) (fn : Fn) (v len : Nat) (src : Bool) : Bool :=
  tierOf v == 8 || ownsRange s fn (tierOf v) (offOf v) len
    || (src && tierOf v == 2 && (dirHolding s fn (offOf v) len).isSome)

/-- The bytes that a `COPY` reads from byte `done` on, up to the first that cannot be read, with the status that ends it. -/
def copyBytes (s : State) (c : Cmd) (src done n : Nat) : State × List Byte × Option Status :=
  if tierOf src = 8 then
    if c.isSealed then
      let bs := ((readSrc s c (offOf src) (done + n)).1.drop done).take n
      (s, bs, if bs.length < n then some .authFail else none)
    else (s, memReadN s.store.host (offOf src + done) n, none)
  else
    let r := checkedRead s c (dmaMaster c.fn) (tierOf src) (offOf src + done) n
    let bs := match (if tierOf src = 2 then dirHolding s c.fn (offOf src) (done + n) else none) with
      | some q => bytesAt (dirImage q) (offOf src + done - q.dir) n
      | none => tierRead s (tierOf src) (offOf src + done) n
    (r.1, bs, if r.2.isSome then some .poison else none)

/-- Add bytes to the sealed buffer that a `COPY` writes, whose tags so far stand in `misc` and whose nonce in `aux`: the header stands for
the bytes committed (13 R320, R321; notes/assumptions/80.md). -/
def sealMore (s : State) (c : Cmd) (a : Nat) (bs : List Byte) : State × Cmd :=
  let bn := if c.cnt = 0 then s.sess1.bnonce + 1 else c.aux
  let s := { s with sess1 := { s.sess1 with bnonce := max s.sess1.bnonce bn } }
  let u0 := c.cnt / 4096
  let e := (List.range (ceilDiv bs.length 4096)).map (fun u => Config.gcmSeal (s.sess1.keys.getD 3 0) (unitIv bn (u0 + u)) [] (bytesAt bs (4096 * u) 4096))
  let c := { c with aux := bn, misc := c.misc ++ e.map (fun x => leNat x.2) }
  let n := c.cnt + bs.length
  let s := hostOut s c.fn (a + 64 + c.cnt) (e.flatMap (·.1) ++ zeroBytes (roundUp n 64 - n) ++ c.misc.flatMap (natLe 16))
  (hostOut s c.fn a (natLe 8 bn ++ natLe 8 n ++ zeroBytes 48), c)

/-- The next 64 KiB unit of a `COPY`'s destination commits, or what it meets ends the command with the units before it standing (12 R289). -/
def copyUnit (c : Cmd) (s : State) : State :=
  let dst := arg c 32 8
  let len := arg c 40 8
  let n := min 65536 (len - c.cnt)
  let r := copyBytes s c (arg c 24 8) c.cnt n
  match r.2.2 with
  | some e => complete r.1 c e (natLe 8 c.cnt)
  | none =>
    let w : State × Cmd :=
      if tierOf dst = 8 then (if c.isSealed then sealMore r.1 c (offOf dst) r.2.1 else (hostOut r.1 c.fn (offOf dst + c.cnt) r.2.1, c))
      else (tierWrite r.1 (tierOf dst) (offOf dst + c.cnt) r.2.1, c)
    let c := { w.2 with cnt := c.cnt + n, res := natLe 8 (c.cnt + n) }
    if c.cnt = len then complete w.1 c .ok c.res else setCmd w.1 { c with phase := .parked .units }

/-- `COPY` starts: its first unit commits at once, and one more on every tick (12 R289; notes/assumptions/16.md). -/
def runCopy (c : Cmd) (s : State) : State :=
  let src := arg c 24 8
  let dst := arg c 32 8
  let len := arg c 40 8
  if !copySide s c.fn src len true || !copySide s c.fn dst len false then complete s c .badParam
  else if tierOf dst = 3 ∧ (nandCh s (offOf dst / nandSize)).readOnly then complete s c .quota
  else if tierOf src = 8 ∧ c.isSealed = true ∧ (readSrc s c (offOf src) len).2 = some .badParam then complete s c .badParam
  else copyUnit c s

/- ### PLACE_HINT (12 R287) -/

def hintReq (c : Cmd) : PlaceReq :=
  { obj := arg c 24 1, tier := arg c 25 1, mode := arg c 26 1, coppice := arg c 27 1, groups := arg c 28 1 }

/-- Static conditions of `PLACE_HINT`. -/
def paramsPlaceHint (c : Cmd) : Bool :=
  let r := hintReq c
  decide (r.obj ≤ 7) && r.ok && (decide (r.obj ≤ 4) || r.tier == 2 || r.tier == 0xFF) && restZero c 29

/-- `PLACE_HINT` (12 R287). -/
def runPlaceHint (c : Cmd) (s : State) : State :=
  let r := hintReq c
  if r.tier ≠ 0xFF ∧ !(if r.obj ≤ 4 then r.unitsOk s c.fn else (maskList r.groups).all (ownsGroup s c.fn)) then complete s c .badParam
  else
    let rest := s.store.hints.filter (fun h => !(h.fn == c.fn && h.target == r.obj))
    let new := if r.tier = 0xFF then [] else
      [{ fn := c.fn, target := r.obj, tier := r.tier, mode := r.mode, coppice := r.coppice, groups := r.groups : Hint }]
    complete { s with store := { s.store with hints := rest ++ new } } c .ok

/- ### QUOTA_SET (12 R282) -/

/-- Static conditions of `QUOTA_SET`. -/
def paramsQuotaSet (c : Cmd) : Bool :=
  decide (arg c 24 1 ≤ 1) && decide (arg c 25 1 ≤ 5) && (decide (arg c 25 1 = 3) || decide (arg c 26 1 = 0)) && argZero c 27 27
    && restZero c 32

/-- `QUOTA_SET`: sets or reads a limit (12 Table 12.5). -/
def runQuotaSet (c : Cmd) (s : State) : State :=
  let kind := arg c 25 1
  let cop := arg c 26 1
  let limit := arg c 28 4
  if (kind = 3 ∧ !ownsCoppice s c.fn cop) ∨ (arg c 24 1 = 0 ∧ quotaMax s c.fn kind < limit) then complete s c .badParam
  else
    let rest := s.store.quotas.filter (fun q => !(q.fn == c.fn && q.kind == kind && q.coppice == cop))
    let set : List Quota := rest ++ [{ fn := c.fn, kind := kind, coppice := cop, limit := limit }]
    let s := if arg c 24 1 = 1 then s else { s with store := { s.store with quotas := set } }
    complete s c .ok (natLe 8 (quotaUsed s c.fn kind cop) ++ natLe 4 (quotaLimit s c.fn kind cop))

/- ### MEM_CONFIG (12 R290) -/

/-- Every field of a `MEM_CONFIG` value lies in its range. -/
def memConfigOk (v : Nat) : Bool :=
  (List.range 4).all (fun g => decide (bits v (4 * g + 3) (4 * g) ≤ 8))
  && decide (256 ≤ bits v 30 16) && decide (bits v 30 16 ≤ 16384) && decide (10 ≤ bits v 39 32) && decide (bits v 39 32 ≤ 200)

/-- A grain change evicts the pool models of the group and empties its frame stores. -/
def grainChange (s : State) (g : Nat) : State :=
  let here := fun a : Nat => a / groupSize == g
  let s : State := (s.work.models.filter (fun m => m.resident.isSome &&
    s.store.allocs.any (fun a => a.fn == m.fn && a.obj == 20 && a.owner == m.id && here a.base))).foldl evictModel s
  let empty := fun (port : Nat) (x : Cam) =>
    if s.store.allocs.any (fun a => a.obj == 19 && a.owner == port && here a.base) then { x with frames := [] } else x
  { s with cam0 := empty 0 s.cam0, cam1 := empty 1 s.cam1 }

/-- A write of `MEM_CONFIG` on PF0: ignored while `CAPS_VALID` is clear (19 R409), and whole where a field is out of range; the grain fields change only while both
admin rings are disabled. -/
def writeMemConfig (s : State) (fn : Fn) (v : U64) : State :=
  let n := v.toNat
  if fn = .pf1 || !s.boot.capsValid || !memConfigOk n then s
  else
    let old := s.regs.memConfig.toNat
    let off := !s.regs.admin0.enable && !s.regs.admin1.enable
    let grain := if off then n % 65536 else old % 65536
    let changed := (List.range 4).filter (fun g => bits grain (4 * g + 3) (4 * g) != bits old (4 * g + 3) (4 * g))
    let s : State := changed.foldl grainChange s
    { s with regs := { s.regs with memConfig := BitVec.ofNat 64 (grain + 2 ^ 16 * bits n 30 16 + 2 ^ 32 * bits n 39 32) } }

end Sys2Proof.Machine
end

