-- ==== Sys2Proof/Machine/Backward.lean ====
section
/-! DEFINITION. Attention inside a model's program: which keys its rows see, and the backward pass of adapter training (09 R221, R226, R230,
R231). The program's own tensors are open values. -/

namespace Sys2Proof.Machine

/-- The attention fields of a layer of a graph image (09 R221), over `len` positions of a sequence, where query row 0 has position `q0`. -/
def imageAttn (image : List Byte) (layer q0 len : Nat) : AttnArgs :=
  let f := Config.attnFields image layer
  { causal := bit f.1 0, windowEn := bit f.1 1, prefixEn := bit f.1 2, pages := true, eScore := f.2.1, layer := layer, qPos0 := q0, kFirst := 0,
    kLen := len, window := f.2.2.1, pref := f.2.2.2, qHeads := Config.queryHeads image, kvHeads := 1 }

/-- Rows without an allowed key among positions `[a, b)` of a sequence, over the layers of a model (09 R226). -/
def emptyRowsOf (image : List Byte) (layers a b : Nat) : Nat :=
  ((List.range layers).map (fun l => ((List.range (b - a)).filter (fun i => ((imageAttn image l a b).keys i).isEmpty)).length)).sum

/-- One head's tensors in the backward pass: rows of FP32 patterns, and L of each query row. -/
structure BackHead where
  q : List (List U32)
  k : List (List U32)
  v : List (List U32)
  o : List (List U32)
  dO : List (List U32)
  l : List U32
deriving DecidableEq, Repr

/-- A BF16 product with FP32 accumulation of two rows, rounded to BF16 on the way in (06 R135, 09 R230). -/
def dotBf16 (n : Nat) (x y : List U32) : U32 := (fpDot n ((x.map pBf16).zip (y.map pBf16))).1

/-- Column `i` of a list of rows. -/
def column (m : List (List U32)) (i : Nat) : List U32 := m.map (fun r => r.getD i 0)

/-- The backward pass of one head (09 R230): d*Q*, d*K* and d*V*, where `vis` says which pairs R221 allows and the draws start at `n`. -/
def backward (n : Nat) (e : Int) (vis : Nat → Nat → Bool) (h : BackHead) : List (List U32) × List (List U32) × List (List U32) :=
  let nk := h.k.length
  let hd := (h.q.headD []).length
  let scale := fun x : U32 => fmul x (intToFp 1 e)
  let p := h.q.zipIdx.map (fun qi => h.k.zipIdx.map (fun kj =>
    let l := h.l.getD qi.2 0xFF800000
    if !vis qi.2 kj.2 || l == 0xFF800000 then 0 else pBf16 (fexp n (fsub (scale (dotBf16 (n + 1) qi.1 kj.1)) l))))
  let d := (h.dO.zip h.o).map (fun x => dotBf16 (n + 2) x.1 x.2)
  let dp := h.dO.map (fun r => h.v.map (dotBf16 (n + 3) r))
  let ds := (p.zip (dp.zip d)).map (fun x => (x.1.zip x.2.1).map (fun y => fmul y.1 (fsub y.2 x.2.2)))
  (ds.map (fun r => (List.range hd).map (fun i => scale (dotBf16 (n + 4) r (column h.k i)))),
    (List.range nk).map (fun j => (List.range hd).map (fun i => scale (dotBf16 (n + 5) (column ds j) (column h.q i)))),
    (List.range nk).map (fun j => (List.range hd).map (fun i => dotBf16 (n + 6) (column p j) (column h.dO i))))

/-- FP32 sum of matrices of one shape, element by element: d*K* and d*V* over the query heads that share a KV head (09 R230). -/
def addRows (n : Nat) (l : List (List (List U32))) : List (List U32) :=
  let m := l.headD []
  (List.range m.length).map (fun i => (List.range (m.headD []).length).map (fun d => sum32 n (l.map (fun x => (x.getD i []).getD d 0))))

/-- A table of open FP32 values. -/
def freeRows (n rows cols : Nat) : List (List U32) := (List.range rows).map (fun i => (List.range cols).map (fun d => Config.freeBits (n + i * cols + d)))

/-- A key or value of a committed page as FP32: INT8 widens exactly at its shift (09 R230). -/
def pageValue (s : State) (g : KvGeom) (p : Page) (h t d : Nat) : U32 :=
  let eb := elemBytes g.fmt
  let bs := tierRead s 2 (p.pfn * 65536 + pageByte g.tokens g.headDim eb h t d) eb
  if g.fmt = 0x01 then intToFp (sfield bs 0 1) (p.shifts.getD h 0) else bf16To32 (leNat bs)

/-- Keys or values of a layer and head of a prefix (09 R231). -/
def prefixRows (s : State) (q : Seqn) (len layer : Nat) (isV : Bool) (h : Nat) : List (List U32) :=
  (List.range len).map (fun j =>
    match q.pages.find? (fun p => p.layer == layer && p.isV == isV && p.index == j / q.geom.tokens) with
    | some p => (List.range q.geom.headDim).map (pageValue s q.geom p h (j % q.geom.tokens))
    | none => [])

/-- Draws of one query head of `n` positions: its tensors and its sums. -/
def headDraws (g : KvGeom) (n : Nat) : Nat := 5 * n * g.headDim + n + 8

/-- What the backward pass of a layer gives: d*Q* of each query head, and d*K* and d*V* of each KV head at the training positions alone (09 R231). Q, the new K and
V, O, L and dO are the program's. -/
def layerBackward (s : State) (image : List Byte) (g : KvGeom) (pre : Option (Seqn × Nat)) (layer n draw : Nat) : List (List (List U32)) :=
  let qh := max 1 (Config.queryHeads image)
  let share := max 1 (qh / max 1 g.kvHeads)
  let p0 := (pre.map (·.2)).getD 0
  let a := imageAttn image layer p0 (p0 + n)
  let size := n * g.headDim
  let rows := fun (isV : Bool) (kh : Nat) =>
    (match pre with | some x => prefixRows s x.1 x.2 layer isV kh | none => [])
      ++ freeRows (draw + qh * headDraws g n + (2 * kh + b2n isV) * size) n g.headDim
  let heads := (List.range qh).map (fun h =>
    let n0 := draw + h * headDraws g n
    let kh := h / share
    backward (n0 + 5 * size + n) a.eScore (fun i j => a.allowed (p0 + i) j)
      { q := freeRows n0 n g.headDim, k := rows false kh, v := rows true kh, o := freeRows (n0 + size) n g.headDim,
        dO := freeRows (n0 + 2 * size) n g.headDim,
        l := (List.range n).map (fun i => if (a.keys i).isEmpty then 0xFF800000 else Config.freeBits (n0 + 5 * size + i)) })
  let kv := fun (f : List (List U32) × List (List U32) × List (List U32) → List (List U32)) => (List.range g.kvHeads).map (fun kh =>
    addRows (draw + kh) (((heads.zipIdx.filter (fun x => x.2 / share == kh)).map (fun x => (f x.1).drop p0))))
  heads.map (·.1) ++ kv (·.2.1) ++ kv (·.2.2)

/-- Draws of a layer. -/
def layerDraws (image : List Byte) (g : KvGeom) (n : Nat) : Nat := max 1 (Config.queryHeads image) * headDraws g n + 2 * g.kvHeads * n * g.headDim

end Sys2Proof.Machine
end

