-- ==== Sys2Proof/Machine/Recurrence.lean ====
section
/-! DEFINITION. Recurrence layers: their tables, scan chunks and what one chunk computes (10 R233 to R240). The streams that enter a layer come
from the model's program and are open values. -/

namespace Sys2Proof.Machine

/- ### Sizes (10 R233, R236, R242) -/

/-- Layers of a graph image: `CHANNELS` and `STATE_N`, in their ranges (10 R233). -/
def layersOf (image : List Byte) : List (Nat × Nat) :=
  (Config.recurrenceLayers image).map (fun l => (max 1 (min 16384 l.1), max 1 (min 256 l.2)))

/-- Wide size of a model's carried state (10 R242). -/
def wideSize (m : Model) : Nat := ((layersOf m.image).map (fun l => l.1 * l.2 * 4)).sum

/-- `CHUNK_LEN` of a graph image, in its range (10 R236). -/
def chunkOf (image : List Byte) : Nat := max 1 (min 256 (Config.chunkLen image))
def Model.chunk (m : Model) : Nat := chunkOf m.image

/-- Marks of a `STREAM_CHUNK`. -/
def marksOf (c : Cmd) : List Nat := (List.range (blk c 2 2)).map (fun i => blk c (192 + 2 * i) 2)

/-- Length of the scan chunk that starts at a position of a command, and whether a mark ended it (10 R236). -/
def scanChunk (c : Cmd) (len pos : Nat) : Nat × Bool :=
  let plain := min len (blk c 4 4 - pos)
  match ((marksOf c).filter (fun k => decide (pos ≤ k))).drop 8 with
  | k :: _ => if k - pos < plain then (k - pos, true) else (plain, false)
  | [] => (plain, false)

/-- Positions of the whole scan chunks from `pos` that fit in `n`; `fuel` bounds the chunks. -/
def wholeChunks (c : Cmd) (len pos n : Nat) : Nat → Nat
  | 0 => 0
  | k + 1 =>
    let l := (scanChunk c len pos).1
    if l = 0 ∨ n < l then 0 else l + wholeChunks c len (pos + l) (n - l) k

/- ### Decay (10 R234, R238) -/

/-- A *λ* above 0 is taken as 0; the flag says that it was (10 R234). -/
def lamClamp (x : U32) : U32 × Bool := if !isNan x && decide (0 < fpKey x) then (0, true) else (x, false)

/-- A decay factor: the exponential of a sum that is 0 or less, never above 1 (10 R238). -/
def decay (n : Nat) (x : U32) : U32 :=
  let f := fexp n (lamClamp x).1
  if !isNan f && decide (fpKey 0x3F800000 < fpKey f) then 0x3F800000 else f

/-- *λ* of a FIXED layer: ln *a*, with ln 0 = −∞ (10 R234). -/
def fixedLambda (image : List Byte) (l c n : Nat) : U32 × Bool := lamClamp (fpBits 24 (lnFp (fpOf (Config.layerConst image l 0 c n))))

/-- *a* of a FIXED layer; one above 1 counts as 1, since its *λ* counts as 0. -/
def fixedA (image : List Byte) (l c n : Nat) : U32 :=
  let a := Config.layerConst image l 0 c n
  if (lamClamp (fpBits 24 (lnFp (fpOf a)))).2 then 0x3F800000 else a

/- ### The tables of FIXED layers (10 R235) -/

/-- An exact power. -/
def fpPow (a : Fp) : Nat → Fp
  | 0 => .fin false 1 0
  | k + 1 => fpMul a (fpPow a k)

/-- *a*^`t` in FP32, within relative 2⁻²⁰ (10 Table 10.3). -/
def powerOf (a : U32) (t : Nat) : U32 :=
  let exact := fpPow (fpOf a) t
  let got := Config.powPick a t
  if relWithin 1 20 (fpOf got) exact then got else fpBits 24 exact

/-- The tables of one channel: *k* for each lag below `CHUNK_LEN`, then the powers up to `CHUNK_LEN` of each state element, in BF16 (10 R234, R235). -/
def channelTables (image : List Byte) (l n c : Nat) : List Nat :=
  let len := chunkOf image
  let pw := (List.range n).map (fun i => (List.range (len + 1)).map (powerOf (fixedA image l c i)))
  let k := (List.range len).map (fun t =>
    let terms := (List.range n).map (fun i =>
      fmul (fmul (Config.layerConst image l 2 c i) ((pw.getD i []).getD t 0)) (Config.layerConst image l 1 c i))
    toBf16 (sum32 (len * c + t) (if t = 0 then Config.layerConst image l 3 c 0 :: terms else terms)))
  k ++ pw.flatMap (·.map toBf16)

/-- The tables of a model: by layer and channel, none for a GATED layer. -/
def tablesOf (image : List Byte) : List (List (List Nat)) :=
  (layersOf image).zipIdx.map (fun l => if Config.layerGated image l.2 then [] else (List.range l.1.1).map (channelTables image l.2 l.1.2))

/-- Bytes that the tables take in the shared pool. -/
def tableBytesOf (image : List Byte) : Nat :=
  let len := chunkOf image
  ((layersOf image).zipIdx.map (fun l => if Config.layerGated image l.2 then 0 else l.1.1 * 2 * (len + l.1.2 * (len + 1)))).sum

/- ### One layer of a scan chunk (10 R237, Table 10.2) -/

/-- A layer's run over one scan chunk: its length and marks, `CHANNELS`, `STATE_N`, the draws of its sums and exponentials, the carried-in and initial state
by channel and element, and the inputs in BF16 by position and channel. -/
structure LayerRun where
  len : Nat
  marks : List Nat
  channels : Nat
  n : Nat
  draw : Nat
  hin : Nat → Nat → U32
  hinit : Nat → Nat → U32
  x : Nat → Nat → U32

/-- Start of the segment of a position: the last mark at or before it, or 0 (10 R237). -/
def LayerRun.start (r : LayerRun) (t : Nat) : Nat := (r.marks.filter (fun k => decide (k ≤ t))).getLastD 0

/-- *h*start of the segment that starts at `m` (10 R237, R240). -/
def LayerRun.hstart (r : LayerRun) (m c i : Nat) : U32 := if r.marks.contains m then r.hinit c i else r.hin c i

/-- Positions of the segment of `t` up to `t`: no other position contributes to its output. -/
def LayerRun.seen (r : LayerRun) (t : Nat) : List Nat := span (r.start t) (t + 1)

/-- Positions of the last segment, from which the state is carried on. -/
def LayerRun.last (r : LayerRun) : List Nat := span (r.start (r.len - 1)) r.len

/-- First draw of a channel's, and of a head's, sums. -/
def LayerRun.drawAt (r : LayerRun) (c : Nat) : Nat := r.draw + 1 + c * (r.len * r.len + 4 * r.len + 2 * r.n)

/-- Draws of the layer. -/
def LayerRun.draws (r : LayerRun) : Nat := 1 + r.channels * (r.len * r.len + 4 * r.len + 2 * r.n)

/-- Segmented prefix sums Λ of a list of *λ* by position, in FP32 (10 R239). -/
def LayerRun.sums (r : LayerRun) (k : Nat) (lams : List U32) : List U32 :=
  (List.range r.len).map (fun t => sum32 (k + t) ((r.seen t).map (fun i => lams.getD i 0)))

/-- *h*out of a channel: the decayed *h*start of the last segment and the part *U* that starts from zero (10 R239). -/
def LayerRun.carry (r : LayerRun) (c : Nat) (total : Nat → U32) (u : Nat → U32) : List U32 :=
  (List.range r.n).map (fun i => fadd (fmul (decay r.draw (total i)) (r.hstart (r.start (r.len - 1)) c i)) (u i))

/-- A channel of a GATED layer: head `h` gives Λ, *B*, *C* by position and element; `d` is *D* (10 Table 10.2). -/
def LayerRun.gated (r : LayerRun) (h c : Nat) (lam : List U32) (b cv : Nat → Nat → U32) (d : U32) : List U32 × List U32 :=
  let k := r.drawAt h
  let q := r.drawAt c + r.len * r.len + r.len
  let ns := List.range r.n
  let fac := fun (t i : Nat) => decay r.draw (fsub (lam.getD t 0) (lam.getD i 0))
  let g := fun (t i : Nat) => pBf16 (fmul (dotBf16 (k + r.len * t + i) (ns.map (cv t)) (ns.map (b i))) (fac t i))
  let y := (List.range r.len).map (fun t =>
    let intra := dotBf16 (q + t) ((r.seen t).map (g t)) ((r.seen t).map (fun i => r.x i c))
    let inter := fmul (decay r.draw (lam.getD t 0)) (dotBf16 (q + r.len + t) (ns.map (cv t)) (ns.map (r.hstart (r.start t) c)))
    fadd (fadd intra (fmul d (r.x t c))) inter)
  (y, r.carry c (fun _ => lam.getD (r.len - 1) 0) (fun n =>
    dotBf16 (q + 2 * r.len + n) (r.last.map (fun i => fmul (fac (r.len - 1) i) (b i n))) (r.last.map (fun i => r.x i c))))

/-- A channel of a FIXED layer with its tables; `len` is the `CHUNK_LEN` they were built for (10 Table 10.2). -/
def LayerRun.fixed (r : LayerRun) (c len : Nat) (tab : List Nat) (lam b cv : Nat → U32) : List U32 × List U32 :=
  let q := r.drawAt c
  let ns := List.range r.n
  let kern := fun t : Nat => bf16To32 (tab.getD t 0)
  let pw := fun (n t : Nat) => bf16To32 (tab.getD (len + n * (len + 1) + t) 0)
  let y := (List.range r.len).map (fun t =>
    fadd (dotBf16 (q + t) ((r.seen t).map (fun i => kern (t - i))) ((r.seen t).map (fun i => r.x i c)))
      (dotBf16 (q + r.len + t) (ns.map (fun n => fmul (cv n) (pw n (t - r.start t + 1)))) (ns.map (r.hstart (r.start t) c))))
  (y, r.carry c (fun n => sum32 (q + 2 * r.len + n) (r.last.map (fun _ => lam n))) (fun n =>
    dotBf16 (q + 2 * r.len + r.n + n) (r.last.map (fun i => fmul (pw n (r.len - 1 - i)) (b n))) (r.last.map (fun i => r.x i c))))

/-- An input of a layer in BF16: 8-bit integers widen exactly, `INT16` rounds (10 R238, 06 R143). -/
def widenInput (fmt : Nat) (e zp : Int) (v : U32) : U32 :=
  if fmt = 0x04 then bf16To32 (v.toNat % 65536)
  else
    let n := 8 * elemBytes fmt
    let i : Int := if fmt = 0x02 then (v.toNat % 256 : Nat) else (BitVec.ofNat n v.toNat).toInt
    pBf16 (intToFp (i - zp) e)

/-- An open stream of the program: element `i` of quantity `q` at a position (0 *x*, 1 Δ, 2 *B*, 3 *C*, 4 *g*). -/
def layerStream (image : List Byte) (l draw q t c i : Nat) : U32 := Config.layerIn image l draw q t c i

/-- What a layer computes for a chunk: its outputs by position and channel, the state it carries on and whether a *λ* was clamped (10 R233 to
R238). -/
def runLayer (image : List Byte) (l : Nat) (tables : List (List Nat)) (r : LayerRun) : List (List U32) × List U32 × Bool :=
  let hc := max 1 (Config.layerHeadCh image l)
  let lam := fun h : Nat => (List.range r.len).map (fun t => lamClamp (fmul (layerStream image l r.draw 1 t h 0) (Config.layerConst image l 0 h 0)))
  let gate := fun (t c : Nat) (y : U32) => if Config.layerGate image l then fmul y (bf16To32 ((layerStream image l r.draw 4 t c 0).toNat % 65536)) else y
  let out := (List.range r.channels).map (fun c =>
    if Config.layerGated image l then
      let h := c / hc
      let x := r.gated h c (r.sums (r.drawAt h + r.len * r.len) ((lam h).map (·.1))) (fun t i => layerStream image l r.draw 2 t h i)
        (fun t i => layerStream image l r.draw 3 t h i) (Config.layerConst image l 3 c 0)
      (x.1.zipIdx.map (fun y => gate y.2 c y.1), x.2, (lam h).any (·.2))
    else
      let x := r.fixed c (chunkOf image) (tables.getD c []) (fun n => (fixedLambda image l c n).1) (Config.layerConst image l 1 c) (Config.layerConst image l 2 c)
      (x.1, x.2, (List.range r.n).any (fun n => (fixedLambda image l c n).2)))
  ((List.range r.len).map (fun t => out.map (fun o => o.1.getD t 0)), out.flatMap (·.2.1), out.any (·.2.2))

/-- A layer's output element as it leaves `OUTQ` (06 R153). -/
def layerQuant (image : List Byte) (l : Nat) (y : U32) : Nat :=
  let f := Config.layerOutput image l
  leNat (outq { descAt [] 0 with format := f.1, zp := f.2.1, e := f.2.2 } (.fp y)).1

/-- What a scan chunk computes: the layers' outputs, the carried state, whether a *λ* was clamped, and the draws used. -/
structure ScanResult where
  ys : List (List (List Nat))
  carried : List U32
  clamped : Bool
  draw : Nat

/-- The layers of a scan chunk of `len` positions with its marks, in model order: the carried-in and initial state stand layer after layer, element (*c*, *n*)
at *c* × `STATE_N` + *n* (10 R237, Table 10.8). -/
def runScan (m : Model) (len : Nat) (marks : List Nat) (carried init : List U32) (draw : Nat) : ScanResult :=
  ((layersOf m.image).zipIdx.foldl (fun (x : ScanResult × Nat) l =>
    let n := l.1.2
    let f := Config.layerInput m.image l.2
    let r : LayerRun := { len := len, marks := marks, channels := l.1.1, n := n, draw := x.1.draw,
                          hin := fun c i => carried.getD (x.2 + c * n + i) 0, hinit := fun c i => init.getD (x.2 + c * n + i) 0,
                          x := fun t c => widenInput f.1 f.2.2 f.2.1 (layerStream m.image l.2 x.1.draw 0 t c 0) }
    let q := runLayer m.image l.2 (m.tables.getD l.2 []) r
    ({ ys := x.1.ys ++ [q.1.map (·.map (layerQuant m.image l.2))], carried := x.1.carried ++ q.2.1, clamped := x.1.clamped || q.2.2,
       draw := x.1.draw + r.draws }, x.2 + l.1.1 * n))
    ({ ys := [], carried := [], clamped := false, draw := draw }, 0)).1

end Sys2Proof.Machine
end

