-- ==== Sys2Proof/Machine/Models.lean ====
section
/-! DEFINITION. The model cache: graph images and their sections, `MODEL_LOAD`, residency, pins, eviction and `MODEL_INFO` (11
R271 to R274, R446, R448). -/

namespace Sys2Proof.Machine

/- ### Graph images (11 Table 11.7, Table 11.11) -/

/-- A section-table entry. -/
structure Section where
  type : Nat
  off : Nat
  len : Nat
deriving DecidableEq, Repr

/-- The section table of an image. -/
def sectionsOf (img : List Byte) : List Section :=
  (List.range (field img 6 2)).map (fun i =>
    let o := field img 16 8 + 32 * i
    { type := field img o 2, off := field img (o + 8) 8, len := field img (o + 16) 8 })

def sectionOf (img : List Byte) (ty : Nat) : Option Section := (sectionsOf img).find? (fun x => x.type == ty)

/-- No two ranges of a list overlap. -/
def disjoint : List (Nat × Nat) → Bool
  | [] => true
  | r :: t => t.all (fun q => !overlap r.1 r.2 q.1 q.2) && disjoint t

/-- The header and section table of a graph image hold together (11 Table 11.7). -/
def imageHeaderOk (pkg : List Byte) : Bool :=
  let n := field pkg 6 2
  let size := field pkg 8 8
  let tab := field pkg 16 8
  let secs := sectionsOf pkg
  let cnt := fun ty => (secs.filter (fun x => x.type == ty)).length
  bytesAt pkg 0 4 == [0x57, 0x59, 0x47, 0x49] && field pkg 4 2 == 1 && decide (1 ≤ n) && decide (n ≤ 64)
  && decide (64 ≤ size) && decide (size ≤ pkg.length) && tab % 64 == 0 && decide (tab + 32 * n ≤ size)
  && decide (1 ≤ field pkg 24 1) && decide (field pkg 24 1 ≤ 4) && decide (1 ≤ field pkg 25 1) && decide (field pkg 25 1 ≤ 8)
  && zeroAt pkg 26 63
  && (List.range n).all (fun i => zeroAt pkg (tab + 32 * i + 2) (tab + 32 * i + 7) && zeroAt pkg (tab + 32 * i + 24) (tab + 32 * i + 31))
  && secs.all (fun x => decide (1 ≤ x.type) && decide (x.type ≤ 8) && x.off % 64 == 0 && decide (x.off + x.len ≤ size))
  && [1, 2, 3, 4].all (fun ty => cnt ty == 1) && [5, 6, 7, 8].all (fun ty => decide (cnt ty ≤ 1))
  && disjoint ((0, 64) :: (tab, 32 * n) :: secs.map (fun x => (x.off, x.len)))

/-- The 64-byte entries of a section. -/
def entriesOf (img : List Byte) (x : Section) : List (List Byte) :=
  (List.range (x.len / 64)).map (fun i => bytesAt img (x.off + 64 * i) 64)

/-- A template: no address, a known format, a rank of 1 to 5. -/
def templateOk (bs : List Byte) : Bool :=
  let d := descAt bs 0
  field bs 0 8 == 0 && knownFormat d.format && decide (1 ≤ d.rank) && decide (d.rank ≤ 5)

/-- `INPUT` and `OUTPUT` sections (11 Table 11.11). -/
def portsOk (img : List Byte) (ty : Nat) : Bool :=
  match sectionOf img ty with
  | some x => x.len % 64 == 0 && decide (1 ≤ x.len / 64) && decide (x.len / 64 ≤ 8) && (entriesOf img x).all templateOk
  | none => false

/-- Weight descriptors of an image. -/
def weightDescs (img : List Byte) : List Desc :=
  match sectionOf img 4 with
  | some x => (entriesOf img x).map (descAt · 0)
  | none => []

/-- The `WEIGHTS` section against its package (11 R448, R449). -/
def weightsOk (pkg : List Byte) : Bool :=
  match sectionOf pkg 4 with
  | some x => x.len % 64 == 0 && (weightDescs pkg).all (fun d => d.present && d.ok false && d.tier == 0
      && decide (field pkg 8 8 ≤ d.off) && decide (d.off + d.extent ≤ pkg.length))
      && (weightDescs pkg).all (fun d => d.form != 2 || (let h := bytesAt pkg (d.off + d.aux) 64; d.regionsOk (field h 8 4) (field h 12 4)))
      && disjoint ((weightDescs pkg).map (fun d => (d.off, d.extent)))
  | none => false

/-- The `KV` section (11 Table 11.11). -/
def kvOf (img : List Byte) : Option KvGeom :=
  (sectionOf img 5).map (fun x =>
    { layers := field img x.off 2, kvHeads := field img (x.off + 2) 2, headDim := field img (x.off + 4) 2, fmt := field img (x.off + 6) 1 })

/-- The `KV` section keeps the ranges of 11 Table 11.11; the geometry itself is checked when a sequence is created (R275). -/
def kvSectionOk (img : List Byte) : Bool :=
  match sectionOf img 5 with
  | none => true
  | some x => x.len == 16 && zeroAt img (x.off + 7) (x.off + 15)
      && (match kvOf img with
          | some g => decide (1 ≤ g.layers) && decide (g.layers ≤ 256) && (g.fmt == 0x01 || g.fmt == 0x04)
          | none => true)

def trainingOk (img : List Byte) : Bool :=
  match sectionOf img 7 with
  | none => true
  | some x => decide (192 ≤ x.len) && (List.range 3).all (fun i => templateOk (bytesAt img (x.off + 64 * i) 64))

/-- A package can be installed (11 R274, R448). The consistency of the sections that lie outside the manual is a function of
the image that nothing here fixes. -/
def packageOk (pkg : List Byte) : Bool :=
  decide (64 ≤ pkg.length) && imageHeaderOk pkg && portsOk pkg 2 && portsOk pkg 3 && weightsOk pkg && kvSectionOk pkg && trainingOk pkg
    && Config.imageConsistent (pkg.take (field pkg 8 8))

/-- Charged sizes of a package: the image and each weight extent, rounded to 64 KiB (11 R274). -/
def packagePieces (pkg : List Byte) : List Nat :=
  roundUp (field pkg 8 8) 65536 :: (weightDescs pkg).map (fun d => roundUp d.extent 65536)

/-- The model that a package installs. -/
def modelFrom (fn : Fn) (id : Nat) (pkg : List Byte) : Model :=
  let img := pkg.take (field pkg 8 8)
  let sec := fun ty => match sectionOf img ty with | some x => entriesOf img x | none => []
  { fn := fn, id := id, image := img, inputs := sec 2, outputs := sec 3, weights := sec 4, training := (sec 7).take 3, kv := kvOf img,
    recurrent := (sectionOf img 6).isSome, minCoppices := field img 24 1, minTiles := field img 25 1,
    imageDigest := Config.sha3 img, weightsDigest := Config.sha3 (pkg.drop img.length), extent := (packagePieces pkg).sum }

/-- Charged sizes of an installed model. -/
def Model.pieces (m : Model) : List Nat :=
  roundUp m.image.length 65536 :: m.weights.map (fun w => roundUp (descAt w 0).extent 65536)

/-- Space of a model in the shared pool: its image and weights, and the tables of its FIXED layers (10 R235, 07 R163). -/
def Model.poolPieces (m : Model) : List Nat :=
  let t := tableBytesOf m.image
  m.pieces ++ (if t = 0 then [] else [t])

/- ### Places -/

/-- Place several regions of one owner, all or none; the flag says that a model was evicted. -/
def placeAll (place : State → Nat → Option (State × Nat × Bool)) (s : State) : List Nat → Option (State × Bool)
  | [] => some (s, false)
  | n :: t => (place s n).bind (fun r => (placeAll place r.1 t).map (fun q => (q.1, r.2.2 || q.2)))

/-- Start the residency of an installed model with the places that `place` finds: its space is taken from the pool now. Nothing where no
model can be evicted for it. -/
def startResidencyBy (place : State → Nat → Option (State × Nat × Bool)) (s : State) (m : Model) : Option (State × Bool) :=
  if m.loading then some (s, false)
  else (placeAll place s m.poolPieces).map (fun r => (setModel r.1 { m with loading := true }, r.2))

/-- Start a residency for a command (11 R271), placed as the hint of pool models says. -/
def startResidency (s : State) (m : Model) : Option (State × Bool) :=
  startResidencyBy (fun s n => placeHinted s m.fn 7 n 20 m.id true) s m

/-- Start the residency of a wake's model: it lies in the channel groups that the wake powers (01 R15). -/
def wakeResidency (s : State) (m : Model) (groups : Nat) : Option (State × Bool) :=
  if groups = 0 then startResidency s m else startResidencyBy (fun s n => placeObject s m.fn 2 groups n 20 m.id true) s m

/-- The model a parked command waits for (11 R271). -/
def modelNeeded (s : State) (c : Cmd) : Nat :=
  match c.op with
  | .modelLoad => c.aux
  | .modelPin | .seqCreate => arg c 24 2
  | .graphRun | .trainStep => blk c 2 2
  | .seqAppend => match seqOf s c.fn (ctxHandle c.pkt) with | some q => q.model | none => 0
  | .streamChunk => match streamOf s c.fn (ctxHandle c.pkt) with | some x => x.model | none => 0
  | .listenPolicy | .cameraConfig => c.aux
  | _ => 0

/-- A command needs a model that is not resident: the residency starts and the command writes `RESIDENCY_WAIT` and waits. -/
def awaitModel (s : State) (c : Cmd) (m : Model) (handle : Nat) : State :=
  let r := (startResidency s m).getD (s, false)
  residencyWait r.1 (c.warns (r.2 || m.wasEvicted) warnEvicted) handle

/-- A model that a parked command waits for has become resident: `RESIDENCY_END` is written. Where its space could not be found
before, it is looked for again. -/
def residencyEnded (s : State) (c : Cmd) (m : Model) (handle : Nat) : Option (State × Cmd) :=
  if m.resident.isSome then
    let c' : Cmd := { c with phase := .running }
    some (progress (setCmd s c') c' 0x0004 handle false, c')
  else none

/-- Look again for the space of a model whose residency has not started. -/
def retryResidency (s : State) (c : Cmd) (m : Model) : Option State :=
  if m.resident.isSome || m.loading then none
  else (startResidency s m).map (fun r => setCmd r.1 (c.warns r.2 warnEvicted))

/- ### MODEL_LOAD (11 R274) -/

/-- Static conditions of `MODEL_LOAD`. -/
def paramsModelLoad (c : Cmd) : Bool :=
  decide (arg c 24 1 ≤ 2) && argZero c 25 25 && (decide (arg c 24 1 ≠ 1) || decide (arg c 26 2 ≠ 0)) && restZero c 44

/-- Result of `MODEL_LOAD`. -/
def loadResult (m : Model) : List Byte := natLe 2 m.id ++ zeroBytes 2 ++ natLe 8 m.extent

/-- Residency of a load: complete at once, wait, or `QUOTA` where no model can be evicted (11 R272). Unlike the commands that R271
names, a load writes no residency records. -/
def loadResident (c : Cmd) (m : Model) (s : State) : State :=
  let c := { c with aux := m.id, res := loadResult m }
  if m.resident.isSome then complete s c .ok (loadResult m)
  else match startResidency s m with
    | none => complete s c .quota
    | some r => park r.1 (c.warns (r.2 || m.wasEvicted) warnEvicted) .residency

/-- Install a package (11 R274): everything it charges fits the store, or nothing happens. -/
def installModel (c : Cmd) (id : Nat) (pkg : List Byte) (s : State) : State :=
  let m := modelFrom c.fn id pkg
  match placeAll (fun s n => placeObject s c.fn 3 0 n 22 id false) s m.pieces with
  | none => complete s c .quota
  | some r =>
    let bases := (r.1.store.allocs.filter (fun a => a.fn == c.fn && a.tier == 3 && a.obj == 22 && a.owner == id)).map (·.base)
    let parts := m.image :: (weightDescs pkg).map (fun d => bytesAt pkg d.off d.extent)
    let s := (bases.zip parts).foldl (fun s x => tierWrite s 3 x.1 x.2) r.1
    let s := { s with work := { s.work with models := s.work.models ++ [m] } }
    if arg c 24 1 = 2 then loadResident c m s else complete s c .ok (loadResult m)

/-- `MODEL_LOAD`. An identifier of 0 is given the lowest that is not installed. -/
def runModelLoad (c : Cmd) (s : State) : State :=
  let id := if arg c 26 2 = 0 then (lowestFree ((s.work.models.filter (·.fn == c.fn)).map (·.id)) 1 65535).getD 0 else arg c 26 2
  if arg c 24 1 = 1 then
    match modelOf s c.fn id with
    | some m => loadResident c m s
    | none => complete s c .badParam
  else if id = 0 then complete s c .quota
  else if (modelOf s c.fn id).isSome then complete s c .badParam
  else
    let r := readSrc s c (arg c 28 8) (arg c 36 8)
    match r.2 with
    | some e => complete s c e
    | none => if packageOk r.1 then installModel c id r.1 s else complete s c .badParam

/-- A waiting `MODEL_LOAD` goes on. -/
def resumeModelLoad (c : Cmd) (s : State) : Option State :=
  match modelOf s c.fn c.aux with
  | none => some (complete s c .badParam)
  | some m => if m.resident.isSome then some (complete s c .ok (loadResult m)) else retryResidency s c m

/-- Channel groups that a residency fills. -/
def residencyGroups (s : State) (m : Model) : List Nat :=
  (s.store.allocs.filter (fun a => a.fn == m.fn && a.tier == 2 && a.obj == 20 && a.owner == m.id)).map (fun a => a.base / groupSize)

/-- Domains a residency works in: the store's, and those of the groups it fills. -/
def residencyDoms (s : State) (m : Model) : List Nat :=
  domNand :: memDoms.filter (fun d => (residencyGroups s m).any (fun g => memOfGroup g == d))

/-- A stored tensor as a descriptor at a base of a tier. -/
def Desc.movedTo (d : Desc) (tier base : Nat) : Desc := { d with tier := tier, off := base }

/-- End of a written `ZMASK` block from the payload's start: 0 where its entry is `INVALID`. -/
def Desc.blockEnd (d : Desc) (s : State) (j : Nat) : Nat :=
  let entry := leNat (tierRead s d.tier (d.off + d.index + 4 * j) 4)
  let at0 := entry / 16 * 16
  let n := d.blockRaw j
  if entry = 0xFFFFFFFF then 0
  else if bit entry 0 then at0 + n
  else match zmaskDecode (elemBytes d.format) (zeroValue d.format d.zp) 65 (n / elemBytes d.format) (tierRead s d.tier (d.off + d.payload + at0) 8192) with
    | some (_, len) => at0 + roundUp (len + 4) 16
    | none => at0 + n

/-- Bytes of written payload (07 Table 7.3, R164). -/
def Desc.writtenPayload (d : Desc) (s : State) : Nat :=
  min (roundUp d.rawSize 16) (if d.form = 2 then field (d.header s) 24 8 else ((List.range d.blocks).map (d.blockEnd s)).foldl max 0)

/-- Ranges that a load reads of an extent, from its base: all of an uncompressed one, else the header, the codebooks, the index table and the written payload (07
R163). -/
def Desc.writtenRanges (d : Desc) (s : State) : List (Nat × Nat) :=
  if d.form = 0 then [(0, d.extent)]
  else
    (d.index, 4 * d.blocks) :: (d.payload, d.writtenPayload s) :: (if d.form = 2 then [(d.aux, 64 + 128 * field (d.header s) 8 4)] else [])
      ++ (if isCode d.format then [(field (d.header s) 12 4, d.recordsLen)] else [])

/-- Store ranges that a residency reads (07 R163): the image and the written bytes of each weight. -/
def loadRanges (s : State) (m : Model) (bases : List Nat) : List (Nat × Nat × Nat) :=
  match bases with
  | [] => []
  | b :: t => (3, b, m.image.length) :: (t.zip m.weights).flatMap (fun x =>
      let d := (descAt x.2 0).movedTo 3 x.1
      (d.writtenRanges s).map (fun r => (3, x.1 + r.1, r.2)))

/-- The bytes that a residency reads stand in the pool in the layout of the store. -/
def copyPieces (s : State) (m : Model) (src dst : List Nat) : State :=
  (loadRanges s m src).foldl (fun s r =>
    match (src.zip dst).find? (fun x => decide (x.1 ≤ r.2.1) && src.all (fun y => decide (y ≤ x.1) || decide (r.2.1 < y))) with
    | some x => tierWrite s 2 (x.2 + (r.2.1 - x.1)) (tierRead s 3 r.2.1 r.2.2)
    | none => s) s

/-- `MODEL_RESIDENT` (11 R271): the model has been read, and the tables of its FIXED layers are built (10 R235). An uncorrectable store unit makes the waiting commands complete
`POISON` (12 R303). -/
def modelResident (fn : Fn) (id : Nat) (s : State) : State :=
  match modelOf s fn id with
  | none => s
  | some m =>
    if !m.loading || !laurelRuns s || !allOn s (residencyDoms s m) then s
    else
      let mine := fun (tier obj : Nat) => s.store.allocs.filter (fun a => a.fn == fn && a.tier == tier && a.obj == obj && a.owner == id)
      let ranges := loadRanges s m ((mine 3 22).map (·.base))
      let s := strike (fun src inst cls => { capture s src inst cls with device := false, tenant1 := fn == .pf1 })
        ranges (fun t => ranges.any (fun r => (firstPoison t 3 r.2.1 r.2.2).isSome)) s
      if ranges.any (fun r => (firstPoison s 3 r.2.1 r.2.2).isSome) then
        let s1 := dropAllocs (setModel s { m with loading := false }) fn [20] id
        endAll s1 ((s1.cmds.filter (fun c => c.fn == fn && c.phase == .parked .residency && modelNeeded s1 c == id)).map (·.id)) .poison
      else
        let s := copyPieces s m ((mine 3 22).map (·.base)) ((mine 2 20).map (·.base))
        setModel s { m with loading := false, resident := some (((mine 2 20).map (·.base)).headD 0), lastUse := ctrlStamp s,
                            wasEvicted := false, tables := tablesOf m.image }

/- ### MODEL_PIN (11 R273) -/

/-- Static conditions of `MODEL_PIN`. -/
def paramsModelPin (s : State) (c : Cmd) : Bool :=
  let l := arg c 26 1
  let m := arg c 27 1
  decide (l ≤ 2) && restZero c 28
  && (if l = 2 then decide (m ≠ 0) && decide (m < 16) && (maskList m).all (ownsCoppice s c.fn) else decide (m = 0))

/-- Ways of a coppice that the tenant's pins hold. -/
def pinWays (s : State) (fn : Fn) (cop : Nat) : Nat :=
  ((s.store.allocs.filter (fun a => a.fn == fn && a.obj == 21 && a.base / copSize == cop)).map (fun a => ceilDiv a.size waySize)).sum

/-- Place copies in the named coppices. -/
def pinCopies (s : State) (m : Model) : List Nat → Option (State × Bool)
  | [] => some (s, false)
  | c :: t =>
    if 4 < pinWays s m.fn c + ceilDiv m.extent waySize then none
    else (placeObject s m.fn 1 (2 ^ c) m.extent 21 m.id false).bind (fun r => (pinCopies r.1 m t).map (fun q => (q.1, q.2)))

/-- Pin a resident model. -/
def pinNow (c : Cmd) (m : Model) (s : State) : State :=
  if arg c 26 1 = 1 then complete (setModel s { m with pin1 := true }) c .ok
  else
    let s1 := dropAllocs s c.fn [21] m.id
    match pinCopies s1 m (maskList (arg c 27 1)) with
    | none => complete s c .quota
    | some r => complete (setModel r.1 { m with pin2 := BitVec.ofNat 4 (arg c 27 1) }) c .ok

/-- `MODEL_PIN`. -/
def runModelPin (c : Cmd) (s : State) : State :=
  match modelOf s c.fn (arg c 24 2) with
  | none => complete s c .badParam
  | some m =>
    if arg c 26 1 = 0 then complete (dropAllocs (setModel s { m with pin1 := false, pin2 := 0 }) c.fn [21] m.id) c .ok
    else if m.resident.isSome then pinNow c m s else awaitModel s c m 0

def resumeModelPin (c : Cmd) (s : State) : Option State :=
  match modelOf s c.fn (arg c 24 2) with
  | none => some (complete s c .badParam)
  | some m => match residencyEnded s c m 0 with
    | some (s, c) => some (pinNow c m s)
    | none => retryResidency s c m

/- ### MODEL_EVICT and MODEL_INFO (11 R274, R446) -/

def paramsModelEvict (c : Cmd) : Bool := decide (arg c 26 1 ≤ 1) && restZero c 27

/-- A model is bound to a sequence or stream. -/
def modelBound (s : State) (fn : Fn) (id : Nat) : Bool :=
  s.work.seqs.any (fun q => q.fn == fn && q.model == id) || s.work.streams.any (fun x => x.fn == fn && x.model == id)

/-- Delete a model with its places and its policy (R277). -/
def deleteModel (s : State) (m : Model) : State :=
  { (dropAllocs s m.fn [20, 21, 22] m.id) with
    work := { s.work with models := s.work.models.filter (fun x => !(x.fn == m.fn && x.id == m.id)),
                          policies := s.work.policies.filter (fun p => !(p.fn == m.fn && p.model == m.id)) } }

/-- Evict a model, and with `ACTION` 1 delete it. -/
def evictNow (c : Cmd) (m : Model) (s : State) : State :=
  let s := if m.resident.isSome then evictModel s m else s
  complete (if arg c 26 1 = 0 then s else deleteModel s m) c .ok

/-- A `MODEL_LOAD` whose install committed and that a revocation ends has no effect: the install is undone (01 R23; notes/assumptions/77.md). -/
def undoInstall (s : State) (id : Nat) : State :=
  match cmdOf s id with
  | some c => if c.op = .modelLoad ∧ arg c 24 1 = 2 ∧ c.phase = .parked .residency
      then (match modelOf s c.fn c.aux with | some m => deleteModel s m | none => s) else s
  | none => s

/-- `MODEL_EVICT` waits for a step of the model in flight, and for a residency that runs. -/
def tryEvict (c : Cmd) (s : State) : Option State :=
  match modelOf s c.fn (arg c 24 2) with
  | none => some (complete s c .badParam)
  | some m =>
    if pinned m then some (complete s c .busyPinned)
    else if arg c 26 1 = 1 ∧ modelBound s c.fn m.id then some (complete s c .badParam)
    else if (stepOf s c.fn m.id).isSome || m.loading then none
    else some (evictNow c m s)

def runModelEvict (c : Cmd) (s : State) : State := (tryEvict c s).getD (park s c .step)

def paramsModelInfo (c : Cmd) : Bool := decide (arg c 24 2 ≠ 0) && argZero c 26 31 && restZero c 40

/-- `MODEL_INFO` (11 Table 11.6, R446). -/
def runModelInfo (c : Cmd) (s : State) : State :=
  let id := arg c 24 2
  let dest := arg c 32 8
  match modelOf s c.fn id with
  | none =>
    let s := if dest = 0 then s else writeDest s c dest (zeroBytes 64)
    complete s c .ok (natLe 2 id ++ zeroBytes 10)
  | some m =>
    let ways := if m.pin2 = 0 then 0 else ceilDiv m.extent waySize
    let rc := natLe 8 m.extent ++ natLe 2 ways ++ zeroBytes 6 ++ natLe 32 m.imageDigest.toNat ++ zeroBytes 16
    let s := if dest = 0 then s else writeDest s c dest rc
    let tiers := 1 + 2 * b2n m.resident.isSome + 4 * b2n m.pin1 + 8 * b2n (m.pin2 != 0)
    complete s c .ok (natLe 2 id ++ [BitVec.ofNat 8 tiers, 0] ++ natLe 8 m.lastUse)

end Sys2Proof.Machine
end

