-- ==== Sys2Proof/Machine/Rings.lean ====
section
/-! DEFINITION. Rings and sessions (05): the packet layer's own commands, the doorbells and the admin-ring registers. A
command has a `params` check of what its packet alone decides, made at fetch (check 7 of Table 5.11), and a `run`, made
when it starts. -/

namespace Sys2Proof.Machine

/- ### NOP and the session commands -/

/-- `NOP` completes `OK` and echoes parameter bytes 24-35 (05 R112). -/
def runNop (c : Cmd) (s : State) : State := complete s c .ok (argBytes c 24 12)

/-- `K` of 05 R121: the OEM key, all zero while it is not programmed (13 R313), or the key of KEY_EXCHANGE. -/
def tenantKey (s : State) : Fn → Option U256
  | .pf0 => some (if s.fuse.oemKeySet then s.fuse.oemKey else 0)
  | .pf1 => s.root.k1

/-- Static conditions of `SESSION_OPEN` (05 Table 5.16, R121). -/
def paramsSessionOpen (s : State) (c : Cmd) : Bool :=
  decide (c.pkt.ring = adminRing s c.fn)
  && (if arg c 24 1 = 0 then argZero c 25 31 && (arg c 32 8 % 8 == 0) && restZero c 40
      else decide (arg c 24 1 = 1) && argZero c 25 25 && argZero c 28 31 && restZero c 64)

/-- Length of a challenge's life and of the lockout (05 R121, R122). -/
def oneSecond : Nat := 3072000

/-- Phase 0 of `SESSION_OPEN`: a fresh nonce and challenge (05 R121). -/
def runChallenge (c : Cmd) (s : State) : State :=
  let x := sess s c.fn
  let nonce := Config.drbg s.freeCtr
  let id := x.nextChallenge % 65536
  let exp := ctrlStamp s + oneSecond
  let s := setSess (bumpFree s) c.fn { x with challenge := some ⟨id, nonce, exp⟩, nextChallenge := x.nextChallenge + 1 }
  complete (writeDest s c (arg c 32 8) (natLe 32 nonce.toNat)) c .ok (natLe 2 id ++ zeroBytes 2 ++ natLe 8 exp)

/-- Customisation strings of 05 R121 and 13 R319. -/
def sessionLabel : List Byte := ascii "WYRUN SESSION"
def keysLabel : List Byte := ascii "WYRUN SESSION KEYS"

/-- Session keys of tenant 1 (13 R319). -/
def sessionKeys (k nonce : U256) (number : Nat) : List U256 :=
  [0x01, 0x02, 0x03, 0x04].map (fun l =>
    Config.kmac256 k (natLe 32 nonce.toNat ++ natLe 2 number ++ natLe 1 l) keysLabel)

/-- A failing phase 1 counts towards the lockout of 05 R122. -/
def failProof (c : Cmd) (s : State) : State :=
  let x := sess s c.fn
  let x := { x with challenge := none, fails := x.fails + 1 }
  let x := if x.fails = 4 then { x with fails := 0, lockedUntil := ctrlStamp s + oneSecond } else x
  complete (setSess s c.fn x) c .authFail

/-- The proof the host must show for a challenge (05 R121). -/
def proofOf (key : U256) (fn : Fn) (ch : Challenge) : U256 :=
  Config.kmac256 key (natLe 32 ch.nonce.toNat ++ natLe 1 (match fn with | .pf0 => 0 | .pf1 => 1) ++ natLe 2 ch.id) sessionLabel

/-- Open a session: its number, its keys and the binding of the admin ring (05 R122, R106; 13 R319). -/
def openSession (fn : Fn) (key nonce : U256) (s : State) : State :=
  let x := sess s fn
  let n := x.opened % 65535 + 1
  let keys := match fn with | .pf0 => [] | .pf1 => sessionKeys key nonce n
  let s := setSess s fn { x with number := n, opened := x.opened + 1, challenge := none, fails := 0, keys := keys, bnonce := 0,
                                 gens := [] }
  let r := ringOf s (adminRing s fn)
  setRing s { r with session := n, expSeq := 0, generation := 0 }

/-- Phase 1 of `SESSION_OPEN` (05 R121, R122). -/
def runProof (c : Cmd) (key : U256) (s : State) : State :=
  let x := sess s c.fn
  if x.number ≠ 0 then complete s c .badParam
  else match x.challenge with
    | none => failProof c s
    | some ch =>
      if ch.id = arg c 26 2 ∧ ctrlStamp s < ch.expires ∧ natLe 32 (proofOf key c.fn ch).toNat = argBytes c 32 32 then
        let s1 := openSession c.fn key ch.nonce s
        let owned := match c.fn with | .pf0 => 4096 - s.regs.ringSplit | .pf1 => s.regs.ringSplit
        complete s1 { c with session := sessionOf s1 c.fn } .ok (natLe 2 (sessionOf s1 c.fn) ++ natLe 2 owned)
      else failProof c s

/-- `SESSION_OPEN` (05 R121, R122). -/
def runSessionOpen (c : Cmd) (s : State) : State :=
  match tenantKey s c.fn with
  | none => complete s c .authFail
  | some key =>
    if ctrlStamp s < (sess s c.fn).lockedUntil then complete s c .authFail
    else if arg c 24 1 = 0 then runChallenge c s else runProof c key s

/-- Remove every ring of a function but the admin ring (05 R123, 21 R432). -/
def removeRings (s : State) (fn : Fn) : State :=
  { s with rings := s.rings.map (fun r =>
      if fnOfRing s r.num = fn ∧ r.num ≠ adminRing s fn then { r with enabled := false, session := 0 } else r) }

/-- Gates a closing session had open (03 R62, 04 R91). A wake counts as delivered to tenant 0's session, whichever is open when one closes (DEDUCED,
notes/assumptions/70.md). And the observation settings lost with it (17 R386, R395, R396). -/
def closeTenant0 (s : State) : State :=
  let cam := fun (x : Cam) => if x.gateOpen then { x with closeDue := true } else { x with openDue := false }
  { (resetGroup s true) with
    listen := if s.listen.gateOpen then { s.listen with closeDue := true } else s.listen
    cam0 := cam s.cam0
    cam1 := cam s.cam1
    obs := { s.obs with bins := [], overflow := none, watches := [], trace0 := {}, trace1 := {} } }

/-- Steps 2 to 4 and 6 of `SESSION_CLOSE`: rings, objects, pins, gates, keys and the binding of the admin ring (05 R123). -/
def unbindSession (s : State) (fn : Fn) : State :=
  let s := removeRings s fn
  let s := freeSessionObjects s fn
  let s := match fn with | .pf0 => closeTenant0 s | .pf1 => s
  let x := sess s fn
  let s := setSess s fn { x with number := 0, keys := [], gens := [], bnonce := 0 }
  let r := ringOf s (adminRing s fn)
  if r.num < 4096 then setRing s { r with session := 0 } else s

/-- The open commands of a function that a closing session cancels: all but `SESSION_CLOSE` (05 R118, R123). -/
def sessionCmds (s : State) (fn : Fn) : List Nat :=
  ((cmdsOf s fn).filter (fun c => c.op != .sessionClose)).map (·.id)

/-- Close a session with completions (05 R123). -/
def closeSession (s : State) (fn : Fn) : State := unbindSession (endAll s (sessionCmds s fn) .cancelled) fn

/-- Close a session without completions, as a function-level reset does (05 R124); held records are dropped too. -/
def dropSession (s : State) (fn : Fn) : State :=
  let s := forgetAll s ((cmdsOf s fn).map (·.id))
  unbindSession { s with heldOut := s.heldOut.filter (fun h => h.fn != fn) } fn

/-- `SESSION_CLOSE` completes on the admin ring before the ring is unbound (05 R123). -/
def runSessionClose (c : Cmd) (s : State) : State :=
  let s := endAll s (sessionCmds s c.fn) .cancelled
  unbindSession (complete s { c with pkt := { c.pkt with ring := adminRing s c.fn } } .ok) c.fn

/- ### CANCEL and FENCE -/

/-- Static conditions of `CANCEL` (05 Table 5.13). -/
def paramsCancel (c : Cmd) : Bool := decide (arg c 26 1 ≤ 2) && argZero c 27 27 && restZero c 32

/-- A ring is bound to the session of a command. -/
def sameSession (s : State) (c : Cmd) (rn : Nat) : Bool :=
  ownsRing s c.fn rn && (ringOf s rn).enabled && decide ((ringOf s rn).session ≠ 0)

/-- The target of `SCOPE` 0 and 1: the packet with `TSEQ` fetched last among the last 2^n before the `CANCEL` (05 R118). -/
def cancelTarget (s : State) (c : Cmd) (rn : Nat) (tseq : U32) : Option Nat :=
  let before := s.fetchedLog.filter (fun f => f.ring == rn && decide (f.id < c.id))
  let last := before.drop (before.length - 2 ^ (ringOf s rn).log2)
  ((last.filter (fun f => f.seq == tseq)).getLast?).map (·.id)

/-- The open commands a `CANCEL` matches (05 R118). -/
def cancelMatches (s : State) (c : Cmd) : List Nat :=
  let rn := arg c 24 2
  let all := ((s.cmds.filter (fun d => d.pkt.ring == rn && decide (d.id < c.id) && d.op != .sessionClose)).map (·.id))
  match arg c 26 1 with
  | 2 => all
  | scope =>
    match cancelTarget s c rn (BitVec.ofNat 32 (arg c 28 4)) with
    | none => []
    | some t => if scope = 0 then all.filter (· == t) else all.filter (t ≤ ·)

/-- `CANCEL` (05 R118): the kill of a started packet is at its next commit point, which no other event parts from it. -/
def runCancel (c : Cmd) (s : State) : State :=
  if !sameSession s c (arg c 24 2) then complete s c .badParam
  else
    let ids := cancelMatches s c
    complete (endAll s ids .cancelled) c .ok (natLe 4 ids.length ++ natLe 4 ids.length)

/-- Ring numbers a `FENCE` names. -/
def fenceRings (c : Cmd) : List Nat := (List.range (arg c 24 1)).map (fun i => arg c (26 + 2 * i) 2)

/-- Static conditions of `FENCE` (05 Table 5.14). -/
def paramsFence (c : Cmd) : Bool :=
  let n := arg c 24 1
  decide (1 ≤ n) && decide (n ≤ 8) && argZero c 25 25 && (decide (n = 8) || argZero c (26 + 2 * n) 41) && restZero c 42

/-- `FENCE` parks until every packet fetched earlier on its rings has completed (05 R119). -/
def runFence (c : Cmd) (s : State) : State :=
  if !(fenceRings c).all (sameSession s c) then complete s c .badParam
  else
    let ids := (s.cmds.filter (fun d => (fenceRings c).contains d.pkt.ring && decide (d.id < c.id))).map (·.id)
    setCmd s { c with phase := .parked .others, awaited := ids }

/-- A parked `FENCE` completes. -/
def resumeFence (c : Cmd) (s : State) : Option State := if stillOpen s c.awaited then none else some (complete s c .ok)

/- ### RING_CREATE and RING_DESTROY -/

/-- Static conditions of `RING_CREATE` (05 Table 5.15, R99, R120). -/
def paramsRingCreate (s : State) (c : Cmd) : Bool :=
  ownsRing s c.fn (arg c 24 2) && decide (arg c 24 2 ≠ adminRing s c.fn)
  && decide (4 ≤ arg c 26 1) && decide (arg c 26 1 ≤ 16) && decide (arg c 27 1 ≤ 3)
  && (arg c 28 8 % 4096 == 0) && (arg c 36 8 % 4096 == 0) && (arg c 44 8 % 8 == 0) && restZero c 52

/-- `RING_CREATE` commits of a number earlier in the session: its next generation (05 Table 5.7). -/
def generationOf (s : State) (fn : Fn) (rn : Nat) : Nat :=
  match (sess s fn).gens.find? (fun g => g.1 == rn) with | some g => g.2 | none => 0

/-- Count one more `RING_CREATE` of a number. -/
def countGeneration (s : State) (fn : Fn) (rn : Nat) : State :=
  let x := sess s fn
  setSess s fn { x with gens := (rn, generationOf s fn rn + 1) :: x.gens.filter (fun g => g.1 != rn) }

/-- A new ring has no packets fetched before it (05 R118). -/
def forgetRing (s : State) (rn : Nat) : State := { s with fetchedLog := s.fetchedLog.filter (fun f => f.ring != rn) }

/-- `RING_CREATE` (05 R108, R120): counts start at 0 and the completion word is zeroed (R102). -/
def runRingCreate (c : Cmd) (s : State) : State :=
  let rn := arg c 24 2
  let gen := generationOf s c.fn rn
  if (ringOf s rn).enabled || decide (65535 < gen) then complete s c .badParam
  else
    let r : Ring := { num := rn, enabled := true, cls := arg c 27 1, log2 := arg c 26 1,
                      sqBase := BitVec.ofNat 64 (arg c 28 8), cqBase := BitVec.ofNat 64 (arg c 36 8),
                      cwAddr := BitVec.ofNat 64 (arg c 44 8), generation := gen, session := sessionOf s c.fn,
                      dbIgnored := (ringOf s rn).dbIgnored }
    let s := forgetRing s rn
    let s := countGeneration (hostOut (setRing s r) c.fn (arg c 44 8) (zeroBytes 8)) c.fn rn
    complete s c .ok (natLe 2 rn ++ natLe 2 gen)

/-- Static conditions of `RING_DESTROY` (05 R120). -/
def paramsRingDestroy (s : State) (c : Cmd) : Bool :=
  restZero c 26 && decide (arg c 24 2 ≠ adminRing s c.fn) && decide (arg c 24 2 ≠ c.pkt.ring)

/-- `RING_DESTROY` (05 R120). -/
def runRingDestroy (c : Cmd) (s : State) : State :=
  let rn := arg c 24 2
  if !sameSession s c rn then complete s c .badParam
  else
    let ids := (s.cmds.filter (fun d => d.pkt.ring == rn)).map (·.id)
    let s := endAll s ids .cancelled
    complete (setRing s { ringOf s rn with enabled := false, session := 0 }) c .ok

/- ### Doorbells and the admin-ring registers -/

/-- Count an ignored doorbell write (21 Table 21.3). -/
def ignoreDoorbell (s : State) (rn : Nat) : State :=
  let r := ringOf s rn
  setRing s { r with dbIgnored := min (r.dbIgnored + 1) 65535 }

/-- The two conditions of 05 R101. -/
def doorbellOk (r : Ring) (sqTail cqHead : U32) : Bool :=
  decide ((sqTail - r.fetched).toNat ≤ 2 ^ r.log2) && decide ((r.cqTail - cqHead).toNat ≤ 2 ^ r.log2)

/-- A doorbell write (05 R100, R101; 21 R430). It is a demand for CTRL (15 R358). -/
def ringDoorbell (s : State) (fn : Fn) (rn size : Nat) (v : U64) : State :=
  if !ownsRing s fn rn then (if adminRing s fn < 4096 then ignoreDoorbell s (adminRing s fn) else s)
  else
    let r := ringOf s rn
    let sq : U32 := v.extractLsb' 0 32
    let cq : U32 := v.extractLsb' 32 32
    if size ≠ 8 || !r.enabled then ignoreDoorbell s rn
    else if !doorbellOk r sq cq then
      setRing s { r with dbError := true, dbIgnored := min (r.dbIgnored + 1) 65535 }
    else demandDom (setRing s { r with sqTail := sq, cqHead := cq }) domCtrl 0xFE 0x09

/-- Enable the admin ring: its counts start at 0 and its completion word is zeroed (21 R431). -/
def enableAdmin (s : State) (fn : Fn) : State :=
  let a := admin s fn
  let rn := adminRing s fn
  let r : Ring := { num := rn, enabled := true, cls := 1, log2 := a.log2, sqBase := a.sqBase, cqBase := a.cqBase,
                    cwAddr := a.cwAddr, dbIgnored := (ringOf s rn).dbIgnored }
  hostOut (setRing (setAdmin (forgetRing s rn) fn { a with enable := true, error := false }) r) fn a.cwAddr.toNat (zeroBytes 8)

/-- Disable the admin ring (05 R98, 21 R432). -/
def disableAdmin (s : State) (fn : Fn) : State :=
  let a := admin s fn
  let rn := adminRing s fn
  let s := setAdmin s fn { a with enable := false }
  if rn < 4096 then setRing s { ringOf s rn with enabled := false, session := 0 } else s

/-- Conditions of an enable (21 R431). -/
def mayEnable (s : State) (fn : Fn) : Bool :=
  s.boot.capsValid && decide (s.regs.clearing = 0) && decide (4 ≤ (admin s fn).log2) && decide ((admin s fn).log2 ≤ 16)
    && decide (adminRing s fn < 4096)

/-- A write of `ADMIN_ENABLE` (21 R431, 05 R97, R98; 19 R409). -/
def writeAdminEnable (s : State) (fn : Fn) (v : U32) : State :=
  let a := admin s fn
  if v.getLsbD 0 then
    if a.enable then setAdmin s fn { a with error := false }
    else if mayEnable s fn then enableAdmin s fn
    else setAdmin s fn { a with error := true }
  else if !s.boot.capsValid then s
  else
    let s := setAdmin s fn { a with error := false }
    if a.enable then
      let s := if sessionOf s fn ≠ 0 then closeSession s fn else s
      disableAdmin (forgetAll s ((cmdsOf s fn).map (·.id))) fn
    else s

/-- Neither function's admin ring is enabled (05 R97, 12 R290, 13 R306). -/
def adminsOff (s : State) : Bool := !s.regs.admin0.enable && !s.regs.admin1.enable

/-- A write of `RING_SPLIT` (05 R97, 19 R409, 21 R430). -/
def writeRingSplit (s : State) (fn : Fn) (v : U32) : State :=
  let n := v.toNat % 4096
  if fn = .pf0 ∧ s.boot.capsValid ∧ adminsOff s ∧ n % 256 = 0 ∧ n ≤ 2048 then { s with regs := { s.regs with ringSplit := n } } else s

/-- `RING_STATUS` of a ring as a function reads it (21 Table 21.3, R430). -/
def ringStatus (s : State) (fn : Fn) (rn : Nat) : Nat :=
  if !ownsRing s fn rn then 0
  else
    let r := ringOf s rn
    b2n r.enabled + 2 * b2n r.dbError + 4 * r.cls + 16 * r.log2 + 2 ^ 16 * r.generation + 2 ^ 32 * r.dbIgnored
      + 2 ^ 48 * r.session

/-- Put the answer of a register read on its bus. -/
def answer (s : State) (bs : List Byte) : State := { s with regs := { s.regs with ioOut := bs } }

/-- A read of `RING_STATUS` clears `DB_IGNORED` (21 Table 21.3). A read of the lower half latches the upper half, which the next read
of the upper half returns (21 R429); `DB_IGNORED` goes with the read that latches or returns it. After an INTEGRITY fault every read
returns all ones. -/
def readRingStatus (s : State) (fn : Fn) (rn : Nat) (half : Option Bool) : State :=
  let v := ringStatus s fn rn
  let clear := fun (s : State) => if ownsRing s fn rn && s.rings.any (fun r => r.num == rn) then setRing s { ringOf s rn with dbIgnored := 0 } else s
  let rest := s.regs.readLatch.filter (fun e => e.1 != rn)
  let latch := fun (s : State) (l : List (Nat × Nat)) => { s with regs := { s.regs with readLatch := l } }
  if s.fault.integrity then answer s (List.replicate (if half.isNone then 8 else 4) 0xFF)
  else match half with
    | none => clear (answer s (natLe 8 v))
    | some false => clear (answer (latch s ((rn, v / 2 ^ 32) :: rest)) (natLe 4 v))
    | some true =>
      match s.regs.readLatch.find? (fun e => e.1 == rn) with
      | some e => answer (latch s rest) (natLe 4 e.2)
      | none => clear (answer s (natLe 4 (v / 2 ^ 32)))

end Sys2Proof.Machine
end

