-- ==== Sys2Proof/Machine/Contexts.lean ====
section
/-! DEFINITION. Semaphores and inherited priority, sequences and conversations, forks, step policies, the sequence table and
the context cache (09 R206 to R212; 11 R253 to R269, R275, R277). -/

namespace Sys2Proof.Machine

/- ### Semaphores (11 R266, R267) -/

/-- Semaphores a tenant may hold: its share by coppices. -/
def semShare (s : State) (fn : Fn) : Nat := 65536 * (coppicesOf s fn).length / unitsOf s.fuse.part

/-- A context handle of the session. -/
def contextExists (s : State) (fn : Fn) (h : Nat) : Bool :=
  (seqOf s fn h).isSome || (convOf s fn h).isSome || s.work.streams.any (fun x => x.fn == fn && (x.handle == h || x.stateHandle == h))

/-- Static conditions of `SEM_CREATE`. -/
def paramsSemCreate (c : Cmd) : Bool :=
  decide (arg c 24 1 ≤ 1) && argZero c 25 25 && restZero c 38
  && (decide (arg c 24 1 = 1) || (let o := arg c 32 4; if o.testBit 31 then bits o 30 20 == 0 else o == 0))

/-- Commands that wait on a semaphore, in their order: class, then fetch order. -/
def semWaiters (s : State) (n : Nat) : List Cmd :=
  sortOn (fun c => c.id + 2 ^ 64 * ringClass (ringOf s c.pkt.ring))
    (s.cmds.filter (fun c => c.op == .semWait && c.phase == .parked .sem && arg c 24 2 == n))

/-- `SEM_CREATE` (11 Table 11.3). The lowest free number is issued. -/
def runSemCreate (c : Cmd) (s : State) : State :=
  if arg c 24 1 = 1 then
    match semOf s (arg c 26 2) with
    | some x =>
      if x.fn = c.fn then
        let s := endAll s ((semWaiters s x.num).map (·.id)) .cancelled
        complete { s with work := { s.work with sems := s.work.sems.filter (fun y => y.num != x.num) } } c .ok (natLe 2 x.num)
      else complete s c .badParam
    | none => complete s c .badParam
  else
    let o := arg c 32 4
    let r := arg c 36 2
    let ownerOk := (!o.testBit 31 || contextExists s c.fn (o % 2 ^ 20)) && (r == 0xFFFF || sameSession s c r)
    let mine := (s.work.sems.filter (fun x => x.fn == c.fn)).length
    if !ownerOk then complete s c .badParam
    else match lowestFree (s.work.sems.map (·.num)) 1 65535 with
      | some n =>
        if semShare s c.fn ≤ mine then complete s c .quota
        else
          let x : Sem := { num := n, fn := c.fn, session := sessionOf s c.fn, count := BitVec.ofNat 32 (arg c 28 4),
                           ownerCtx := if o.testBit 31 then some (o % 2 ^ 20) else none,
                           ownerRing := if r = 0xFFFF then none else some r }
          complete { s with work := { s.work with sems := s.work.sems ++ [x] } } c .ok (natLe 2 n)
      | none => complete s c .quota

def paramsSemCount (c : Cmd) : Bool := decide (arg c 26 2 ≠ 0) && restZero c 28

/-- A semaphore of the command's session. -/
def semNamed (s : State) (c : Cmd) : Option Sem := (semOf s (arg c 24 2)).filter (fun x => x.fn == c.fn)

/-- `SEM_SIGNAL` (11 R267); its commit ends the wait-for edges to the semaphore's owner (R268). -/
def runSemSignal (c : Cmd) (s : State) : State :=
  match semNamed s c with
  | none => complete s c .badParam
  | some x =>
    let v := x.count.toNat + arg c 26 2
    if 0xFFFFFFFF < v then complete s c .badParam
    else
      let s := setSem s { x with count := BitVec.ofNat 32 v }
      let s : State := (semWaiters s x.num).foldl (fun s d => setCmd s { d with aux := 0 }) s
      complete s c .ok (natLe 4 v)

/-- `SEM_WAIT` parks until its turn and its count (11 R267); `aux` 1 says that its wait-for edge stands. -/
def runSemWait (c : Cmd) (s : State) : State :=
  match semNamed s c with
  | none => complete s c .badParam
  | some _ => setCmd s { c with phase := .parked .sem, aux := 1 }

def resumeSemWait (c : Cmd) (s : State) : Option State :=
  match semNamed s c with
  | none => some (complete s c .badParam)
  | some x =>
    if ((semWaiters s x.num).head?.map (·.id)) = some c.id ∧ arg c 26 2 ≤ x.count.toNat then
      let v := x.count.toNat - arg c 26 2
      some (complete (setSem s { x with count := BitVec.ofNat 32 v }) c .ok (natLe 4 v))
    else none

/- ### Inherited priority (11 R268, R269) -/

/-- Class at which a command waits: its ring's, boosts included. -/
def waitClass (s : State) (c : Cmd) : Nat := ringClass (ringOf s c.pkt.ring)

/-- Rings and contexts boosted by the wait-for edges that stand, with the class they take. -/
def boostEdges (s : State) : List (Sum Nat Nat × Nat) :=
  s.cmds.flatMap (fun c =>
    if c.op = .semWait ∧ c.phase = .parked .sem ∧ c.aux = 1 then
      match semNamed s c with
      | some x => (match x.ownerRing with | some r => [(Sum.inl r, waitClass s c)] | none => [])
          ++ (match x.ownerCtx with | some h => [(Sum.inr h, waitClass s c)] | none => [])
      | none => []
    else if c.op = .peerSend ∧ c.phase = .parked .credit then
      (s.cmds.filter (fun d => d.op == .peerSend && d.id != c.id && arg d 24 1 == arg c 24 1)).map
        (fun d => (Sum.inl d.pkt.ring, waitClass s c))
    else [])

/-- One pass along the edges: a ring takes the best class of its waiters. -/
def boostPass (s : State) : State :=
  let e := boostEdges s
  { s with rings := s.rings.map (fun r =>
      { r with boost := ((e.filter (fun x => decide (x.1 = .inl r.num))).map (·.2)).min? }) }

/-- Boosts along chains of up to 8 edges. -/
def boostAll (s : State) : State :=
  let s := { s with rings := s.rings.map (fun r => { r with boost := none }) }
  (List.range 8).foldl (fun s _ => boostPass s) s

/-- Class that the waiters give a context, if any. -/
def contextBoost (s : State) (h : Nat) : Option Nat :=
  (((boostEdges s).filter (fun x => decide (x.1 = .inr h))).map (·.2)).min?

/- ### Sequences and conversations (11 R275) -/

/-- Static conditions of `SEQ_CREATE`. -/
def paramsSeqCreate (c : Cmd) : Bool :=
  let v := arg c 28 4
  decide (arg c 27 1 ≤ 1) && decide (arg c 26 1 ≤ 3) && restZero c 32
  && (if v.testBit 31 then bits v 30 20 == 0 && arg c 27 1 == 0 else v == 0)
  && (decide (arg c 27 1 = 0) || decide (arg c 24 2 = 0))

/-- Room for `n` more context entries (12 Table 12.4). -/
def entriesFit (s : State) (fn : Fn) (n : Nat) : Bool := quotaFits s fn 4 0 n

/-- A new sequence with its directory and lists; nothing where they do not fit. -/
def newSeq (s : State) (fn : Fn) (model cls : Nat) (g : KvGeom) (conv : Option Nat) : Option (State × Seqn × Bool) :=
  match newHandle s fn (handlesUsed s) with
  | none => none
  | some h =>
    if !entriesFit s fn 1 then none
    else (placeObject s fn 2 0 g.dirBytes 16 h false).map (fun r =>
      let q : Seqn := { handle := h, fn := fn, session := sessionOf s fn, model := model, cls := cls, conv := conv, geom := g,
                        dir := r.2.1, charge := g.dirBytes }
      ({ r.1 with work := { r.1.work with seqs := r.1.work.seqs ++ [q] } }, q, r.2.2))

/-- Create a sequence of a resident model. -/
def createSeq (c : Cmd) (m : Model) (s : State) : State :=
  let v := arg c 28 4
  match m.kv.bind (fun g => newSeq s c.fn m.id (arg c 26 1) g (if v.testBit 31 then some (v % 2 ^ 20) else none)) with
  | none => complete s c .quota
  | some (s, q, ev) => complete s (c.warns ev warnEvicted) .ok (natLe 4 q.handle ++ natLe 4 q.charge)

/-- `SEQ_CREATE`: a conversation at once, a sequence once its model is resident (11 R271, R275). -/
def runSeqCreate (c : Cmd) (s : State) : State :=
  let v := arg c 28 4
  if arg c 27 1 = 1 then
    match newHandle s c.fn (handlesUsed s) with
    | none => complete s c .quota
    | some h =>
      if !entriesFit s c.fn 1 then complete s c .quota
      else
        let k : Conv := { handle := h, fn := c.fn, session := sessionOf s c.fn, cls := arg c 26 1 }
        complete { s with work := { s.work with convs := s.work.convs ++ [k] } } c .ok (natLe 4 h ++ natLe 4 0)
  else if v.testBit 31 ∧ (convOf s c.fn (v % 2 ^ 20)).isNone then complete s c .badParam
  else match modelOf s c.fn (arg c 24 2) with
    | none => complete s c .badParam
    | some m =>
      if !(m.kv.map KvGeom.ok).getD false then complete s c .badParam
      else if m.resident.isSome then createSeq c m s else awaitModel s c m 0

def resumeSeqCreate (c : Cmd) (s : State) : Option State :=
  match modelOf s c.fn (arg c 24 2) with
  | none => some (complete s c .badParam)
  | some m => match residencyEnded s c m 0 with
    | some (s, c) => some (createSeq c m s)
    | none => retryResidency s c m

def paramsCtxOnly (c : Cmd) : Bool := ctxValid c.pkt && restZero c 24

/-- Appends and forks of a sequence that `SEQ_FREE` cancels: those fetched before it or already started. -/
def seqUsers (s : State) (c : Cmd) (handles : List Nat) : List Nat :=
  (s.cmds.filter (fun d => d.fn == c.fn && (d.op == .seqAppend || d.op == .seqFork) && handles.contains (ctxHandle d.pkt)
    && (decide (d.id < c.id) || d.phase != .waiting))).map (·.id)

/-- Free the sequences of a list that are there, one after the other; the number counts the frames whose count reached 0. -/
def freeSeqs (s : State) (fn : Fn) (qs : List Seqn) : State × Nat :=
  qs.foldl (fun x q =>
    match seqOf x.1 fn q.handle with
    | some q => ((freeSeq x.1 q).1, x.2 + (freeSeq x.1 q).2)
    | none => x) (s, 0)

/-- `SEQ_FREE` (11 R275). -/
def runSeqFree (c : Cmd) (s : State) : State := withContext c s (fun s =>
  let h := ctxHandle c.pkt
  let isConv := (convOf s c.fn h).isSome
  let mine := s.work.seqs.filter (fun q => q.fn == c.fn && (q.handle == h || (isConv && q.conv == some h)))
  if mine.isEmpty && !isConv then complete s c .badParam
  else
    let s := endAll s (seqUsers s c (mine.map (·.handle))) .cancelled
    let r := freeSeqs s c.fn mine
    let s := { r.1 with work := { r.1.work with convs := r.1.work.convs.filter (fun k => !(isConv && k.handle == h)) } }
    complete s c .ok (natLe 4 r.2))

/- ### SEQ_FORK (09 R209 to R212) -/

def paramsSeqFork (c : Cmd) : Bool := ctxValid c.pkt && restZero c 28

/-- A page entry as the child holds it. -/
def childPage (g : KvGeom) (at0 : Nat) (p : Page) : Page :=
  { p with shared := true, fullRo := p.fullRo && !(p.index == (at0 - 1) / g.tokens && at0 % g.tokens != 0) }

/-- Fork between two steps of the parent (09 R211). -/
def forkNow (c : Cmd) (q : Seqn) (s : State) : State :=
  let at0 := if arg c 24 4 = 0xFFFFFFFF then q.length else arg c 24 4
  let shared := q.pages.filter (fun p => decide (p.index < ceilDiv at0 q.geom.tokens))
  if q.length < at0 then complete s c .badParam
  else if shared.any (fun p => s.store.frames.any (fun f => f.pfn == p.pfn && decide (65535 ≤ f.refs))) then complete s c .badParam
  else match newSeq s c.fn q.model q.cls q.geom none with
    | none => complete s c .quota
    | some (s, k, ev) =>
      let s : State := shared.foldl (fun s p => raiseFrame s p.pfn) s
      let s := setSeq s { q with pages := q.pages.map (fun p => if p.index < ceilDiv at0 q.geom.tokens then { p with shared := true } else p) }
      let s := setSeq s { k with length := at0, pages := shared.map (childPage q.geom at0) }
      complete s (c.warns ev warnEvicted) .ok (natLe 4 k.handle ++ natLe 4 at0 ++ natLe 4 shared.length)

/-- A context is a member of a step in flight. -/
def inStep (s : State) (fn : Fn) (h : Nat) : Bool :=
  s.work.steps.any (fun t => t.fn == fn && t.members.any (fun m => m.handle == h && decide (m.kind ≠ 3)))

def tryFork (c : Cmd) (s : State) : Option State :=
  match seqOf s c.fn (ctxHandle c.pkt) with
  | none => some (complete s c .badParam)
  | some q => if inStep s c.fn q.handle then none else some (forkNow c q s)

def runSeqFork (c : Cmd) (s : State) : State := withContext c s (fun s => (tryFork c s).getD (park s c .step))

/- ### Policies (11 Table 11.10) -/

def policyOf (s : State) (fn : Fn) (model : Nat) : StepPolicy :=
  (s.work.policies.find? (fun p => p.fn == fn && p.model == model)).getD { fn := fn, model := model }

/-- Bytes 28 to 43 of 11 Table 11.10 for a policy. -/
def policyRecord (p : StepPolicy) : List Byte :=
  natLe 4 p.period ++ natLe 4 p.phase ++ natLe 2 p.tokens ++ natLe 2 p.chunkMax ++ natLe 1 p.coppices ++ natLe 1 p.preempt
    ++ natLe 2 p.ageBoost

/-- Table 11.1 entry of a slot. -/
def slotRecord (x : Option Slot) : List Byte :=
  match x with
  | none => zeroBytes 16
  | some x =>
    natLe 4 ((if x.kind = 3 then 0 else x.handle) + 2 ^ 20 * x.kind + 2 ^ 22 * x.cls + 2 ^ 24 * x.effCls
        + 2 ^ 26 * (match x.fn with | .pf0 => 0 | .pf1 => 1) + 2 ^ 27 * b2n x.ready + 2 ^ 28 * b2n x.parked + 2 ^ 29 * b2n x.resWait)
      ++ natLe 2 x.model ++ natLe 2 x.chunk ++ natLe 4 x.pending ++ natLe 4 x.readyStamp

/-- The slot of a context. -/
def contextSlot (s : State) (h : Nat) : Option Slot := s.work.slots.find? (fun x => decide (x.kind ≠ 3) && x.handle == h)

/-- Place of a stream's carried state. -/
def stateAlloc (s : State) (x : Stream) : Option Alloc :=
  s.store.allocs.find? (fun a => a.fn == x.fn && a.obj == 17 && a.owner == x.handle)

/-- A 64-byte context entry (11 Table 11.2). -/
def entryRecord (kind cls flags home model session length link object last pending slot : Nat) : List Byte :=
  natLe 1 kind ++ natLe 1 cls ++ natLe 1 flags ++ natLe 1 home ++ natLe 2 model ++ natLe 2 session ++ natLe 4 length ++ natLe 4 link
    ++ natLe 8 object ++ natLe 8 last ++ natLe 4 pending ++ natLe 2 slot ++ zeroBytes 26

/-- The context entry of a handle. -/
def contextRecord (s : State) (fn : Fn) (h : Nat) : List Byte :=
  let sl := contextSlot s h
  let pend := (sl.map (·.pending)).getD 0
  let slot := match sl with | some x => x.num + 2 ^ 15 | none => 0
  let flags := fun (cls : Nat) (narrow : Bool) =>
    b2n (s.work.cached.contains h) + 2 * b2n ((sl.map (fun x => decide (x.effCls < cls))).getD false)
      + 4 * b2n ((sl.map (·.parked)).getD false) + 8 * b2n narrow + 16 * b2n (inStep s fn h)
  match seqOf s fn h, convOf s fn h, s.work.streams.find? (fun x => x.fn == fn && (x.handle == h || x.stateHandle == h)) with
  | some q, _, _ => entryRecord 1 q.cls (flags q.cls false) 2 q.model q.session q.length
      (match q.conv with | some k => k + 2 ^ 31 | none => 0) (addrField 2 q.dir) q.lastRun pend slot
  | none, some k, _ => entryRecord 4 k.cls (flags k.cls false) 2 0 k.session 0 0 0 0 0 0
  | none, none, some x =>
    let obj := match stateAlloc s x with | some a => addrField a.tier a.base | none => 0
    if x.handle = h then entryRecord 2 x.cls (flags x.cls x.narrow) x.home x.model x.session x.nextSseq (x.stateHandle + 2 ^ 31) obj
      x.lastRun pend slot
    else entryRecord 3 x.cls (flags x.cls x.narrow) x.home x.model x.session 0 0 obj x.lastRun 0 0
  | none, none, none => zeroBytes 64

/-- Static conditions of `STEP_POLICY`. -/
def paramsStepPolicy (s : State) (c : Cmd) : Bool :=
  let a := arg c 24 1
  decide (a ≤ 3) && argZero c 25 25 && argZero c 46 47 && argZero c 52 55
  && (decide (a ≠ 0) || ((if arg c 28 4 = 0 then decide (arg c 32 4 = 0) else decide (arg c 32 4 < arg c 28 4))
        && decide (1 ≤ arg c 36 2) && decide (arg c 36 2 ≤ 32768) && decide (1 ≤ arg c 38 2) && decide (arg c 38 2 ≤ 512)
        && decide (arg c 40 1 < 16) && (maskList (arg c 40 1)).all (ownsCoppice s c.fn) && decide (arg c 41 1 ≤ 2)))
  && (decide (a ≠ 2) || (decide (arg c 44 2 < 512) && ownsCoppice s c.fn (arg c 44 2 / 128)))
  && (decide (a ≠ 3) || (decide (arg c 48 4 < 2 ^ 20) && ownsGroup s c.fn (arg c 48 4 / handleBlock s)))

/-- `STEP_POLICY` (11 R277). -/
def runStepPolicy (c : Cmd) (s : State) : State := withContext c s (fun s =>
  let a := arg c 24 1
  let id := arg c 26 2
  if a ≤ 1 ∧ (modelOf s c.fn id).isNone then complete s c .badParam
  else if a = 0 then
    let p : StepPolicy := { fn := c.fn, model := id, period := arg c 28 4, phase := arg c 32 4, tokens := arg c 36 2,
                            chunkMax := arg c 38 2, coppices := arg c 40 1, preempt := arg c 41 1, ageBoost := arg c 42 2 }
    complete { s with work := { s.work with policies := s.work.policies.filter (fun q => !(q.fn == c.fn && q.model == id)) ++ [p] } } c .ok
  else
    let bs := if a = 1 then policyRecord (policyOf s c.fn id)
      else if a = 2 then slotRecord (s.work.slots.find? (fun x => x.num == arg c 44 2))
      else contextRecord s c.fn (arg c 48 4)
    complete (writeDest s c (arg c 56 8) bs) c .ok)

/- ### The sequence table and the context cache (11 R254, R256, R263, R264) -/

/-- A command takes a free slot, or keeps the one its context has; nothing where none is free (11 R254). -/
def takeSlot (s : State) (c : Cmd) (kind handle cls model : Nat) : Option State :=
  match (if kind = 3 then none else contextSlot s handle) with
  | some x => some (setSlot s { x with cmd := c.id })
  | none => (freeSlot s c.fn).map (fun n =>
      { s with work := { s.work with slots := s.work.slots ++ [{ fn := c.fn, num := n, kind := kind, handle := handle, cmd := c.id,
                                                                 cls := cls, effCls := cls, model := model }] } })

/-- Unreserved cache entries of a tenant. -/
def cacheShare (s : State) (fn : Fn) : Nat :=
  let n := 4096 * (coppicesOf s fn).length / unitsOf s.fuse.part
  n - n / 64

/-- Whether a handle belongs to a tenant. -/
def handleFn (s : State) (h : Nat) : Fn := if t1Group s (h / handleBlock s) then .pf1 else .pf0

/-- Last step commit of a context. -/
def lastRunOf (s : State) (h : Nat) : Nat :=
  match s.work.seqs.find? (fun q => q.handle == h), s.work.streams.find? (fun x => x.handle == h) with
  | some q, _ => q.lastRun
  | none, some x => x.lastRun
  | none, none => 0

/-- A context that waits on a page or whose commands have not their turn, or that has none (11 R263). -/
def blockedOrIdle (s : State) (h : Nat) : Bool := ((contextSlot s h).map (fun x => x.parked || (cmdOf s x.cmd).isNone)).getD true

/-- Bring a runnable context into the cache, writing back the blocked or idle one that ran longest ago when the share is full
(11 R264). -/
def cacheIn (s : State) (fn : Fn) (h : Nat) : State :=
  if s.work.cached.contains h then s
  else
    let mine := s.work.cached.filter (fun k => handleFn s k == fn)
    if mine.length < cacheShare s fn then { s with work := { s.work with cached := s.work.cached ++ [h] } }
    else match (sortOn (lastRunOf s) (mine.filter (fun k => !inStep s fn k && blockedOrIdle s k))).head? with
      | some k => { s with work := { s.work with cached := s.work.cached.filter (· != k) ++ [h] } }
      | none => s

/-- The effective class of a slot: age boost (11 R257) and inheritance (R268). -/
def slotClass (s : State) (x : Slot) : Nat :=
  let p := policyOf s x.fn x.model
  let since := max x.readyStamp (if x.kind = 3 then 0 else lastRunOf s x.handle)
  let aged := p.ageBoost ≠ 0 ∧ x.ready = true ∧ x.chunk = 0 ∧ p.ageBoost * 3072 < ctrlStamp s - since
  let c := if aged ∧ 1 < x.cls then x.cls - 1 else x.cls
  match (if x.kind = 3 then none else contextBoost s x.handle) with
  | some b => min b c
  | none => c

/-- Whether a stream's state is resident (10 R250). -/
def streamResident (s : State) (x : Slot) : Bool :=
  decide (x.kind ≠ 2) || ((streamOf s x.fn x.handle).map (fun q => q.home == 2 && !q.prefetch)).getD false

/-- Positions a slot's command has not yet committed. -/
def slotPending (s : State) (x : Slot) : Nat :=
  match cmdOf s x.cmd with
  | none => 0
  | some c => if x.kind = 3 then 1 else blk c 4 4 - c.cnt

/-- Bring a slot up to date: `PENDING`, `READY` and `EFF_CLASS` (11 Table 11.1, R256). -/
def refreshSlot (s : State) (x : Slot) : State :=
  let pend := slotPending s x
  let runnable := decide (0 < pend) && !x.parked && !x.resWait
  let s := if runnable && decide (x.kind ≠ 3) then cacheIn s x.fn x.handle else s
  let ready := runnable && (decide (x.kind = 3) || s.work.cached.contains x.handle) && streamResident s x
  let y := { x with pending := pend, ready := ready, readyStamp := if ready && !x.ready then ctrlStamp s else x.readyStamp }
  setSlot s { y with effCls := slotClass s y }

/-- Bring the whole table up to date. -/
def refreshSlots (s : State) : State := s.work.slots.foldl refreshSlot s

end Sys2Proof.Machine
end

