-- ==== Sys2Proof/Machine/Groups.lean ====
section
/-! DEFINITION. Kraotas groups (16 R369 to R384) and the wire units that pass between their units (07 R178 to R180). -/

namespace Sys2Proof.Machine

/- ### Wire units (07 Table 7.9, R178, R179) -/

/-- Elements of raw bytes as FP32; bytes beyond the end are `+0`. -/
def fpElems (fmt : Nat) (raw : List Byte) (n : Nat) : List U32 :=
  (List.range n).map (fun i => if fmt = 0x04 then bf16To32 (field raw (2 * i) 2) else BitVec.ofNat 32 (field raw (4 * i) 4))

/-- Largest exponent of the normal elements, biased by 127; 0 where there is none. -/
def se8Exp (xs : List U32) : Nat := (xs.map (fun x => bits x.toNat 30 23)).foldl max 0

/-- One element of an SE8 block of exponent `e`. -/
def se8Code (e : Int) (x : U32) : Byte :=
  match fpOf x with
  | .fin neg m f => BitVec.ofInt 8 (clamp (alignRaw (if neg then -(m : Int) else m) f (e - 6) (-127) 127) (-127) 127)
  | _ => 0

/-- One SE8 block of 32 elements. -/
def se8Block (fmt : Nat) (raw : List Byte) : List Byte :=
  let xs := fpElems fmt raw 32
  let n := 32 * elemBytes fmt
  if xs.any (fun x => isNan x || isInf x) then 0xFF :: (raw ++ zeroBytes n).take n
  else if se8Exp xs = 0 then 0 :: zeroBytes 32
  else BitVec.ofNat 8 (se8Exp xs) :: xs.map (se8Code ((se8Exp xs : Int) - 127))

/-- The SE8 blocks of a unit. -/
def se8Encode (fmt : Nat) (raw : List Byte) : List Byte :=
  let n := 32 * elemBytes fmt
  (List.range (ceilDiv raw.length n)).flatMap (fun i => se8Block fmt (bytesAt raw (n * i) n))

/-- Formats whose units the lossless encoding codes. -/
def zmaskFormat (fmt : Nat) : Bool := isInt fmt || fmt == 0x04

/-- Encoding and payload of a unit; `enc` is the command's `ENC`. A unit whose code would be no gain is sent raw. -/
def unitPayload (enc fmt : Nat) (raw : List Byte) : Nat × List Byte :=
  if enc = 1 ∧ zmaskFormat fmt then
    let z := zmaskEncode (elemBytes fmt) 0 (elemsOf (elemBytes fmt) raw) 65
    if z.length < raw.length then (1, z) else (0, raw)
  else if enc = 2 then
    let z := se8Encode fmt raw
    if z.length ≤ 4096 then (2, z) else (0, raw)
  else (0, raw)

/-- A wire unit: header and payload. -/
def wireUnit (enc fmt : Nat) (raw : List Byte) : List Byte :=
  let p := unitPayload enc fmt raw
  natLe 2 raw.length ++ natLe 1 p.1 ++ natLe 1 fmt ++ natLe 4 p.2.length ++ p.2

/-- An element of the source format in the destination format (06 R143). -/
def putFp (dst : Nat) (x : U32) : List Byte := if dst = 0x04 then natLe 2 (toBf16 x) else natLe 4 x.toNat

/-- Source elements in the destination format. -/
def convertElems (src dst : Nat) (raw : List Byte) : List Byte :=
  if src = dst then raw else (fpElems src raw (raw.length / elemBytes src)).flatMap (putFp dst)

/-- Value of a signed byte of an SE8 block whose first byte is `b`. -/
def se8Value (b : Nat) (m : Byte) : U32 := fpBits 24 (.fin (decide (m.toInt < 0)) m.toInt.natAbs ((b : Int) - 133))

/-- Decode SE8 blocks into `n` elements. -/
def se8Decode (src dst : Nat) : Nat → Nat → List Byte → Option (List Byte)
  | 0, _, _ => none
  | k + 1, n, bs =>
    if n = 0 then some []
    else
      let b := field bs 0 1
      let len := if b = 255 then 32 * elemBytes src else 32
      let body := bytesAt bs 1 len
      if body.length < len then none
      else
        let out := if b = 255 then convertElems src dst body
          else if b = 0 then zeroBytes (32 * elemBytes dst) else body.flatMap (fun m => putFp dst (se8Value b m))
        (se8Decode src dst k (n - min n 32) (bs.drop (1 + len))).map (fun r => out.take (min n 32 * elemBytes dst) ++ r)

/-- Decode a wire unit into the raw form of the destination. -/
def decodeUnit (dst : Nat) (wire : List Byte) : Option (List Byte) :=
  let n := field wire 0 2
  let fmt := field wire 3 1
  let body := bytesAt wire 8 (field wire 4 4)
  let es := elemBytes fmt
  if n = 0 ∨ 4096 < n ∨ 4096 < field wire 4 4 ∨ body.length ≠ field wire 4 4 ∨ !knownFormat fmt then none
  else match field wire 2 1 with
    | 0 => if body.length = n then some (convertElems fmt dst body) else none
    | 1 => (zmaskDecode es 0 65 (n / es) body).map (fun r => convertElems fmt dst r.1)
    | 2 => se8Decode fmt dst 129 (n / es) body
    | _ => none

/- ### Semaphore signals of the device -/

/-- Signal a semaphore by 1 as a `SEM_SIGNAL` does (16 R379, 11 R267, R268); the count does not pass its maximum. -/
def signalSem (s : State) (n : Nat) : State :=
  match semOf s n with
  | none => s
  | some x =>
    let s := setSem s { x with count := BitVec.ofNat 32 (min (x.count.toNat + 1) 0xFFFFFFFF) }
    (semWaiters s n).foldl (fun s d => setCmd s { d with aux := 0 }) s

/- ### Joining and leaving -/

/-- Entry of a peer in a `GROUP_JOIN` block. -/
def joinPeer (c : Cmd) (u : Nat) : Peer :=
  let o := 64 + 32 * u
  { unit := u, bar2 := BitVec.ofNat 64 (blk c o 8), rxBase := BitVec.ofNat 64 (blk c (o + 8) 8), rxLen := blk c (o + 16) 4, rxSem := blk c (o + 20) 2 }

/-- Numbers of the peers a `GROUP_JOIN` names. -/
def joinUnits (c : Cmd) : List Nat := (List.range (blk c 3 1)).filter (· != blk c 2 1)

/-- Static conditions of `GROUP_JOIN` (16 Table 16.5, R375). -/
def paramsGroupJoin (c : Cmd) : Bool :=
  decide (blk c 0 2 = 1) && decide (2 ≤ blk c 3 1) && decide (blk c 3 1 ≤ 4) && decide (blk c 2 1 < blk c 3 1) && decide (blk c 4 4 ≠ 0)
  && blkZero c 8 63
  && (List.range 4).all (fun u =>
    if (joinUnits c).contains u then
      let p := joinPeer c u
      (p.bar2.toNat % 2 ^ 28 == 0) && tierOf p.rxBase.toNat == 2 && (p.rxLen % 4096 == 0) && decide (4096 ≤ p.rxLen)
        && decide (p.rxLen ≤ 64 * mib) && blkZero c (86 + 32 * u) (95 + 32 * u)
    else blkZero c (64 + 32 * u) (95 + 32 * u))

/-- Two receive areas overlap. -/
def areasOverlap (ps : List Peer) : Bool :=
  ps.any (fun p => ps.any (fun q => p.unit != q.unit && overlap p.rxBase.toNat p.rxLen q.rxBase.toNat q.rxLen))

/-- Receive areas and semaphores are the session's (16 R375). -/
def joinObjects (s : State) (ps : List Peer) : Bool :=
  ps.all (fun p => ownsRange s .pf0 2 (offOf p.rxBase.toNat) p.rxLen && (semOf s p.rxSem).any (fun x => x.fn == .pf0))

/-- `GROUP_JOIN` commits at once and waits for its peers (16 R374). -/
def runGroupJoin (c : Cmd) (s : State) : State :=
  let ps := (joinUnits c).map (joinPeer c)
  if s.group.state ≠ 0 ∨ areasOverlap ps = true ∨ joinObjects s ps = false then complete s c .badParam
  else
    let g := s.group
    let gen := g.joinGen + 1
    let s := { s with group := { g with
      state := 1, groupId := BitVec.ofNat 32 (blk c 4 4), self := blk c 2 1, units := blk c 3 1, joinGen := gen, joinAt := ctrlStamp s
      joinCmd := some c.id, peers := ps } }
    writeBlocks (setCmd s { c with phase := .parked .join, res := natLe 2 gen.toNat })

/-- A parked `GROUP_JOIN` completes when every peer is present; a leave that overtakes it makes it `GROUP_ABSENT`. -/
def resumeGroupJoin (c : Cmd) (s : State) : Option State :=
  let g := s.group
  if g.joinCmd ≠ some c.id then some (complete s c .groupAbsent c.res)
  else if g.peers.all (·.present) then
    some (complete (writeBlocks { s with group := { g with state := 2, joinCmd := none } }) c .ok c.res)
  else none

/-- `GROUP_JOIN_TIMEOUT` (16 R374). -/
def groupJoinTimeout (s : State) : State :=
  match s.group.joinCmd.bind (cmdOf s) with
  | some c => if c.dl = none ∧ s.group.joinAt + 3072000 ≤ ctrlStamp s then endCmd s c .groupAbsent else s
  | none => s

/-- Static conditions of `GROUP_LEAVE` (16 R376). -/
def paramsGroupLeave (c : Cmd) : Bool := decide (arg c 24 1 ≤ 1) && restZero c 25

/-- Uncompleted `PEER_SEND`s that a `GROUP_LEAVE` waits for or cancels: started, or fetched before it. -/
def sendsBefore (s : State) (c : Cmd) : List Nat :=
  ((cmdsOf s .pf0).filter (fun d => d.op == .peerSend && (d.phase != .waiting || decide (d.id < c.id)))).map (·.id)

/-- `GROUP_LEAVE` (16 R376). A unit that is in no group has nothing to leave. -/
def runGroupLeave (c : Cmd) (s : State) : State :=
  let ids := sendsBefore s c
  if arg c 24 1 = 1 then complete (resetGroup (endAll s ids .cancelled) true) c .ok
  else setCmd s { c with phase := .parked .others, awaited := ids }

def resumeGroupLeave (c : Cmd) (s : State) : Option State :=
  if stillOpen s c.awaited then none else some (complete (resetGroup s true) c .ok)

/- ### Sending (16 R377 to R380) -/

/-- The peer, where it takes units: this unit is joined, the peer present and the pair not broken. -/
def livePeer (s : State) (u : Nat) : Option Peer := (peerOf s u).filter (fun p => decide (s.group.state = 2) && p.present && !p.broken)

/-- Bytes at the destination for `n` source bytes. -/
def dstBytes (c : Cmd) (n : Nat) : Nat := n * elemBytes (arg c 27 1) / elemBytes (arg c 26 1)

/-- Static conditions of `PEER_SEND` (16 Table 16.6, R380; 07 R179). -/
def paramsPeerSend (c : Cmd) : Bool :=
  let enc := arg c 25 1
  let sf := arg c 26 1
  let df := arg c 27 1
  let len := arg c 36 4
  decide (arg c 24 1 < 4) && decide (enc ≤ 2) && knownFormat sf
  && (if enc = 2 then (sf == 0x04 || sf == 0x05) && (df == 0x04 || df == 0x05) else df == sf)
  && (tierOf (arg c 28 8) == 1 || tierOf (arg c 28 8) == 2) && decide (1 ≤ len) && decide (len ≤ 64 * mib) && (len % elemBytes sf == 0)
  && (arg c 40 4 % elemBytes df == 0) && decide (arg c 44 1 ≤ 1) && restZero c 45

/-- Another `PEER_SEND` to the same peer started earlier and is open (16 R377). -/
def sendAhead (s : State) (c : Cmd) : Bool :=
  s.cmds.any (fun d => d.op == .peerSend && d.id != c.id && d.phase != .waiting && arg d 24 1 == arg c 24 1
    && (decide (d.startStamp < c.startStamp) || (d.startStamp == c.startStamp && decide (d.id < c.id))))

/-- `PEER_SEND`'s checks at its start; then it takes its turn (16 R377, R380). -/
def runPeerSend (c : Cmd) (s : State) : State :=
  let v := arg c 28 8
  if !ownsRange s .pf0 (tierOf v) (offOf v) (arg c 36 4) then complete s c .badParam
  else if s.group.state ≠ 2 then complete s c .groupAbsent
  else match peerOf s (arg c 24 1) with
    | none => complete s c .badParam
    | some p =>
      if !p.present || p.broken then complete s c .groupAbsent
      else if p.advLen < arg c 40 4 + dstBytes c (arg c 36 4) then complete s c .badParam
      else setCmd s { c with phase := .parked .turn }

/-- Credits toward a peer (16 R378). -/
def creditsOf (p : Peer) : U32 := 64 - (p.pseq - p.creditRet)

/-- The slot header of a unit (16 Table 16.3). -/
def slotBytes (c : Cmd) (p : Peer) (stamp k : Nat) (last : Bool) (wire : List Byte) : List Byte :=
  natLe 4 p.pseq.toNat ++ natLe 4 (arg c 40 4 + dstBytes c (4096 * k)) ++ natLe 1 (arg c 27 1) ++ natLe 1 (b2n last) ++ zeroBytes 2
    ++ natLe 4 (crc32c wire).toNat ++ natLe 8 stamp ++ natLe 2 c.pkt.layerId.toNat ++ natLe 2 c.pkt.opId.toNat ++ natLe 4 c.pkt.seq.toNat
    ++ zeroBytes 32

/-- Trace a peer event, in `MODE` 2 (16 R384). -/
def tracePeer (s : State) (ev : Nat) (layer op : U16) (seq pseq : U32) (u : Nat) : State :=
  if s.group.mode = 2 then traceEvent s domDma (peerSource u) ev 0x12 layer op seq (pseq.toNat + 2 ^ 32 * u) else s

/-- Commit the unit after the `cnt` committed ones: the wire unit, then the slot header (16 R378). -/
def commitUnit (c : Cmd) (p : Peer) (raw : List Byte) (s : State) : State × Cmd :=
  let wire := wireUnit (arg c 25 1) (arg c 26 1) raw
  let units := ceilDiv (arg c 36 4) 4096
  let last := arg c 44 1 == 1 && c.cnt + 1 == units
  let slot := p.bar2 + BitVec.ofNat 64 (regionSize * s.group.self + 8192 * (p.pseq.toNat % 64))
  let hdr := slotBytes c p (ctrlStamp s) c.cnt last wire
  let s := { s with group := { s.group with out := s.group.out ++ [(slot + 64, wire), (slot, hdr)] } }
  let s := setPeer s { p with pseq := p.pseq + 1 }
  let s := tracePeer s 0x09 c.pkt.layerId c.pkt.opId c.pkt.seq p.pseq p.unit
  let first := if c.cnt = 0 then p.pseq.toNat else c.first
  let n := c.lost + wire.length
  (s, { c with cnt := c.cnt + 1, first := first, lost := n, res := natLe 4 (c.cnt + 1) ++ natLe 4 first ++ natLe 4 n })

/-- Send the next unit, of which each tick takes one (16 R378; notes/assumptions/16.md): without a credit the command parks, at an absent peer or a
poisoned source it ends. -/
def sendUnit (c : Cmd) (s : State) : State :=
  match livePeer s (arg c 24 1) with
  | none => endCmd s c .groupAbsent
  | some p =>
    let tier := tierOf (arg c 28 8)
    let off := offOf (arg c 28 8) + 4096 * c.cnt
    let n := min 4096 (arg c 36 4 - 4096 * c.cnt)
    if !hostWritable s .pf0 false ∨ creditsOf p = 0 then leaveLink (setCmd s { c with phase := .parked .credit }) .pf0
    else
      let x := checkedRead s c (dmaMaster c.fn) tier off n
      if x.2.isSome then endCmd x.1 c .poison
      else
        let r := commitUnit c p (tierRead x.1 tier off n) x.1
        if r.2.cnt = ceilDiv (arg c 36 4) 4096 then complete (dropWork r.1 r.2) r.2 .ok r.2.res
        else setCmd r.1 { r.2 with phase := .parked .units }

/-- A parked `PEER_SEND` goes on at its turn, when a unit can be sent or none can be sent any more. -/
def resumePeerSend (c : Cmd) (s : State) : Option State :=
  if c.phase = .parked .units then none
  else match livePeer s (arg c 24 1) with
  | none => some (sendUnit c s)
  | some p => if sendAhead s c || !hostWritable s .pf0 false || (c.phase == .parked .credit && creditsOf p == 0) then none else some (sendUnit c s)

/- ### Receiving (16 R371 to R373, R379, R381, R382) -/

/-- Static conditions of `PEER_CREDIT` (16 R381). -/
def paramsPeerCredit (c : Cmd) : Bool :=
  decide (arg c 24 1 < 4) && argZero c 25 27 && decide (1 ≤ arg c 28 4) && decide (arg c 28 4 ≤ 64) && restZero c 32

/-- `PEER_CREDIT` (16 R381). -/
def runPeerCredit (c : Cmd) (s : State) : State :=
  let u := arg c 24 1
  if s.group.state ≠ 2 then complete s c .groupAbsent
  else if (peerOf s u).isNone then complete s c .badParam
  else match livePeer s u with
    | none => complete s c .groupAbsent
    | some p =>
      if (p.rxNext - p.returned).toNat < arg c 28 4 then complete s c .badParam
      else
        let n := p.returned + BitVec.ofNat 32 (arg c 28 4)
        complete (writeBlocks (setPeer s { p with returned := n })) c .ok (natLe 4 n.toNat)

/-- `CONTROL_BLOCK_WRITE` (16 R372). -/
def controlBlockWrite (s : State) : State := if s.group.state = 0 ∨ laurelRuns s = false then s else writeBlocks s

/-- A write to BAR2 that the device ignores (16 R371). -/
def ignoreWrite (s : State) : State := { s with group := { s.group with ignored := s.group.ignored + 1 } }

/-- Both ends reset the pair (16 R382). -/
def resetPair (p : Peer) : Peer := { p with pseq := 0, rxNext := 0, returned := 0, creditRet := 0, broken := false }

/-- A peer after its control block (16 R373, R378, R382). -/
def takeBlock (s : State) (p : Peer) (b : ControlBlock) : Peer :=
  if b.groupId ≠ s.group.groupId then { p with present := false, broken := true, lastBlock := ctrlStamp s }
  else
    let p := if p.gen.isSome && p.gen != some b.joinGen then resetPair p else p
    { p with present := decide (b.pstate ≤ 1), lastBlock := ctrlStamp s, gen := some b.joinGen, advLen := b.rxLen, creditRet := b.creditRet }

/-- End the `PEER_SEND`s to a peer that takes no units any more (16 R380). -/
def endAbsent (s : State) (u : Nat) : State :=
  if (livePeer s u).isSome then s
  else endAll s ((s.cmds.filter (fun c => c.op == .peerSend && (match c.phase with | .parked _ => true | _ => false) && arg c 24 1 == u)).map (·.id))
    .groupAbsent

/-- `CONTROL_BLOCK`: a block of unit `w` arrives; a changed field of this unit's own block is written at once (R372). -/
def controlBlock (w : Nat) (b : ControlBlock) (s : State) : State :=
  if !laurelRuns s then s
  else match peerOf s w with
    | none => ignoreWrite s
    | some p =>
      let q := takeBlock s p b
      let s := setPeer s q
      let s := if p.broken ≠ q.broken ∨ p.rxNext ≠ q.rxNext ∨ p.returned ≠ q.returned then writeBlocks s else s
      endAbsent s w

/-- Bytes of the destination range of a unit (16 R379). -/
def unitSpan (dst : Nat) (wire : List Byte) : Nat :=
  min 4096 (field wire 0 2) * elemBytes dst / elemBytes (field wire 3 1)

/-- Break a pair: `PSTATE` 3 is written (16 R379). -/
def breakPair (s : State) (p : Peer) : State := endAbsent (writeBlocks (setPeer s { p with broken := true })) p.unit

/-- The stamp of a peer-source record (16 R384): in `MODE` 1 the sender's stamp less its offset, else the raw stamp, marked `FOREIGN`. -/
def peerStamp (g : Group) (u stamp : Nat) : Nat × Bool :=
  if g.mode = 1 then (((stamp : Int) - g.offsets.getD u 0).toNat, false) else (stamp, true)

/-- Take a unit into the receive area, or poison its range, and signal (16 R379). -/
def receiveUnit (s : State) (p : Peer) (h : SlotHeader) (wire : List Byte) : State :=
  let base := offOf p.rxBase.toNat + h.dstOff
  let raw := if crc32c wire = h.ucrc then decodeUnit h.dstFmt wire else none
  let s := match raw with
    | some bs => tierWrite s 2 base bs
    | none => poisonRange s base (min (unitSpan h.dstFmt wire) (p.rxLen - h.dstOff))
  let s := signalSem (setPeer s { p with
    rxNext := p.rxNext + 1, stamp := (peerStamp s.group p.unit h.stamp).1, foreign := (peerStamp s.group p.unit h.stamp).2 }) p.rxSem
  tracePeer (writeBlocks s) 0x0A h.layerId h.opId h.xseq h.pseq p.unit

/-- `SLOT_HEADER`: a unit of unit `w` arrives (16 R371, R379). -/
def slotHeader (w : Nat) (h : SlotHeader) (wire : List Byte) (s : State) : State :=
  if !laurelRuns s then s
  else match (peerOf s w).filter (·.present) with
    | none => ignoreWrite s
    | some p =>
      if p.broken then s
      else if h.pseq ≠ p.rxNext ∨ (crc32c wire = h.ucrc ∧ p.rxLen < h.dstOff + unitSpan h.dstFmt wire) then breakPair s p
      else receiveUnit s p h wire

/-- `PEER_ABSENT` (16 R373). -/
def peerAbsent (w : Nat) (s : State) : State :=
  match (peerOf s w).filter (·.present) with
  | none => s
  | some p => if ctrlStamp s < p.lastBlock + 9216 then s else endAbsent (setPeer s { p with present := false }) w

/- ### TIME_SYNC (16 Table 16.7, R384) -/

def paramsTimeSync (c : Cmd) : Bool := decide (arg c 24 1 ≤ 2) && argZero c 26 27 && restZero c 60

/-- `TIME_SYNC`. -/
def runTimeSync (c : Cmd) (s : State) : State :=
  let g := s.group
  if g.state ≠ 2 then complete s c .groupAbsent
  else if argS c (28 + 8 * g.self) 8 ≠ 0 ∨ (arg c 24 1 = 1 ∧ (s.i3c.markValid = false ∨ arg c 25 1 ≠ s.i3c.mark.toNat)) then
    complete s c .badParam
  else
    let s := { s with group := { g with mode := arg c 24 1, offsets := (List.range 4).map (fun u => argS c (28 + 8 * u) 8) } }
    complete s c .ok (natLe 8 s.i3c.latch)

end Sys2Proof.Machine
end

