-- ==== Sys2Proof/Machine/Isp.lean ====
section
/-! DEFINITION. The image pipeline (04 R79 to R81, R86 to R89): the stages of Table 4.3 over the lines that the receiver took in, with the
calibration set of Table 4.4. What the spec does not fix of a stage (how it rounds, its interpolation across pixels, its colour matrix to
Y, Cb and Cr, its dynamic defect detection) is a constant with no body (notes/assumptions/31.md). -/

namespace Sys2Proof.Machine

/-- Samples of an image, row by row. -/
abbrev Image := List (List Nat)

/-- The settings that a frame carries (04 R86, R87): exposures in line times, the two gains in Q8.8, white balance in Q4.12. -/
structure FrameSet where
  exps : List Nat
  again : Nat
  dgain : Nat
  wb : List Nat
deriving DecidableEq, Repr

/-- What the pipeline makes of a frame. -/
structure IspOut where
  presence : List Byte := []
  yPlane : List Byte := []
  cPlane : List Byte := []
  zones : List Byte := []
  zoneY : List Nat := []
  hist : List Byte := []
  clipped : Nat := 0
deriving DecidableEq, Repr

/-- A quotient of the pipeline: exact, or one of the two whole numbers beside it, as the pipeline rounds; by zero it is free. -/
def ispDiv (num : Int) (den : Nat) : Int :=
  if den = 0 then Config.ispFree num else num / den + (if num % den ≠ 0 ∧ Config.ispRoundsUp num den = true then 1 else 0)

def ispDivN (num den : Nat) : Nat := (ispDiv num den).toNat

/-- A sample; one that a short line does not hold is free. -/
def pixel (m : Image) (y x : Nat) : Nat := ((m.getD y [])[x]?).getD (Config.ispFree (y * 65536 + x)).toNat

/-- Map every sample of an image with its row and column. -/
def mapImage (f : Nat → Nat → Nat → Nat) (m : Image) : Image :=
  m.zipIdx.map (fun r => r.1.zipIdx.map (fun e => f r.2 e.2 e.1))

/-- Channel of a mosaic's sample: its place in the 2 × 2 cell, in `BAYER` order (04 Table 4.9). -/
def bayerChannel (y x : Nat) : Nat := 2 * (y % 2) + x % 2

/-- Colour of a channel, 0 R, 1 G, 2 B: RGGB, GRBG, GBRG and BGGR. -/
def bayerColour (bayer ch : Nat) : Nat :=
  (([[0, 1, 1, 2], [1, 0, 2, 1], [1, 2, 0, 1], [2, 1, 1, 0]].getD bayer []).getD ch 0)

/- ### The calibration set (04 Table 4.4) -/

/-- The black level row of an analogue gain in Q8.8: row k for gains in [2^(k/2), 2^((k+1)/2)). -/
def blackRow (again : Nat) : Nat := min 15 (Nat.log2 (again * again) - 16)

def blackLevel (cal : List Byte) (row ch : Nat) : Nat := field cal (4 + 8 * row + 2 * ch) 2
def linEntry (cal : List Byte) (ch i : Nat) : Nat := field cal (132 + 2 * (257 * ch + i)) 2
def shadeEntry (cal : List Byte) (ch gx gy : Nat) : Nat := field cal (2188 + 2 * (221 * ch + 17 * gy + gx)) 2
def ccmEntry (cal : List Byte) (i : Nat) : Int := sfield cal (3956 + 2 * i) 2
def toneEntry (cal : List Byte) (i : Nat) : Nat := field cal (3980 + 2 * i) 2
def defectCount (cal : List Byte) : Nat := field cal 4494 2
def defectAt (cal : List Byte) (i : Nat) : Nat × Nat := (field cal (4496 + 4 * i) 2, field cal (4498 + 4 * i) 2)

/-- A curve of 257 entries, linear between them, at `p` of `full`. -/
def curve (entry : Nat → Nat) (p full : Nat) : Nat :=
  let i := p * 256 / full
  let f := p * 256 % full
  ispDivN (entry i * (full - f) + (if f = 0 then 0 else entry (i + 1) * f)) full

/- ### Stages 1 to 5 -/

/-- Stage 1: black level and linearisation of a RAW image of `bits` bits. -/
def linearise (cal : List Byte) (again bits : Nat) (m : Image) : Image :=
  mapImage (fun y x v => curve (linEntry cal (bayerChannel y x)) (v - blackLevel cal (blackRow again) (bayerChannel y x)) (2 ^ bits)) m

/-- Merge weight of exposure `i` (04 R80): (EXP0 × gain₀) / (EXPi × gainᵢ), as numerator and denominator. The gains of a frame are those of all
its exposures. -/
def mergeWeight (st : FrameSet) (i : Nat) : Nat × Nat :=
  let gain := st.again * st.dgain
  (st.exps.getD 0 0 * gain, st.exps.getD i 0 * gain)

/-- Full scale of a linearised sample. -/
def linFull : Nat := 65535

/-- Stage 2 at one pixel, over the exposures present there, the longest first, each with its weight: the longest one below 95 % of full scale,
scaled, and blended with the next over the 5 % band below that point. With none below it the shortest is taken (notes/assumptions/31.md). -/
def mergePixel : List (Nat × Nat × Nat) → Nat
  | [] => 0
  | [e] => ispDivN (e.1 * e.2.1) e.2.2
  | e :: f :: t =>
    let a := ispDivN (e.1 * e.2.1) e.2.2
    let b := ispDivN (f.1 * f.2.1) f.2.2
    if 95 * linFull ≤ 100 * e.1 then mergePixel (f :: t)
    else if 100 * e.1 < 90 * linFull then a
    else min a b + Config.mergeMix a b % (max a b - min a b + 1)

/-- Stage 2 over the lines of the first exposure; a line that an exposure lacks uses those present. -/
def mergeImages (st : FrameSet) (ms : List Image) : Image :=
  let order := sortOn (fun (i : Nat) => 65536 - st.exps.getD i 0) (List.range ms.length)
  mapImage (fun y x _ => mergePixel ((order.filter (fun i => decide (y < (ms.getD i []).length))).map
    (fun i => (pixel (ms.getD i []) y x, mergeWeight st i)))) (ms.headD [])

/-- Stage 3: the static defects and those detected are filled in. -/
def fixDefects (cal : List Byte) (m : Image) : Image :=
  let listed := (List.range (defectCount cal)).map (defectAt cal)
  mapImage (fun y x v => if listed.contains (x, y) ∨ Config.defectSeen m x y = true then Config.defectFill m x y else v) m

/-- Stage 4: lens shading, bilinear over the 17 × 13 grid that spans the frame. -/
def shade (cal : List Byte) (w h : Nat) (m : Image) : Image :=
  mapImage (fun y x v =>
    let gx := x * 16 / w
    let fx := x * 16 % w
    let gy := y * 12 / h
    let fy := y * 12 % h
    let g := shadeEntry cal (bayerChannel y x)
    let k := g gx gy * (w - fx) * (h - fy) + g (gx + 1) gy * fx * (h - fy) + g gx (gy + 1) * (w - fx) * fy + g (gx + 1) (gy + 1) * fx * fy
    ispDivN (v * k) (4096 * w * h)) m

/-- Stage 5: white balance. -/
def balance (st : FrameSet) (m : Image) : Image := mapImage (fun y x v => ispDivN (v * st.wb.getD (bayerChannel y x) 0) 4096) m

/-- Stages 1 to 5 of a RAW frame. -/
def mosaic (g : CamConfig) (bits : Nat) (st : FrameSet) (raws : List Image) : Image :=
  balance st (shade g.cal g.width g.height (fixDefects g.cal (mergeImages st (raws.map (linearise g.cal st.again bits)))))

/- ### Stages 6 to 10 -/

/-- Stage 7: the colour-correction matrix and offsets. -/
def colourCorrect (cal : List Byte) (p : Nat × Nat × Nat) : Int × Int × Int :=
  let row := fun k => ispDiv (ccmEntry cal (3 * k) * p.1 + ccmEntry cal (3 * k + 1) * p.2.1 + ccmEntry cal (3 * k + 2) * p.2.2) 4096 + ccmEntry cal (9 + k)
  (row 0, row 1, row 2)

/-- Stage 8: the tone map on Y, a 16-bit code whose high byte is the output's. -/
def tone (cal : List Byte) (y : Nat) : Byte := BitVec.ofNat 8 (curve (toneEntry cal) (min y 65535) 65536 / 256)

/-- Stages 6 to 8 of a RAW frame: Y after the tone map, Cb and Cr. -/
def develop (g : CamConfig) (m : Image) : List (List (Byte × Byte × Byte)) :=
  m.zipIdx.map (fun r => r.1.zipIdx.map (fun e =>
    let v := Config.toYuv (colourCorrect g.cal (Config.demosaic g.bayer m e.2 r.2))
    (tone g.cal v.1, v.2.1, v.2.2)))

/-- Stage 8 of a YUV422 frame, whose lines hold Cb, Y, Cr, Y of two pixels in turn. -/
def developYuv (g : CamConfig) (m : Image) : List (List (Byte × Byte × Byte)) :=
  m.map (fun r => (List.range (r.length / 2)).map (fun x =>
    (tone g.cal (257 * r.getD (2 * x + 1) 0), BitVec.ofNat 8 (r.getD (x / 2 * 4) 0), BitVec.ofNat 8 (r.getD (x / 2 * 4 + 2) 0))))

/-- Whole-number mean; of no samples it is 0. -/
def meanOf (l : List Nat) : Nat := if l.isEmpty then 0 else ispDivN l.sum l.length

/-- Samples of a zone of the 16 × 12 grid, of one colour. -/
def zoneSamples (g : CamConfig) (m : Image) (zx zy colour : Nat) : List Nat :=
  (m.zipIdx.filter (fun r => r.2 * 12 / g.height == zy)).flatMap (fun r =>
    (r.1.zipIdx.filter (fun e => e.2 * 16 / g.width == zx && bayerColour g.bayer (bayerChannel r.2 e.2) == colour)).map (·.1))

/-- Zone means of R, G, B and Y after stage 5, row-major (04 Table 4.5). -/
def zoneMeans (g : CamConfig) (m : Image) : List (Nat × Nat × Nat × Nat) :=
  (List.range 192).map (fun z =>
    let mean := fun k => min 65535 (meanOf (zoneSamples g m (z % 16) (z / 16) k))
    (mean 0, mean 1, mean 2, Config.lumaMean (mean 0) (mean 1) (mean 2) % 65536))

/-- Zone means of a YUV422 frame, which no stage before 8 has treated: R, G and B are free. -/
def zoneMeansYuv (g : CamConfig) (m : Image) : List (Nat × Nat × Nat × Nat) :=
  (List.range 192).map (fun z =>
    let ys := (m.zipIdx.filter (fun r => r.2 * 12 / g.height == z / 16)).flatMap (fun r =>
      ((List.range (r.1.length / 2)).filter (fun x => x * 16 / g.width == z % 16)).map (fun x => r.1.getD (2 * x + 1) 0))
    let free := fun k => (Config.ispFree (4 * z + k)).toNat % 65536
    (free 0, free 1, free 2, meanOf ys % 65536))

/-- Counts of Y after stage 8 in 64 bins. -/
def lumaCounts (px : List (List (Byte × Byte × Byte))) : List Nat :=
  (List.range 64).map (fun b => (px.map (fun r => (r.filter (fun p => p.1.toNat / 4 == b)).length)).sum)

/-- A scaled plane of `w` × `h` bytes, row-major. -/
def scaled (m : List (List Byte)) (w h : Nat) : List Byte :=
  (List.range h).flatMap (fun y => (List.range w).map (fun x => Config.scale m w h x y))

/-- Interleaved Cb, Cr at half resolution in both directions. -/
def chroma (px : List (List (Byte × Byte × Byte))) (w h : Nat) : List Byte :=
  let cb := px.map (·.map (·.2.1))
  let cr := px.map (·.map (·.2.2))
  (List.range (ceilDiv h 2)).flatMap (fun y => (List.range (ceilDiv w 2)).flatMap (fun x =>
    [Config.scale cb (ceilDiv w 2) (ceilDiv h 2) x y, Config.scale cr (ceilDiv w 2) (ceilDiv h 2) x y]))

/-- Bits per pixel of a data type. -/
def pixelBits (dt : Nat) : Nat := match dt with | 0x2A => 8 | 0x2B => 10 | 0x2C => 12 | 0x2D => 14 | _ => 16

/-- The pipeline (04 R79): a RAW frame passes stages 1 to 10, a YUV422 frame bypasses stages 1 to 7. Only the valid lines are given to it, so the
statistics cover them only (R89). -/
def runIsp (g : CamConfig) (st : FrameSet) (raws : List Image) : IspOut :=
  let yuv := decide (g.dataType = 0x1E)
  let first := raws.headD []
  let m := if yuv then first else mosaic g (pixelBits g.dataType) st raws
  let px := if yuv then developYuv g m else develop g m
  let ys := px.map (·.map (·.1))
  let zs := if yuv then zoneMeansYuv g m else zoneMeans g m
  let full := if yuv then 255 else 2 ^ pixelBits g.dataType - 1
  { presence := scaled ys 320 240, yPlane := scaled ys g.outWidth g.outHeight, cPlane := chroma px g.outWidth g.outHeight
    zones := zs.flatMap (fun z => natLe 2 z.1 ++ natLe 2 z.2.1 ++ natLe 2 z.2.2.1 ++ natLe 2 z.2.2.2)
    zoneY := zs.map (·.2.2.2)
    hist := (lumaCounts px).flatMap (natLe 4)
    clipped := (first.map (fun r => ((if yuv then (List.range (r.length / 2)).map (fun x => r.getD (2 * x + 1) 0) else r).filter (full ≤ ·)).length)).sum }

/- ### Repaired lines (04 Table 4.6) -/

/-- A line at black level, of the frame's gain; of a YUV422 frame Y 0 and chroma 128. -/
def blackLine (g : CamConfig) (again y : Nat) : List Nat :=
  if g.dataType = 0x1E then (List.range (2 * g.width)).map (fun i => if i % 2 = 0 then 128 else 0)
  else (List.range g.width).map (fun x => blackLevel g.cal (blackRow again) (bayerChannel y x))

/-- A line as it goes on: one whose payload fails its CRC is replaced by the previous line of its exposure, or by a black one. -/
def repairLine (g : CamConfig) (again : Nat) (have_ : Image) (crcOk : Bool) (pixels : List Nat) : List Nat :=
  if crcOk then pixels else (have_.getLast?).getD (blackLine g again have_.length)

end Sys2Proof.Machine
end

