-- ==== Sys2Proof/Machine/Retention.lean ====
section
/-! DEFINITION. What a MEM domain keeps in self refresh, the audio pins, and the gates' wipes: the shared operations behind power
entries, Laurel resets, PRIV_N and INTEGRITY faults (03 R47, R65, R66; 12 R300; 14 R336; 15 R357, R359). -/

namespace Sys2Proof.Machine

/- ### Self refresh (12 R300, 15 R359) -/

/-- Size of a retention block. -/
def blockSize : Nat := 992 * mib

/-- A region that keeps its retention block: every tenant object and KV frame, and a pinned or loading model. -/
def keepsBlock (s : State) (a : Alloc) : Bool :=
  a.tier == 2 && (a.obj != 20 || ((modelOf s a.fn a.owner).map (fun m => pinned m || m.loading)).getD false)

/-- Block `b` of group `g` is kept: the device reserve lies in block 15. -/
def blockKept (s : State) (g b : Nat) : Bool :=
  let lo := g * groupSize + b * blockSize
  b == 15 || s.power.retain.toNat.testBit (16 * g + b)
    || s.store.allocs.any (fun a => keepsBlock s a && overlap a.base a.size lo blockSize)
    || s.store.frames.any (fun f => overlap (f.pfn * 65536) 65536 lo blockSize)

/-- The contents of a block are lost, and the pool models in it are evicted first. -/
def loseBlock (g : Nat) (s : State) (b : Nat) : State :=
  let lo := g * groupSize + b * blockSize
  let gone := s.work.models.filter (fun m =>
    s.store.allocs.any (fun a => a.fn == m.fn && a.tier == 2 && a.obj == 20 && a.owner == m.id && overlap a.base a.size lo blockSize))
  let s : State := gone.foldl evictModel s
  { s with store := { s.store with dram := memClear s.store.dram lo blockSize,
                                   poison := s.store.poison.filter (fun l => !overlap (l * 64) 64 lo blockSize) } }

/-- A group enters self refresh. -/
def groupSelfRefresh (s : State) (g : Nat) : State :=
  if !s.dram.groupsUp.toNat.testBit g then s
  else
    let s : State := ((List.range 16).filter (fun b => !blockKept s g b)).foldl (loseBlock g) s
    { s with power := { s.power with selfRefresh := s.power.selfRefresh ||| BitVec.ofNat 4 (2 ^ g) } }

/-- Groups of a MEM domain. -/
def groupsOfMem (d : Nat) : List Nat := if d = domMema then [0, 1] else [2, 3]

/-- The groups of a MEM domain enter self refresh. -/
def memSelfRefresh (s : State) (d : Nat) : State := (groupsOfMem d).foldl groupSelfRefresh s

/-- What a domain's own state loses when it enters OFF (15 Table 15.1): the coppice buffer of a COP domain, the saved
counters' registers of OBS (17 R387). -/
def loseDomain (s : State) (d : Nat) : State :=
  let p1 := s.store.poison1.filter (fun l => l * 64 / copSize != d - 0x18)
  let t1 := memClear s.store.t1 ((d - 0x18) * copSize) copSize
  if 0x18 ≤ d ∧ d ≤ 0x1B then { s with store := { s.store with t1 := t1, poison1 := p1 } }
  else if d = domObs then { s with obs := { s.obs with saved := s.obs.counters, counters := [] } }
  else s

/- ### The sensor clocks (03 R47, R48, R65) -/

/-- A domain whose clock or supply is on: ON or returning. -/
def domLive (s : State) (d : Nat) : Bool := let x := domOf s d; x.state == .on || x.state == .returning

/-- Array mode: the front end runs at 3.072 MHz. -/
def arrayMode (s : State) : Bool := decide (s.pins.pdmClkA = 3072)

/-- Set the audio clocks to what the domains and the mode require. -/
def setAudioPins (s : State) (array : Bool) : State :=
  { s with pins := { s.pins with pdmClkA := if domLive s domMica then (if array then 3072 else 768) else 0
                                 pdmClkB := if domLive s domMicb then 3072 else 0
                                 vibBclk := if domLive s domVib then 1024 else 0 } }

/- ### The gates (03 R58, R66; 04 R91; 14 R336) -/

/-- A read of a master other than the listen core through a gate boundary (03 R58, 04 R90): at an open gate it gets the bytes; at a closed
one it is refused, gets zeros, and a CONTAINED fault names the master. -/
def boundaryRead (s : State) (opened : Bool) (master : Nat) (bs : List Byte) : State × List Byte :=
  if opened then (s, bs) else (raise s { capture s 0x21 0 1 with master := master, access := 0 }, zeroBytes bs.length)

/-- Ticks of an audio frame (02 R28). -/
def frameTicks : Nat := 30720

/-- Stage 1 starts (03 R52): it analyses mic 0 from the last 800 ms of the ring on, or from the oldest frame the ring holds. -/
def startLookBack (s : State) : State :=
  let from80 := s.stb / frameTicks * frameTicks - 80 * frameTicks
  { s with listen := { s.listen with
      lookFrom := ((s.listen.frames.filter (fun f => f.valid.getLsbD 0 && decide (from80 ≤ f.stamp))).head?.map (·.stamp)).or
        (some (s.stb / frameTicks * frameTicks)) } }

/-- The privet gate closes and the ring and the work area are wiped; a candidate and a wake that has not opened are discarded. -/
def wipeAudio (s : State) : State :=
  { s with
    listen := { s.listen with frames := [], frames48 := [], workArea := [], gateOpen := false, closeDue := false, candidate := none,
                              wakeDecided := none, stage3 := false, stage1 := false, lookFrom := none, direction := 0xFFFF, s0Count := 0, s1Left := 0, endOfTurnAt := none, settleNext := false }
    custody := { s.custody with heldWake := false } }

/-- A camera port's image gate closes, its frame in flight is dropped and its frame store is emptied. -/
def wipeCam (x : Cam) : Cam :=
  { x with gateOpen := false, gateStage2 := false, openDue := false, openDueStage2 := false, closeDue := false, inFrame := false,
           started := false, frames := [], presence := [], prevZoneY := [], motionCount := 0, stage1 := false, stage2 := false, presTake := false, presFrame := none, raw0 := [], raw1 := [], raw2 := [],
           attn := 0, faces := 0, motionLow := none, presLow := none }

/-- Base of a port's frame store in tier 2 (04 R92). -/
def storeBase (s : State) (port : Nat) : Nat := ((s.store.allocs.find? (fun a => a.obj == 19 && a.owner == port)).map (·.base)).getD 0

/-- Sizes of a stored frame's planes. -/
def yBytes (g : CamConfig) : Nat := g.outWidth * g.outHeight
def cBytes (g : CamConfig) : Nat := 2 * ceilDiv g.outWidth 2 * ceilDiv g.outHeight 2

/-- A port's frame store is zero-filled (04 R91). -/
def zeroStore (s : State) (port : Nat) (g : CamConfig) : State :=
  if s.store.allocs.any (fun a => a.obj == 19 && a.owner == port) then
    { s with store := { s.store with dram := memClear s.store.dram (storeBase s port) (g.frameSlots * (yBytes g + cBytes g)) } }
  else s

/-- Both ports' frame stores. -/
def zeroStores (s : State) : State := zeroStore (zeroStore s 0 s.cam0.cfg) 1 s.cam1.cfg

/-- Both ports. -/
def wipeCams (s : State) : State := { zeroStores s with cam0 := wipeCam s.cam0, cam1 := wipeCam s.cam1 }

end Sys2Proof.Machine
end

