-- ==== Sys2Proof/Machine/Custody.lean ====
section
/-! DEFINITION. The custody lease, the Laurel reset, the reactions to FATAL and INTEGRITY faults, the die link and the mirrors (01
R9 to R26; 02 R32 to R36; 05 R125; 14 R330 to R336). -/

namespace Sys2Proof.Machine

/- ### The master log (14 R330) -/

/-- Log the captures that Laurel has not yet forwarded. -/
def forwardAll (s : State) : State :=
  s.fault.forward.foldl (fun s c => finishInjections (logCapture s c) c.source c.inst) { s with fault := { s.fault with forward := [] } }

/- ### The Laurel reset (05 R125; 14 R334; 15 R357; 17 R386, R387, R392) -/

/-- Laurel's domains. -/
def laurelDoms (s : State) : List Nat := (s.power.doms.map (·.id)).filter (fun d => decide (0x10 ≤ d) && domPresent s.fuse.part d)

/-- A forced entry of a Laurel domain: the MEM domains keep their groups in self refresh, every other domain goes OFF
(notes/assumptions/41.md). -/
def forceDomain (s : State) (d : Nat) : State :=
  if memDoms.contains d then
    if (domOf s d).state = .off then s
    else
      memSelfRefresh (updDom s d (fun x => { bookTime s x with state := .ret, demand := false, forced := min (x.forced + 1) 255, frozenAt := s.stb,
                                                               expiredAt := none, byHost := none, stopped := false })) d
  else loseDomain (forceOff s d) d

/-- Observation after a Laurel reset: counters, bins, trace settings and watches are lost; the halt snapshot stays. -/
def resetObs (o : Obs) : Obs :=
  { o with counters := [], saved := [], restarted := true, bins := [], overflow := none, snapAt := none, snapWaiting := [],
           trace0 := {}, trace1 := {}, watches := [] }

/-- The work on Laurel is lost; models stay where DRAM keeps them. -/
def resetWork (s : State) : State :=
  let s : State := (s.work.models.filter (·.loading)).foldl (fun s m => dropAllocs (setModel s { m with loading := false }) m.fn [20] m.id) s
  { s with work := { s.work with slots := [], steps := [], admitted := [], jobs := [], cached := [] },
           store := { s.store with frames := [] } }

/-- Both sessions and every ring end without completions, and both admin rings are disabled. -/
def loseSessions (s : State) : State :=
  let s := resetGroup s false
  let s := dropSession (dropSession { s with heldOut := [] } .pf0) .pf1
  disableAdmin (disableAdmin s .pf0) .pf1

/-- A Laurel reset. Gorse then returns CTRL, unless a Gorse FATAL or an INTEGRITY fault keeps Laurel in reset. -/
def laurelReset (s : State) : State :=
  let s := forwardAll s
  let s := resetWork (loseSessions s)
  let s : State := (laurelDoms s).foldl forceDomain s
  let hold := s.custody.noReturn || s.fault.integrity
  let s : State := { s with
    obs := resetObs s.obs
    mirrors := []
    turns := []
    dlink := { s.dlink with trained := false, limitAt := none, replaysGL := 0, replaysLG := 0 }
    pcie := { s.pcie with link := .down }
    boot := { s.boot with laurelReleased := false, laurelHeld := hold, stage := if s.boot.stage = 4 then 1 else s.boot.stage }
    fault := { s.fault with haltLaurel := false, cpDead := 0, injections := [] }
    custody := { s.custody with quiescing := false, revokeSeen := false, quietSent := false, revokedAt := none, stopped := false,
                                grantAsked := false, renewals := [], acks := [] } }
  if hold then s else demandDom (demandDom s domCtrl 0x00 0x06) domLink 0x00 0x06

/- ### Stage 3 (01 R14, R15, R26) -/

/-- The resources of tenant 0 that `LISTEN_POLICY` names for a wake. -/
def wakeDomains (s : State) : List Nat :=
  let p := s.listen.wakePolicy
  let gs := (maskList p.wakeGroups.toNat).filter (ownsGroup s .pf0)
  let cs := (maskList p.wakeCoppices.toNat).filter (ownsCoppice s .pf0)
  domCtrl :: gs.map memOfGroup ++ cs.map domCop
    ++ cs.flatMap (fun c => (List.range (min p.wakeTiles (activeTiles s c))).map (fun t => domTile (physTile s c t)))

/-- Start the residency of the wake's model once Laurel runs; the wake starts no work of its own (01 R15). -/
def wakeModelNow (s : State) : State :=
  match (if s.listen.stage3 && laurelRuns s && leaseHeld s then modelOf s .pf0 s.listen.wakePolicy.wakeModel else none) with
  | some m =>
    if m.resident.isSome || m.loading then s
    else ((wakeResidency s m (maskOf ((maskList s.listen.wakePolicy.wakeGroups.toNat).filter (ownsGroup s .pf0)))).map (·.1)).getD s
  | none => s

/-- Return what a wake needs: a request that Gorse makes (15 Table 15.3 reason 0x06). -/
def returnForWake (s : State) : State :=
  let gs := (maskList s.listen.wakePolicy.wakeGroups.toNat).filter (ownsGroup s .pf0)
  wakeModelNow ((wakeDomains s).foldl (fun s d => demandDom s d 0x00 0x06) (wantGroups s gs))

/-- Gorse requests stage 3; while the state is `REVOKED` the request is held (01 R26). -/
def requestStage3 (s : State) : State :=
  if s.custody.state = .revoked then { s with custody := { s.custody with heldWake := true } } else returnForWake s

/- ### Grants and revocations (01 R18 to R26) -/

/-- Length of a lease from an acknowledgement, and of the guard. -/
def leaseTicks : Nat := 6144
def renewTicks : Nat := 2048
def guardTicks : Nat := 16

/-- Gorse grants the next epoch. The spec counts the expiry and the renewals from the last acknowledgement only; the model counts those of a
new grant from the grant, as if it were one (DESIGN CHOICE, notes/assumptions/66.md). -/
def grantLease (s : State) : State :=
  let c := s.custody
  let s := { s with
    custody := { c with epoch := c.epoch + 1, state := .granted, line := true, expiry := s.stb + leaseTicks,
                        laurelExpiry := s.stb + leaseTicks, renewAt := ctrlStamp s + renewTicks, renewals := [], acks := [],
                        stopped := false, quiescing := false, revokedAt := none, revokeSeen := false, quietSent := false,
                        grantAsked := false, heldWake := false }
    fault := { s.fault with healthAt := s.stb, kickCp0 := s.stb, kickCp1 := s.stb } }
  let s := flushHeld (flushHeld s .pf0) .pf1
  if c.heldWake then returnForWake s else wakeModelNow s

/-- Gorse revokes (01 R20). A lease that is already revoked is not revoked again. -/
def revokeLease (s : State) (cause : Nat) : State :=
  let c := s.custody
  if c.state ≠ .granted then s
  else { s with custody := { c with state := .revoked, cause := cause, revocations := min (c.revocations + 1) (2 ^ 24 - 1), line := false,
                                    quiescing := true, revokedAt := some s.stb, revokeSeen := false, quietSent := false,
                                    renewals := [], acks := [] } }

/- ### Fault reactions (14 R332 to R336) -/

/-- The domain that latches a counter, and the unit that a counter counts for (17 Table 17.1, Table 17.3). -/
def counterDom (id inst : Nat) : Nat :=
  if 2 ≤ id ∧ id ≤ 5 then domTile inst
  else if id = 6 then domEdge inst
  else if id = 0x10 ∨ id = 0x11 ∨ id = 0x21 then (if inst < 2 then domMema else domMemb)
  else if id = 0x12 ∨ id = 0x13 then domNand
  else if id = 0x14 ∨ id = 0x15 then domDma
  else domCtrl

/-- Aggregate and device counters of the part, in ascending order: identifier and instance. -/
def catalogue (s : State) : List (Nat × Nat) :=
  let n := unitsOf s.fuse.part
  let each := fun (id k : Nat) => (List.range k).map (fun i => (id, i))
  each 1 2 ++ each 2 (10 * n) ++ each 3 (10 * n) ++ each 4 (10 * n) ++ each 5 (10 * n) ++ each 6 n ++ each 7 2 ++ each 0x10 n ++ each 0x11 n
    ++ each 0x12 n ++ each 0x13 n ++ each 0x14 2 ++ each 0x15 2 ++ each 0x20 2 ++ each 0x21 n

/-- A counter as its domain latches it: at the arrival when ON, else frozen at its last clock-stop point (17 R387, R388). The bytes
moved on DRAM, NAND and PCIe (0x0010 to 0x0015) follow from transfers that the spec leaves to the device: free values. -/
def latchCounter (s : State) (arrival : Nat → Nat) (k : Nat × Nat) : CounterRec :=
  let d := counterDom k.1 k.2
  let on := domOn s d
  { id := k.1, inst := k.2, dom := d, frozen := !on, uncertain := (mirrorOf s d).uncertain,
    arrival := if on then arrival d else (domOf s d).frozenAt,
    value := if 0x10 ≤ k.1 ∧ k.1 ≤ 0x15 then BitVec.ofNat 64 (Config.freeNat (s.freeCtr + k.1 + 256 * k.2))
      else ((s.obs.counters.find? (fun c => c.id == k.1 && c.inst == k.2)).map (·.value)).getD 0 }

/-- Free values that one snapshot may draw. -/
def counterDraws : Nat := 65536

/-- ALIVE edges are suppressed from 64 tk after the detection of a FATAL or INTEGRITY fault (14 R350). -/
def suppressAlive (s : State) : State :=
  { s with fault := { s.fault with suppressFrom := some (s.fault.suppressFrom.getD (s.stb + 64)) } }

/-- The snapshot of a FATAL halt (14 R332, 17 R389). -/
def haltSnapshot (s : State) : State :=
  { s with freeCtr := s.freeCtr + counterDraws
           obs := { s.obs with halt := (catalogue s).map (latchCounter s (fun _ => s.stb)), haltAt := s.stb, haltHeld := true } }

/-- A command processor whose lockstep or watchdog failed writes no completion (14 R334). -/
def markDead (s : State) (src inst : Nat) : State :=
  if (src = 0x0B || src = 0x1D) && inst < 2 then
    { s with fault := { s.fault with cpDead := s.fault.cpDead ||| BitVec.ofNat 2 (2 ^ inst) } }
  else s

/-- The FATAL row of 06 Table 6.9: the tile or edge command on the failed unit itself is discarded. -/
def discardUnit (s : State) (src inst : Nat) : State :=
  let own := fun (a : Admitted) => (src == 0x08 && !a.edge && cutUnit s a == inst) || (src == 0x09 && a.edge && a.cut.coppice == inst)
  let s1 := (s.work.admitted.filter own).foldl (fun s a => discardTrace s a 1) s
  { s1 with work := { s1.work with admitted := s1.work.admitted.filter (fun a => !own a) } }

/-- A Laurel FATAL (14 R332 to R334): the engines halt, the counters are latched, and Gorse revokes once it has the capture;
a fault that Gorse itself detected is there at once. -/
def laurelFatalWith (s : State) (c : Capture) : State :=
  let s := markDead (discardUnit (suppressAlive s) c.source c.inst) c.source c.inst
  let s := haltSnapshot { s with fault := { s.fault with laurelFatal := true, haltLaurel := true } }
  let s := raiseAt s c.source c.inst c
  if c.laurel then s else revokeLease s 4

/-- A Gorse FATAL (14 R335). -/
def gorseFatalWith (s : State) (c : Capture) : State :=
  let s := raiseAt (suppressAlive s) c.source c.inst c
  let s := { s with fault := { s.fault with gorseFatal := true, haltGorse := true }, custody := { s.custody with noReturn := true } }
  revokeLease s 5

/-- An INTEGRITY fault (14 R336): the gates close and their stores are wiped, nothing more is written, and Laurel is held in
reset with the custody state `NONE`. -/
def integrityWith (s : State) (c : Capture) : State :=
  let s := raiseAt (suppressAlive s) c.source c.inst c
  let s := { s with fault := { s.fault with integrity := true } }
  let s := wipeCams (wipeAudio s)
  let s := { laurelReset s with pcie := s.pcie }
  { s with custody := { s.custody with state := .none, line := false, heldWake := false } }

/-- A fault by its class, with the reaction of the die that it is a fault of: `gorse` says that a FATAL is Gorse's own. -/
def react (s : State) (c : Capture) (gorse : Bool) : State :=
  if c.cls = 3 then integrityWith s c
  else if c.cls = 2 then (if gorse then gorseFatalWith s c else laurelFatalWith s c)
  else raiseAt s c.source c.inst c

/- ### Custody events -/

/-- Gorse runs its firmware: out of reset, past the ROM, and not in recovery. -/
def gorseRuns (s : State) : Bool := !s.boot.inReset && decide (1 ≤ s.boot.stage) && decide (s.boot.stage ≤ 4) && !s.boot.recovery && !s.fault.integrity

/-- `RENEWAL_DUE` (01 R18): due while the state is `GRANTED`, Laurel's own stop included; a renewal that cannot be sent over an untrained
link is not sent. -/
def renewalDue (s : State) : State :=
  let c := s.custody
  if !laurelRuns s || c.state != .granted || !c.line || c.quiescing || decide (ctrlStamp s < c.renewAt) then s
  else { s with custody := { c with renewAt := c.renewAt + renewTicks,
                                    renewals := if s.dlink.trained then c.renewals ++ [c.epoch] else c.renewals } }

/-- `RENEWAL` (01 R18, R20): Gorse acknowledges a valid renewal and revokes at a wrong epoch. A halted Gorse controller
acknowledges nothing (14 R335). -/
def renewalAt (epoch : U32) (s : State) : State :=
  let c := s.custody
  if !gorseRuns s || s.fault.haltGorse || c.state ≠ .granted || !s.dlink.trained then s
  else if epoch ≠ c.epoch then revokeLease s 1
  else if c.expiry < s.stb then s
  else { s with custody := { c with expiry := s.stb + leaseTicks, renewals := c.renewals.drop 1, acks := c.acks ++ [s.stb + leaseTicks] } }

/-- `ACKNOWLEDGEMENT` (01 R19): Laurel keeps the lease up to the acknowledged expiry. One that ends Laurel's own stop lets the held
records be written (05 R102, R127) and a wake's model be made resident. -/
def acknowledgement (expiry : Nat) (s : State) : State :=
  let c := s.custody
  if !s.boot.laurelReleased || !s.dlink.trained || !c.acks.contains expiry then s
  else
    let e := max c.laurelExpiry expiry
    let t := { s with custody := { c with laurelExpiry := e, acks := c.acks.erase expiry,
                                          stopped := c.stopped && !(c.line && decide (ctrlStamp s + guardTicks < e)) } }
    if c.stopped && !t.custody.stopped then wakeModelNow (flushHeld (flushHeld t .pf0) .pf1) else t

/-- `LEASE_GUARD` (01 R19). -/
def leaseGuard (s : State) : State :=
  let c := s.custody
  if leaseHeld s && decide (c.laurelExpiry ≤ ctrlStamp s + guardTicks) then { s with custody := { c with stopped := true } } else s

/-- `LEASE_EXPIRY` (01 R20, Table 1.9). -/
def leaseExpiry (s : State) : State :=
  if s.custody.state = .granted ∧ s.custody.expiry ≤ s.stb then revokeLease s 2 else s

/-- The open packets of the rings whose command processor still works, in fetch order; an injection that has fired has
committed (14 R348). -/
def contested (s : State) : List Nat :=
  (s.cmds.filter (fun c => !(c.op == .faultInject && !c.misc.isEmpty) && !s.fault.cpDead.toNat.testBit (match c.fn with | .pf0 => 0 | .pf1 => 1))).map (·.id)

/-- `REVOKE` (01 R20): the message reaches Laurel over the trained link. The tail of every open ring is latched, everything uncommitted is killed and every packet
fetched before the latch completes `CONTESTED`; those of a failed command processor get no completion (14 R334). A Laurel that
was reset meanwhile has no lease left to give up. -/
def revokeSeen (s : State) : State :=
  if s.custody.state ≠ .revoked ∨ s.custody.revokedAt = none ∨ s.custody.revokeSeen = true ∨ s.dlink.trained = false
    ∨ s.boot.laurelReleased = false then s
  else
    let s : State := { s with rings := s.rings.map (fun r => if r.enabled then { r with latched := some r.fetched } else r) }
    let ids := contested s
    let s := endAll (ids.foldl undoInstall s) ids .contested
    let s := forgetAll s (s.cmds.map (·.id))
    let s : State := s.work.steps.foldl discardStep s
    { s with custody := { s.custody with revokeSeen := true, quietSent := true } }

/-- Laurel has to be reset before a new grant (14 R334, R335). -/
def needsReset (s : State) : Bool := decide (4 ≤ s.custody.cause) || s.fault.laurelFatal || s.fault.gorseFatal

/-- `QUIET` (01 R21, 14 R334). -/
def quietReport (s : State) : State :=
  if s.custody.state ≠ .revoked ∨ s.custody.quietSent = false ∨ s.dlink.trained = false then s
  else if needsReset s then laurelReset s else grantLease s

/-- `QUIET_TIMEOUT` (01 R21). -/
def quietTimeout (s : State) : State :=
  match s.custody.revokedAt with
  | some t => if s.custody.state = .revoked ∧ t + 4096 ≤ s.stb then laurelReset s else s
  | none => s

/-- `GRANT` (01 R17, R21, R25): Laurel has asked for the lease. -/
def grantEvent (s : State) : State :=
  if !s.custody.grantAsked || !s.dlink.trained || s.custody.state == .granted || s.custody.noReturn || !gorseRuns s || s.fault.haltGorse then s
  else grantLease s

/-- The lease is given up cleanly (01 R24, R25). -/
def relinquishLease (s : State) : State := { s with custody := { s.custody with state := .relinquished, line := false } }

/-- `RELINQUISH` (01 R24, R25): sent at the end of CTRL's unrefused refusal window; a wrong epoch revokes (Table 1.9). -/
def relinquishEvent (epoch : U32) (s : State) : State :=
  let x := domOf s domCtrl
  if s.custody.state ≠ .granted ∨ s.dlink.trained = false then s
  else if epoch ≠ s.custody.epoch then revokeLease s 1
  else if x.state = .entering ∧ x.entryAt + 4 ≤ s.stb then relinquishLease s else s

/- ### The die link (01 R9, R10; 14 R348) -/

/-- A refused flit: replayed and counted; the eighth refusal in a row starts retraining. -/
def badFlit (dir : Nat) (i : Option Injection) (s : State) : State :=
  let c := capture s 0x10 dir 0
  let s := match i with | some i => fireInjection s i c | none => raise s c
  let s := countUp s 0x0020 dir 1
  let l := s.dlink
  let n := (if dir = 0 then l.replaysGL else l.replaysLG) + 1
  if 8 ≤ n then
    raise { s with dlink := { l with trained := false, limitAt := some (s.stb + 8192), limitDir := dir, replaysGL := 0, replaysLG := 0 } }
      (capture s 0x10 dir 0)
  else { s with dlink := if dir = 0 then { l with replaysGL := n } else { l with replaysLG := n } }

/-- Gorse sees a disagreement in a control message of Laurel's (01 R20, Table 1.9): another epoch than the current one, an act on what R6
gives to Gorse, or a claim on a domain whose transition Gorse has in hand. -/
def controlMessage (s : State) (k : LinkMsg) : State :=
  let st := fun d => (domOf s d).state
  if !gorseRuns s || s.fault.haltGorse then s
  else match k with
    | .data => s
    | .control e => if e ≠ s.custody.epoch then revokeLease s 1 else s
    | .gorseAct => revokeLease s 3
    | .domainClaim d => if d < 0x10 ∨ st d = .entering ∨ st d = .returning then revokeLease s 3 else s

/-- `FLIT_RECEIVED` (01 R9). An armed injection makes its number of transmissions bad in a row (14 Table 14.7). A flit of Laurel's that
arrives whole brings its message to Gorse. -/
def flitReceived (dir : Nat) (crcOk : Bool) (k : LinkMsg) (s : State) : State :=
  if !s.dlink.trained || decide (2 ≤ dir) || s.fault.haltLaurel then s
  else match armed s 0x10 dir (fun _ => true) with
    | some i => (List.range i.bits).foldl (fun s k => if s.dlink.trained then badFlit dir (if k = 0 then some i else none) s else s) s
    | none =>
      if crcOk then
        let t := { s with dlink := if dir = 0 then { s.dlink with replaysGL := 0, seqGL := s.dlink.seqGL + 1 }
                                   else { s.dlink with replaysLG := 0, seqLG := s.dlink.seqLG + 1 } }
        if dir = 1 then controlMessage t k else t
      else badFlit dir none s

/-- `RETRAINING_ATTEMPT` (01 R9, 14 R350): health counts afresh from the tick on which the link trains. -/
def retrainingAttempt (ok : Bool) (s : State) : State :=
  if s.dlink.trained || !s.boot.laurelReleased || !ok then s
  else { s with dlink := { s.dlink with trained := true, limitAt := none, replaysGL := 0, replaysLG := 0 },
                fault := { s.fault with healthAt := s.stb } }

/-- `RETRAIN_LIMIT` (01 R9): the Laurel collector raises the FATAL fault, and the master holds it in force at once. -/
def retrainLimit (s : State) : State :=
  match s.dlink.limitAt with
  | some t =>
    if s.dlink.trained || decide (s.stb < t) then s
    else
      let s := { s with dlink := { s.dlink with limitAt := none },
                        fault := { s.fault with firstSource := if s.fault.firstSource = 0 then 0x10 else s.fault.firstSource } }
      revokeLease (laurelFatalWith s (capture s 0x10 s.dlink.limitDir 2)) 4
  | none => s

/- ### Mirrors (02 R32 to R36) -/

def setMirror (s : State) (m : Mirror) : State := { s with mirrors := m :: s.mirrors.filter (fun x => x.dom != m.dom) }

/-- `CHECK_MESSAGE` (02 R32): the message carries the STB of a tick that is a multiple of 4,096, and each running mirror, in its reload window
or not, compares itself at that edge. -/
def checkMessage (dom v : Nat) (s : State) : State :=
  let m := mirrorOf s dom
  if !s.dlink.trained || !domOn s dom || dom < 0x10 || v != s.stb || v % 4096 != 0 || stampOf s dom == v then s
  else setMirror (raise s (capture s 0x20 dom 0)) { m with uncertain := true }

/-- `EXACT_RELOAD` (02 R36): over the trained link Gorse sends the exact value `v` of an edge that has passed; with the edges since then the
mirror stands at the STB, and the region's uncertainty ends. -/
def exactReload (dom v : Nat) (s : State) : State :=
  let m := mirrorOf s dom
  if !m.uncertain || !s.dlink.trained || decide (s.stb < v) then s else setMirror s { m with offset := 0, uncertain := false }

/-- `STROBE_LOST` (02 R34). -/
def strobeLost (dom : Nat) (s : State) : State :=
  if domOn s dom && decide (0x10 ≤ dom) && domPresent s.fuse.part dom then laurelFatalWith s (capture s 0x1F dom 2) else s

end Sys2Proof.Machine
end

