-- ==== Sys2Proof/Machine/Faults.lean ====
section
/-! DEFINITION. Fault events and commands: captures, scrubs, watchdogs, health, ALIVE, monitors, tile retirement, `FAULT_READ`,
`FAULT_CLEAR` and `FAULT_INJECT` (01 R12, R13; 14 R330 to R351; 20 R421, R426). -/

namespace Sys2Proof.Machine

/- ### Captures and classes -/

/-- `CAPTURE_FORWARD` (14 R330, R334): the master logs the oldest capture that Laurel has not forwarded, and revokes at a
FATAL one. -/
def captureForward (s : State) : State :=
  match s.fault.forward with
  | [] => s
  | c :: rest =>
    if !s.dlink.trained || s.boot.inReset then s
    else
      let s := finishInjections (logCapture { s with fault := { s.fault with forward := rest } } c) c.source c.inst
      if c.cls = 2 then revokeLease s 4 else s

/-- Sources of a Laurel FATAL, a Gorse FATAL and an INTEGRITY fault (14 Table 14.3). -/
def laurelFatalSources : List Nat := [0x02, 0x04, 0x0B, 0x10, 0x18, 0x1A, 0x1D, 0x1E, 0x1F]
def gorseFatalSources : List Nat := [0x03, 0x04, 0x1C]
def integritySources : List Nat := [0x03, 0x04, 0x0D, 0x19, 0x1B, 0x22, 0x23, 0x24]

/-- `LAUREL_FATAL` of a released Laurel. -/
def laurelFatalEvent (src inst : Nat) (s : State) : State :=
  if s.boot.laurelReleased && laurelFatalSources.contains src && decide (inst < 256) then laurelFatalWith s (capture s src inst 2) else s

/-- `GORSE_FATAL` of a running Gorse. -/
def gorseFatalEvent (src inst : Nat) (s : State) : State :=
  if gorseRuns s && gorseFatalSources.contains src && decide (inst < 256) then
    let s := if src = 0x1C then { s with fault := { s.fault with gorseWdt := true } } else s
    gorseFatalWith s (capture s src inst 2)
  else s

/-- `INTEGRITY_FAULT`. -/
def integrityEvent (src inst : Nat) (s : State) : State :=
  if !s.boot.inReset && integritySources.contains src && decide (inst < 256) then integrityWith s (capture s src inst 3) else s

/-- `VOLTAGE_MONITOR_TRIP` (20 R421). -/
def voltageTrip (rail : Rail) (s : State) : State :=
  if s.boot.inReset then s
  else match rail with
    | .vddAon | .vddGorse | .vddSram => integrityWith s (capture s 0x1B 0 3)
    | _ => laurelFatalWith s (capture s 0x1A 0 2)

/-- `CLOCK_MONITOR_TRIP` (20 R426, 14 Table 14.3). -/
def clockTrip (clk : ClockMon) (s : State) : State :=
  if s.boot.inReset then s
  else match clk with
    | .crystal | .gorse => integrityWith s (capture s 0x19 0 3)
    | .laurel => if s.boot.laurelReleased then laurelFatalWith s (capture s 0x18 0 2) else s

/- ### The SRAM scrub (14 R338) -/

/-- The class of a scrubbed error, and whether a FATAL one is Gorse's. -/
def scrubClass (reg : SramRegion) (bits : Nat) : Nat × Bool :=
  if bits = 1 then (0, false)
  else match reg with
    | .tileBuffer | .coppiceBuffer => (1, false)
    | .laurelControl => (2, false)
    | .gorse => (2, true)
    | .gateBoundary | .rootEngine => (3, true)

/-- The memory of a region is powered. -/
def scrubRuns (s : State) (reg : SramRegion) (unit : Nat) : Bool :=
  match reg with
  | .tileBuffer => domOn s (domTile unit) && decide (unit < 40)
  | .coppiceBuffer => domOn s (domCop unit) && decide (unit < 4)
  | .laurelControl => domOn s domCtrl && s.boot.laurelReleased
  | .rootEngine => domOn s domRoot
  | _ => !s.boot.inReset

/-- `SRAM_SCRUB` of one line: 1 or 2 wrong bits. A coppice-buffer line with two is poisoned. -/
def sramScrub (reg : SramRegion) (unit bits addr : Nat) (s : State) : State :=
  if !scrubRuns s reg unit || decide (bits = 0) || decide (2 < bits) || s.fault.integrity then s
  else
    let k := scrubClass reg bits
    let inst := match reg with | .tileBuffer | .coppiceBuffer => unit | _ => 0
    let s := if reg = .coppiceBuffer ∧ bits = 2 then
        { s with store := { s.store with poison1 := s.store.poison1 ++ [(unit * copSize + addr % copSize) / 64] } }
      else s
    let own := match reg with | .tileBuffer => some (t1Coppice s (unit / 10)) | .coppiceBuffer => some (t1Coppice s unit) | _ => none
    let dom := match reg with | .tileBuffer => domTile unit | .coppiceBuffer => domCop unit | .laurelControl => domCtrl | _ => 0x00
    react s { (capture s 0x04 inst k.1).inRegion s dom with address := BitVec.ofNat 64 (addr % 2 ^ 60), device := own.isNone, tenant1 := own == some true } k.2

/- ### Tile retirement (01 R11 to R13, 14 source 0x28) -/

def copTiles (s : State) (c : Nat) : CopTiles := s.work.tiles.getD c { logical := [] }
def setCopTiles (s : State) (c : Nat) (x : CopTiles) : State :=
  { s with work := { s.work with tiles := s.work.tiles.zipIdx.map (fun y => if y.2 = c then x else y.1) } }

/-- Unused spare tiles of a coppice. -/
def spareTiles (s : State) (c : Nat) : List Nat :=
  let x := copTiles s c
  ((List.range 10).map (10 * c + ·)).filter (fun t => !x.logical.contains t && !x.retired.contains t)

/-- The tile command that runs on a retired tile is killed and runs again, unless its command is only waiting to end (06 R447). -/
def rerunOn (s : State) (c n : Nat) : State :=
  let hit := s.work.admitted.filter (fun a => a.cut.coppice == c && !a.edge && a.cut.tile == n)
  let s1 : State := hit.foldl (fun s a =>
    (workCmds s a.cut.work).foldl (fun s id => warnCmd s id warnRerun) (countUp (discardTrace s a 5) 0x0005 (cutUnit s a) 1)) s
  let s2 : State := { s1 with work := { s1.work with admitted := s1.work.admitted.filter (fun a => !hit.contains a) } }
  (hit.flatMap (fun a => workCmds s a.cut.work)).foldl endPoisoned s2

/-- A logical tile goes with no spare: the tiles above it take the numbers below. -/
def shiftCuts (s : State) (c n : Nat) : State :=
  { s with work := { s.work with admitted := s.work.admitted.map (fun a =>
      if a.cut.coppice = c ∧ a.edge = false ∧ n < a.cut.tile then { a with cut := { a.cut with tile := a.cut.tile - 1 } } else a) } }

/-- Retire a whole tile. -/
def retireTile (s : State) (tile : Nat) : State :=
  let c := tile / 10
  let x := copTiles s c
  let s := match x.logical.findIdx? (· == tile) with
    | none => setCopTiles s c { x with retired := x.retired ++ [tile] }
    | some n =>
      let s := rerunOn s c n
      match (spareTiles s c).head? with
      | some sp => setCopTiles s c { x with logical := x.logical.set n sp, retired := x.retired ++ [tile] }
      | none => shiftCuts (setCopTiles s c { x with logical := x.logical.eraseIdx n, retired := x.retired ++ [tile] }) c n
  updDom s (domTile tile) (fun d => { bookTime s d with state := .off, demand := false })

/-- `TILE_RETIREMENT` (01 R12): a tile, or one of its rows while a row spare is left. -/
def tileRetirement (tile : Nat) (row : Bool) (s : State) : State :=
  let c := tile / 10
  let x := copTiles s c
  if !gorseRuns s || s.fault.haltGorse || !coppicePresent s c || x.retired.contains tile then s
  else if row then
    if 2 ≤ (x.rowsUsed.filter (· == tile)).length then s
    else
      let s := match x.logical.findIdx? (· == tile) with | some n => rerunOn s c n | none => s
      bumpMap (raise (setCopTiles s c { x with rowsUsed := x.rowsUsed ++ [tile] }) (capture s 0x28 tile 0))
  else bumpMap (raise (retireTile s tile) (capture s 0x28 tile 0))

/- ### Health, watchdogs and ALIVE (14 R349, R350) -/

/-- A Laurel health message is owed: Laurel is released and runs, and the die link is trained. -/
def healthOwed (s : State) : Bool :=
  s.boot.laurelReleased && s.dlink.trained && decide (s.custody.state ≠ .relinquished) && !s.custody.grantAsked && domOn s domCtrl

/-- `HEALTH_MESSAGE`: the first one after Laurel has been released again ends a Laurel FATAL. -/
def healthMessage (s : State) : State :=
  if !(s.boot.laurelReleased && s.dlink.trained && domOn s domCtrl) then s
  else
    let f := { s.fault with healthAt := s.stb }
    let f := if s.fault.haltLaurel then f
      else { f with laurelFatal := false, suppressFrom := if f.gorseFatal || f.integrity then f.suppressFrom else none }
    { s with fault := f }

/-- Time that the collectors wait for a kick or a message. -/
def watchTicks : Nat := 3072

/-- `HEALTH_LOST`. -/
def healthLost (s : State) : State :=
  if healthOwed s && !s.fault.laurelFatal && decide (s.fault.healthAt + watchTicks ≤ s.stb) then laurelFatalWith s (capture s 0x1E 0 2) else s

/-- `WATCHDOG_EXPIRY`: no kick for the period; the CP watchdogs stop while CTRL is in RET. -/
def watchdogExpiry (which : Watchdog) (s : State) : State :=
  let cp := fun (i kick : Nat) =>
    if laurelRuns s && decide (s.custody.state ≠ .relinquished) && decide (kick + watchTicks ≤ s.stb)
    then laurelFatalWith s (capture s 0x1D i 2) else s
  match which with
  | .gorse => if gorseRuns s && decide (s.fault.kickGorse + watchTicks ≤ s.stb) then gorseFatalEvent 0x1C 0 s else s
  | .cp0 => cp 0 s.fault.kickCp0
  | .cp1 => cp 1 s.fault.kickCp1

/-- Why an ALIVE edge is not made now: 0 is none (21 Table 21.5 `CAUSE`). -/
def aliveCause (s : State) : Nat :=
  let f := s.fault
  let inForce := (f.laurelFatal || f.gorseFatal || f.integrity) && (match f.suppressFrom with | some t => decide (t ≤ s.stb) | none => false)
  if f.gorseWdt then 2 else if inForce then 1
  else if f.testStop || (healthOwed s && decide (f.healthAt + watchTicks < s.stb)) then 3 else 0

/-- `ALIVE_EDGE` on a multiple of 1,536 tk. -/
def aliveEdge (s : State) : State :=
  let f := s.fault
  if !f.aliveRun || s.stb % 1536 != 0 || f.lastEdge == s.stb then s
  else
    let k := aliveCause s
    if k = 0 then { s with fault := { f with level := !f.level, suppressed := false, aliveCause := 0, edges := f.edges + 1, lastEdge := s.stb } }
    else { s with fault := { f with suppressed := true, aliveCause := k, lastEdge := s.stb } }

/- ### FAULT_READ and FAULT_CLEAR (14 R343 to R346) -/

/-- `FLAGS` of a record. -/
def captureFlags (c : Capture) : Nat :=
  b2n c.injected + 2 * b2n c.uncertain + 4 * b2n c.device + 8 * b2n (c.tenant1 && !c.device)

/-- A capture record as a tenant reads it (14 Table 14.4, R344). -/
def captureBytes (c : Capture) (hide : Bool) : List Byte :=
  let h := fun n : Nat => if hide then 0 else n
  natLe 8 c.stamp ++ natLe 4 c.fseq.toNat ++ natLe 1 c.source ++ natLe 1 c.inst ++ natLe 1 c.cls ++ natLe 1 (captureFlags c)
    ++ natLe 8 (h c.address.toNat) ++ natLe 1 (h c.master) ++ natLe 1 c.access ++ natLe 2 (h c.ring) ++ natLe 4 (h c.cmdSeq.toNat)
    ++ natLe 4 c.count ++ natLe 2 (h c.layerId.toNat) ++ natLe 2 (h c.opId.toNat) ++ natLe 8 (h c.detail.toNat) ++ zeroBytes 16

/-- Records that a tenant owns, and records that it may read. -/
def ownsRecord (fn : Fn) (c : Capture) : Bool := !c.device && (c.tenant1 == (fn == .pf1))
def readsRecord (fn : Fn) (c : Capture) : Bool := c.device || ownsRecord fn c

/-- Static conditions of `FAULT_READ`. -/
def paramsFaultRead (c : Cmd) : Bool :=
  let n := arg c 28 2
  decide (1 ≤ n) && decide (n ≤ 256) && decide (arg c 30 1 < 16) && argZero c 31 31 && restZero c 44
    && decide (destNeed c (64 * n) ≤ arg c 40 4)

/-- `FAULT_READ` (14 R345). -/
def runFaultRead (c : Cmd) (s : State) : State :=
  let src : U32 := BitVec.ofNat 32 (arg c 24 4)
  let mask := arg c 30 1
  let l := s.fault.log.filter (fun x => readsRecord c.fn x && (mask == 0 || mask.testBit x.cls)
    && (src == 0xFFFFFFFF || decide (0 ≤ low32Diff x.fseq src)))
  let out := l.take (arg c 28 2)
  let bs := out.flatMap (fun x => captureBytes x (c.fn == .pf1 && x.device))
  let s := if out.isEmpty then s else writeDest s c (arg c 32 8) bs
  complete s c .ok (natLe 4 ((out.head?.map (·.fseq.toNat)).getD 0) ++ natLe 2 out.length ++ natLe 2 (l.length - out.length)
    ++ natLe 4 s.fault.lost)

def paramsFaultClear (c : Cmd) : Bool := restZero c 28

/-- Records that a tenant may clear. -/
def clearsRecord (fn : Fn) (c : Capture) : Bool := ownsRecord fn c || (fn == .pf0 && c.device)

/-- `FAULT_CLEAR` (14 R346). -/
def runFaultClear (c : Cmd) (s : State) : State :=
  let n : U32 := BitVec.ofNat 32 (arg c 24 4)
  let gone := fun (x : Capture) => clearsRecord c.fn x && (n == 0xFFFFFFFF || x.fseq == n)
  let k := (s.fault.log.filter gone).length
  if n ≠ 0xFFFFFFFF ∧ k = 0 then complete s c .badParam
  else complete { s with fault := { s.fault with log := s.fault.log.filter (fun x => !gone x) } } c .ok (natLe 4 k)

/- ### FAULT_INJECT (14 R347, R348) -/

/-- Targets and the highest `UNIT` on the largest part. For 0x01 it is a physical tile, or with an `ADDRESS` the coppice whose
buffer holds the line (notes/assumptions/52.md). -/
def injectUnits : List (Nat × Nat) :=
  [(0x01, 39), (0x02, 0), (0x03, 0), (0x08, 39), (0x09, 3), (0x0A, 3), (0x0B, 1), (0x0D, 1), (0x10, 1), (0x11, 31), (0x14, 3), (0x22, 0),
   (0x23, 0)]

/-- Highest `BITS` of a target. -/
def injectBits (t : Nat) : Nat := if [0x01, 0x02, 0x03, 0x11, 0x14].contains t then 2 else if t = 0x10 then 8 else 1

/-- `UNIT` lies within the instances of the target on the largest part. -/
def injectRange (c : Cmd) : Bool :=
  match injectUnits.find? (fun e => e.1 == arg c 24 1) with
  | some e => decide (arg c 25 1 ≤ (if arg c 24 1 = 0x01 ∧ arg c 28 8 ≠ 0 then 3 else e.2))
  | none => false

/-- Static conditions of `FAULT_INJECT`. -/
def paramsFaultInject (c : Cmd) : Bool :=
  injectRange c && decide (1 ≤ arg c 26 1) && decide (arg c 26 1 ≤ injectBits (arg c 24 1)) && argZero c 27 27 && restZero c 36

/-- The unit of an injection exists and is in service. -/
def injectPresent (s : State) (t u a : Nat) : Bool :=
  if t = 0x01 then coppicePresent s (if a = 0 then u / 10 else u)
  else if t = 0x09 || t = 0x0A then coppicePresent s u
  else if t = 0x08 then coppicePresent s (u / 10)
  else if t = 0x11 then groupPresent s (u / 8)
  else if t = 0x14 then nandPresent s u && (nandCh s u).inService
  else true

/-- Tenant 1 owns the unit. -/
def injectForeign (s : State) (t u a : Nat) : Bool :=
  if t = 0x01 then t1Coppice s (if a = 0 then u / 10 else u)
  else if t = 0x0B then decide (u = 1) && decide (s.regs.partition ≠ 0)
  else unitTenant s t u == some .pf1

/-- Targets that both tenants share, and INTEGRITY checkers. -/
def sharedTargets : List Nat := [0x02, 0x03, 0x0D, 0x10, 0x22, 0x23]
def integrityTargets : List Nat := [0x0D, 0x22, 0x23]

/-- A checker that works in each cycle fires at once. -/
def fireNow (s : State) (t u bits : Nat) : State :=
  if t = 0x02 || t = 0x03 then react s (capture s t u (if bits = 1 then 0 else 2)) (t == 0x03)
  else if t = 0x0B then react s (capture s t u 2) false
  else if integrityTargets.contains t then react s (capture s t u 3) true
  else s

/-- `FAULT_INJECT` arms a checker and completes when the injection's record is made. -/
def runFaultInject (c : Cmd) (s : State) : State :=
  let t := arg c 24 1
  let u := arg c 25 1
  let a := arg c 28 8
  if injectForeign s t u a || (sharedTargets.contains t && bothActive s) || (integrityTargets.contains t && s.fuse.oemLock)
      || decide (4 ≤ s.fault.injections.length) then complete s c .badParam
  else if !injectPresent s t u a then complete s c .notPresent
  else
    let i : Injection := { target := t, unit := u, bits := arg c 26 1, address := BitVec.ofNat 64 a, cmd := c.id }
    let s := setCmd s { c with phase := .parked .injection, misc := [] }
    fireNow { s with fault := { s.fault with injections := s.fault.injections ++ [i] } } t u i.bits

/- ### The thermal cap (00 R5, 15 R364) -/

/-- The junction range of the ordered grade (00 Table 0.3). -/
def junctionOk (s : State) (temp : Int) : Bool := decide ((if s.fuse.gradeE then -40 else -10) ≤ temp) && decide (temp ≤ 105)

/-- `THERMAL_CAP` at a temperature inside the range. -/
def thermalCap (temp : Int) (s : State) : State :=
  { s with power := { s.power with cap := if 100 ≤ temp then true else if temp < 95 then false else s.power.cap } }

end Sys2Proof.Machine
end

