-- ==== Sys2Proof/Machine/Listening.lean ====
section
/-! DEFINITION. Listening and the wake path (03): frame recording, the stage tests, wakes and the privet gate, PRIV_N and TALK_N,
`LISTEN_POLICY`, `WAKE_ARM` and `AUDIO_READ`. -/

namespace Sys2Proof.Machine

/- ### Domains and clocks (03 R47, R50, Table 3.4) -/

/-- Ticks of the longest candidate and hold (03 R55, R56). -/
def candidateTicks : Nat := 6144000

/-- The Gorse controller and the listen core work (14 R335, R336). -/
def listens (s : State) : Bool := gorseRuns s && !s.fault.haltGorse

/-- A wake is decided or its gate is open. -/
def wakeUnderWay (s : State) : Bool := s.listen.wakeDecided.isSome || s.listen.gateOpen

/-- The policy that rules the audio: that of the wake under way, or of the open candidate (03 R56), else the policy in force. -/
def audioPolicy (s : State) : ListenPolicy :=
  if wakeUnderWay s then s.listen.wakePolicy else if s.listen.candidate.isSome then s.listen.candPolicy else s.listen.policy

/-- Vision stage 1 needs the listen core (04 Table 4.7). -/
def visionListens (s : State) : Bool := s.cam0.stage1 || s.cam1.stage1

/-- A candidate is open, or closed on this very tick: what its close brings at the next frame boundary comes after this tick (03 R54, R56 and the
example of the wake stages). -/
def candidateHeld (s : State) : Bool := s.listen.candidate.isSome || s.listen.closedAt == some s.stb

/-- The state that `MODE` and the wake stages give an audio domain. -/
def audioWant (s : State) (d : Nat) : DomState :=
  let mode := (audioPolicy s).mode
  let on := fun (b : Bool) => if b then DomState.on else .off
  if d = domMica then on (mode != 0 || wakeUnderWay s)
  else if d = domMicb then on (mode == 2 || candidateHeld s || wakeUnderWay s)
  else if d = domVib then on (mode != 0)
  else if s.listen.stage1 || candidateHeld s || visionListens s then .on
  else if mode = 0 then .off else .ret

def audioDoms : List Nat := [0x01, 0x02, 0x03, 0x04]

/-- Start the returns that are due. -/
def raiseAudio (s : State) : State :=
  audioDoms.foldl (fun s d => if audioWant s d = .on then demandDom s d 0x00 0x06 else s) s

/-- Entries of the cascade. A domain that another control took deeper stays there. -/
def lowerAudio (s : State) : State :=
  audioDoms.foldl (fun s d =>
    let w := audioWant s d
    if w = .on || (domOf s d).state = w || ((domOf s d).state == .off && w == .ret) then s else cascadeState s d w) s

/-- The changes of a frame boundary (03 R50): domains, then clocks. A wake decided on this tick changes the clocks at the next boundary (Table
3.4), and domains that PRIV_N released on this tick return at the next (R67). A frame that begins with another rate on mic 0 carries
`SETTLE`. -/
def settleAudio (s : State) : State :=
  let s1 := setAudioPins (lowerAudio (if s.listen.privReturn then s else raiseAudio s)) (wakeUnderWay s && s.listen.wokeAt != some s.stb)
  let old := s.pins.pdmClkA
  { s1 with listen := { s1.listen with settleNext := decide (old ≠ 0 ∧ s1.pins.pdmClkA ≠ 0 ∧ old ≠ s1.pins.pdmClkA) } }

/- ### Wakes (03 R59, R60, R63, R64) -/

/-- First frame boundary at or after a tick. -/
def boundaryAfter (t : Nat) : Nat := roundUp t frameTicks

/-- A wake asserts PEWAKE_N while the link or PF0 sleeps too deep (05 R128). -/
def assertPewake (s : State) : State :=
  if s.pcie.link == .l12 || s.pcie.link == .l2 || s.pcie.d0 == .d3cold then { s with pins := { s.pins with pewakeLow := true } } else s

/-- Keep the frames of the release point and after. -/
def dropBefore (release : Nat) (l : Listen) : Listen :=
  { l with frames := l.frames.filter (fun f => decide (release ≤ f.stamp)), frames48 := [], workArea := [] }

/-- A wake source fires (03 R59, R63): while a wake is under way it is only counted. A decided wake invalidates the frames older than
its release point, ends the candidate, and requests stage 3. It runs under the policy `p`, and `dir` is the talker's direction, where one was
estimated. -/
def wake (s : State) (src : WakeSource) (release : Nat) (p : ListenPolicy) (dir : Nat) : State :=
  if !listens s || s.listen.priv then s
  else if wakeUnderWay s then { s with listen := { s.listen with extraWakes := min (s.listen.extraWakes + 1) 65535 } }
  else
    let l := dropBefore release s.listen
    let s := { s with listen := { l with
      wakeId := l.wakeId + 1, lastSource := src, wakePending := true, wakeDecided := some release, release := release, candidate := none,
      closedAt := if l.candidate.isSome then some s.stb else l.closedAt, wokeAt := some s.stb, stage3 := true, wakePolicy := p, direction := dir, overMain := 0, over48 := 0, start48 := 0, endOfTurnAt := none, closeDue := false } }
    requestStage3 (raiseAudio (assertPewake s))

/-- `CANDIDATE_OPEN` (03 R53). -/
def candidateOpen (score : Nat) (s : State) : State :=
  let l := s.listen
  if !listens s || l.priv || !l.stage1 || !domOn s 0x04 || l.candidate.isSome || decide (score < l.policy.s1Threshold) then s
  else
    let s := raiseAudio { s with listen := { l with candidate := some s.stb, candAt := s.stb, candPolicy := l.policy, workArea := natLe 2 score } }
    setAudioPins s (arrayMode s)

/-- Array frames were valid by now (03 R54). -/
def arrayHeard (s : State) : Bool := match s.listen.frames.getLast? with | some f => f.valid.getLsbD 1 | none => false

/-- Longest time from a phrase end to its decision. -/
def decideTicks : Nat := 460800

/-- `STAGE_2_DECISION` (03 R54). -/
def stage2Decision (ver spk phraseEnd : Nat) (dir : Option Nat) (s : State) : State :=
  let p := s.listen.candPolicy
  match s.listen.candidate with
  | none => s
  | some t =>
    if !listens s || !domOn s 0x04 || decide (s.stb < phraseEnd) || decide (phraseEnd + decideTicks < s.stb) || decide (t + candidateTicks < s.stb) then s
    else
      let ok := decide (p.s2Threshold ≤ ver) && (p.spkProfile == 0 || decide (p.spkThreshold ≤ spk))
      let d := if arrayHeard s then (match dir with | some d => if d < 360 then d else 0xFFFF | none => 0xFFFF) else 0xFFFF
      let s := { s with listen := { s.listen with candidate := none, closedAt := some s.stb } }
      if ok then wake s .phrase (boundaryAfter phraseEnd) p d else s

/-- `CANDIDATE_TIMEOUT` (03 R55). -/
def candidateTimeout (s : State) : State :=
  match s.listen.candidate with
  | some t => if t + candidateTicks ≤ s.stb then { s with listen := { s.listen with candidate := none, closedAt := some s.stb } } else s
  | none => s

/- ### AUDIO_READ (03 R71 to R73) -/

def audioRate (c : Cmd) : Nat := arg c 30 1
def audioWaits (c : Cmd) : Bool := (arg c 32 1).testBit 1
def audioCloses (c : Cmd) : Bool := (arg c 32 1).testBit 0

/-- Channels of a record: the selected ones, then the beam. -/
def audioChannels (s : State) (c : Cmd) : List Nat :=
  (List.range 9).filter (fun i => (arg c 28 2).testBit i) ++ (if (audioPolicy s).beam = 1 then [9] else [])

def audioSamples (c : Cmd) : Nat := if audioRate c = 1 then 480 else 160
def audioRecord (s : State) (c : Cmd) : Nat := 32 + 4 * (audioChannels s c).length * audioSamples c

/-- Static conditions of `AUDIO_READ`. -/
def paramsAudioRead (c : Cmd) : Bool :=
  decide (arg c 28 2 < 512) && decide (audioRate c ≤ 1) && decide (1 ≤ arg c 31 1) && decide (arg c 31 1 ≤ 100) && decide (arg c 32 1 < 4)
    && argZero c 33 35 && restZero c 48 && !(audioRate c == 1 && (arg c 28 2).testBit 8)

/-- Samples of a channel of a frame. -/
def frameChannel (f : AudioFrame) (i : Nat) : List (BitVec 24) := if i < 8 then f.mics.getD i [] else if i = 8 then f.vib else f.beam

/-- One frame record (03 Table 3.10). -/
def audioBytes (s : State) (c : Cmd) (f : AudioFrame) (gap : Bool) : List Byte :=
  let chans := audioChannels s c
  let n := audioSamples c
  let valid := (chans.filter (fun i => f.valid.getLsbD i)).map (fun i => 2 ^ i)
  natLe 8 f.stamp ++ natLe 4 f.fseq ++ natLe 2 valid.sum ++ natLe 2 (b2n f.settle + 2 * b2n f.endOfTurn + 4 * b2n gap) ++ natLe 2 n
    ++ natLe 1 chans.length ++ [0] ++ natLe 2 f.direction ++ natLe 2 s.listen.wakeId.toNat ++ zeroBytes 8
    ++ (List.range n).flatMap (fun t => chans.flatMap (fun i =>
        intLe 4 (if f.valid.getLsbD i then ((frameChannel f i).getD t 0).toInt else 0)))

/-- What a read has gathered (03 Table 3.11); `misc` holds the first stamp written and the `END_OF_TURN` seen. -/
def audioResult (s : State) (c : Cmd) : List Byte :=
  natLe 4 (c.misc.getD 0 0) ++ natLe 2 c.cnt ++ natLe 2 (min c.lost 65535) ++ natLe 2 s.listen.wakeId.toNat
    ++ natLe 2 (b2n (!s.listen.gateOpen) + 2 * c.misc.getD 1 0)

/-- Frames skipped before a stamp because the ring overwrote them. -/
def audioLost (s : State) (c : Cmd) : Nat :=
  if audioRate c = 1 then (s.listen.over48 - max c.first s.listen.start48) / frameTicks else (s.listen.overMain - c.first) / frameTicks

/-- Write one frame record. -/
def writeAudio (x : State × Cmd) (f : AudioFrame) : State × Cmd :=
  let s := x.1
  let c := x.2
  let gone := audioLost s c
  let r := boundaryRead s s.listen.gateOpen (dmaMaster .pf0) (audioBytes s c f (decide (0 < gone)))
  let s := writeDest r.1 c (arg c 36 8 + audioRecord s c * c.cnt) r.2
  let c := { c with misc := [if c.cnt = 0 then f.stamp % 2 ^ 32 else c.misc.getD 0 0, max (c.misc.getD 1 0) (b2n f.endOfTurn)],
                    cnt := c.cnt + 1, lost := c.lost + gone, first := f.stamp + frameTicks }
  ({ s with listen := { s.listen with unread := max s.listen.unread c.first } }, c)

/-- The readable frames of a read, oldest first. -/
def audioReady (s : State) (c : Cmd) : List AudioFrame :=
  ((if audioRate c = 1 then s.listen.frames48 else s.listen.frames).filter (fun f => decide (max c.first s.listen.release ≤ f.stamp))).take
    (arg c 31 1 - c.cnt)

/-- The final completion of a read; `CLOSE` asks for the gate's close (03 R62). -/
def finishAudio (s : State) (c : Cmd) : State :=
  let s := if audioCloses c ∧ s.listen.gateOpen then { s with listen := { s.listen with closeDue := true } } else s
  complete s c (if c.lost = 0 then .ok else .truncated) (audioResult s c)

/-- A read takes the frames that are ready: it completes, or waits for more. -/
def pumpAudio (c : Cmd) (s : State) : State :=
  let r := (audioReady s c).foldl writeAudio (s, c)
  if arg c 31 1 ≤ r.2.cnt ∨ audioWaits c = false then finishAudio r.1 r.2
  else
    let c := { r.2 with phase := .parked .frames }
    setCmd r.1 { c with res := audioResult r.1 c }

/-- A read begins at an open gate (03 R72), `parked` after it waited for the wake: 0xFFFF_FFFF then means the wake's release point. The spec
does not say what a `FROM` inside a frame means; the model starts at the next frame boundary (DESIGN CHOICE, notes/assumptions/72.md). -/
def beginAudio (c : Cmd) (parked : Bool) (s : State) : State :=
  let x := arg c 24 4
  let start : Nat := if x = 2 ^ 32 - 1 then (if parked then s.listen.release else s.listen.unread)
    else (expand32 (BitVec.ofNat 32 x) c.fetchStamp).toNat
  pumpAudio { c with first := max (boundaryAfter start) s.listen.release, cnt := 0, lost := 0, misc := [] } s

/-- `AUDIO_READ`. -/
def runAudioRead (c : Cmd) (s : State) : State :=
  if s.listen.priv then complete s c .privacyBlock (audioResult s c)
  else if (audioRate c = 1 ∧ (audioPolicy s).arrayRate = 0) ∨ arg c 44 4 < arg c 31 1 * audioRecord s c then complete s c .badParam
  else if s.listen.gateOpen then beginAudio c false s
  else if audioWaits c then setCmd s { c with phase := .parked .gateOpen, res := audioResult s c }
  else complete s c .privacyBlock (audioResult s c)

/-- A read that waits for the gate begins when it opens; one that waits for frames ends when the gate closes. -/
def resumeAudioRead (c : Cmd) (s : State) : Option State :=
  if c.phase = .parked .gateOpen then
    if !s.listen.gateOpen then none
    else if arg c 44 4 < arg c 31 1 * audioRecord s c || (audioRate c == 1 && (audioPolicy s).arrayRate == 0) then some (complete s c .badParam)
    else some (beginAudio c true s)
  else if !s.listen.gateOpen then some (finishAudio s c)
  else if (audioReady s c).isEmpty then none
  else some (pumpAudio c s)

/-- Reads that wait for frames take the frame that has just ended. -/
def serveAudio (s : State) : State :=
  (s.cmds.filter (fun c => c.op == .audioRead && c.phase == .parked .frames)).foldl (fun s c => (resumeAudioRead c s).getD s) s

/- ### The gate (03 R60 to R62) -/

/-- `GATE_OPEN`. -/
def gateOpen (s : State) : State :=
  match s.listen.wakeDecided with
  | some r =>
    if s.listen.priv || !listens s then s
    else { s with listen := { dropBefore r s.listen with gateOpen := true, wakeDecided := none, unread := r, gateSession := s.sess0.number } }
  | none => s

/-- `RELEASE_MAX` has elapsed since the release point, in 100 ms units (03 R62). -/
def releaseElapsed (s : State) : Bool :=
  let u := s.listen.wakePolicy.releaseMax
  let n := if u = 0 then 300 else u
  decide (s.listen.release + 307200 * n ≤ s.stb)

/-- The gate closes at a frame boundary: waiting reads end with the records they have. -/
def closeAudio (s : State) : State :=
  if !(s.listen.gateOpen && (s.listen.closeDue || releaseElapsed s)) then s
  else
    let s := { s with listen := { s.listen with gateOpen := false, closeDue := false, stage3 := false, endOfTurnAt := none, direction := 0xFFFF } }
    (s.cmds.filter (fun c => c.op == .audioRead && c.phase == .parked .frames)).foldl finishAudio s

/-- `RELEASE_MAX_ELAPSED`. -/
def releaseMaxElapsed (s : State) : State :=
  if s.listen.gateOpen && releaseElapsed s then { s with listen := { s.listen with closeDue := true } } else s

/- ### Frame boundaries (03 R50 to R57) -/

/-- A domain was ON over the whole frame that ends now. -/
def onForFrame (s : State) (d : Nat) : Bool := domOn s d && decide ((domOf s d).mark + frameTicks ≤ s.stb)

/-- Frames that the ring and the extension hold (03 Table 3.5). -/
def ringFrames : Nat := 400
def extFrames : Nat := 29

/-- The samples of a microphone among the slots of the data lines (03 Table 3.1): mic 0 on PDM_DAT_A, the odd ones on rising edges and the even
ones on falling edges of PDM_DAT0 to PDM_DAT3; the falling slot of PDM_DAT3 is ignored. -/
def slotMic (datA : PdmLine) (dat : List PdmLine) (i : Nat) : List (BitVec 24) :=
  if i = 0 then datA.rising
  else
    let l := dat.getD ((i - 1) / 2) {}
    if i % 2 = 1 then l.rising else l.falling

/-- The voice axis in a TDM frame: the first 24 bit clocks of slot 0, MSB first (03 R48). -/
def voiceAxis (frame : BitVec 64) : BitVec 24 := (frame >>> 40).setWidth 24

/-- The frame that has just ended, as the ring keeps it. A frame carries the direction that stood when it was recorded: those between a wake's
release point and its decision have none and no beam (DESIGN CHOICE, notes/assumptions/71.md). -/
def frameOf (s : State) (a : AudioIn) (ext : Bool) : AudioFrame :=
  let m0 := onForFrame s domMica
  let ar := onForFrame s domMicb
  let vb := onForFrame s domVib && !ext
  let beam := ar && (audioPolicy s).beam == 1 && decide (s.listen.direction ≠ 0xFFFF)
  let stamp := s.stb - frameTicks
  let src := fun i => if ext then slotMic a.datA48 a.dat48 i else slotMic a.datA a.dat i
  { stamp := stamp, fseq := s.listen.fseqMic.toNat,
    valid := BitVec.ofNat 10 (b2n m0 + 254 * b2n ar + 256 * b2n vb + 512 * b2n beam),
    settle := s.listen.settleNext, endOfTurn := s.listen.endOfTurnAt == some stamp, direction := s.listen.direction,
    mics := (List.range 8).map (fun i => if (if i = 0 then m0 else ar) then src i else []),
    vib := if vb then a.tdm.map voiceAxis else [], beam := if beam then (if ext then a.beam48 else a.beam) else [] }

/-- Add a frame to a ring of `n`; the oldest goes first. -/
def pushFrame (n : Nat) (l : List AudioFrame) (f : AudioFrame) : List AudioFrame × Option Nat :=
  let m := l ++ [f]
  if n < m.length then (m.drop 1, (m.head?).map (fun x => x.stamp + frameTicks)) else (m, none)

/-- Record the frame that has just ended (02 R37; 03 R57). -/
def recordFrame (a : AudioIn) (s : State) : State :=
  let f := frameOf s a false
  if s.stb < frameTicks ∨ f.valid = 0 then s
  else
    let l := s.listen
    let r := pushFrame ringFrames l.frames f
    let ext := l.gateOpen && (audioPolicy s).arrayRate == 1 && arrayMode s && decide (l.release ≤ f.stamp)
    let e := if ext then pushFrame extFrames l.frames48 (frameOf s a true) else (l.frames48, none)
    { s with listen := { l with
      frames := r.1, overMain := r.2.getD l.overMain, frames48 := e.1, over48 := e.2.getD l.over48,
      start48 := if ext ∧ l.start48 = 0 then f.stamp else l.start48,
      fseqMic := if f.valid.getLsbD 0 then l.fseqMic + 1 else l.fseqMic,
      fseqArray := if f.valid.getLsbD 1 then l.fseqArray + 1 else l.fseqArray,
      fseqVib := if f.valid.getLsbD 8 then l.fseqVib + 160 else l.fseqVib,
      endOfTurnAt := if f.endOfTurn then none else l.endOfTurnAt } }

/-- The stage-0 test of the frame that has just ended (03 R51). -/
def stage0Pass (s : State) (a : AudioIn) : Bool :=
  let p := s.listen.policy
  let mic := onForFrame s domMica && decide (p.s0Energy ≤ a.energy) && decide (p.s0Spectral ≤ a.share)
  let vib := onForFrame s domVib && decide (p.s0VibEnergy ≤ a.vibEnergy)
  match p.s0Combine with | 0 => mic || vib | 1 => mic && vib | 2 => mic | _ => vib

/-- Stages 0 and 1 at a frame boundary (03 R51, R52): stage 0 fires, and stage 1 runs on for the hangover. -/
def runStages (a : AudioIn) (s : State) : State :=
  let l := s.listen
  let p := l.policy
  let pass := stage0Pass s a
  let n := if pass then l.s0Count + 1 else 0
  let armed := l.armed.getLsbD 0 && decide (p.mode ≠ 0) && listens s && !l.priv
  let left := if pass then p.s1Hangover else l.s1Left - 1
  let runs := armed && ((l.stage1 && decide (0 < left)) || decide (p.s0Hold ≤ n))
  let s := { s with listen := { l with s0Count := n, stage1 := runs, s1Left := if runs then left else 0, lookFrom := if runs then l.lookFrom else none } }
  if runs && !l.stage1 && domOn s domListen then startLookBack s else s

/-- The frames of mic 0 that the running stage 1 has to analyse (03 R52). -/
def stage1Frames (s : State) : List AudioFrame :=
  match s.listen.lookFrom with
  | some t => s.listen.frames.filter (fun f => f.valid.getLsbD 0 && decide (t ≤ f.stamp))
  | none => []

/-- A host policy change is due at this boundary (03 R56): one that arrived while a candidate was open waits for its close, 2 s at most, and
not for a boundary on which the candidate closes but for the next. -/
def holdOver (s : State) (c : Cmd) : Bool :=
  !candidateHeld s || decide (c.startStamp < s.listen.candAt) || decide (c.startStamp + candidateTicks ≤ s.stb)

def askedPolicy (c : Cmd) : ListenPolicy :=
  { mode := arg c 24 1, sources := BitVec.ofNat 3 (arg c 25 1), arrayRate := arg c 26 1, beam := arg c 27 1, s0Energy := argS c 28 2,
    s0Spectral := arg c 30 1, s0Hold := arg c 31 1, s1Threshold := arg c 32 2, s2Threshold := arg c 34 2, spkThreshold := arg c 36 2,
    spkProfile := arg c 38 1, keywordSet := arg c 39 1, releaseMax := arg c 40 2, wakeCoppices := BitVec.ofNat 4 (arg c 42 1),
    wakeGroups := BitVec.ofNat 4 (arg c 43 1), wakeModel := arg c 44 2, wakeTiles := arg c 46 1, s0VibEnergy := argS c 48 2,
    s0Combine := arg c 50 1, s1Hangover := arg c 51 1 }

/-- Result of a `WAKE_ARM` that made no wake. -/
def armResult (s : State) : List Byte := zeroBytes 8 ++ natLe 2 s.listen.wakeId.toNat

/-- The sources a `WAKE_ARM` names are a subset of the policy's (03 R70). The spec does not say which policy's where a held `LISTEN_POLICY`
takes effect between the command's start and its own effect; the model asks it of both (DESIGN CHOICE, notes/assumptions/73.md). -/
def subsetArmed (s : State) (c : Cmd) : Bool := arg c 25 1 &&& s.listen.policy.sources.toNat == arg c 25 1

/-- A held change takes effect; `DOMAIN_POLICY` and `FW_ACTIVATE` are let go to act (`aux` 1). -/
def applyHeld (s : State) (c : Cmd) : State :=
  if !holdOver s c then s
  else match c.op with
    | .listenPolicy =>
      let p := askedPolicy c
      complete { s with listen := { s.listen with policy := p, armed := p.sources } } c .ok (natLe 8 s.stb)
    | .wakeArm =>
      if !subsetArmed s c then complete s c .badParam
      else complete { s with listen := { s.listen with armed := BitVec.ofNat 3 (arg c 25 1) } } c .ok (armResult s)
    | _ => setCmd s { c with aux := 1 }

def applyHolds (s : State) : State := (s.cmds.filter (fun c => c.phase == .parked .policyHold)).foldl applyHeld s

/-- A port's domain is to be ON. -/
def camWanted (x : Cam) : Bool := x.configured && x.streaming

/-- The camera domains return at the first boundary after PRIV_N's release (03 R67). -/
def privCams (s : State) : State :=
  if !s.listen.privReturn || s.listen.privLowAt == s.stb then s
  else
    let s := { s with listen := { s.listen with privReturn := false } }
    let up := fun (s : State) (b : Bool) (d : Nat) => if b then demandDom s d 0x00 0x06 else s
    up (up s (camWanted s.cam0) (domCam 0)) (camWanted s.cam1) (domCam 1)

/-- `AUDIO_FRAME_BOUNDARY`. -/
def audioFrameBoundary (a : AudioIn) (s : State) : State :=
  if s.stb % frameTicks ≠ 0 ∨ s.boot.inReset = true ∨ s.listen.boundaryAt = some s.stb then s
  else
    let s := runStages a (recordFrame a { s with listen := { s.listen with boundaryAt := some s.stb } })
    let s := closeAudio (serveAudio s)
    settleAudio (privCams (if listens s then applyHolds s else s))

/- ### PRIV_N and TALK_N (03 R59, R63, R65 to R67) -/

/-- Commands that PRIV_N blocks (03 R66). -/
def privBlocked (op : Op) : Bool := op == .audioRead || op == .frameRead || op == .listenPolicy || op == .wakeArm

/-- Force the sensor domains OFF and stop their pins. -/
def forceSensors (s : State) : State :=
  let s : State := [0x01, 0x02, 0x03, 0x06, 0x07].foldl (fun s d => if domPresent s.fuse.part d then forceOff s d else s) s
  { s with pins := { s.pins with privN := false, pdmClkA := 0, pdmClkB := 0, vibBclk := 0, pdmARose := false, pdmBRose := false, vibFs := false, camEn0 := false, camEn1 := false,
                                 camMclk0 := 0, camMclk1 := 0, camSync0 := none, camSync1 := none } }

/-- Ports after PRIV_N: no stream and no writes in flight. -/
def privCam (x : Cam) : Cam :=
  { wipeCam x with armedRx := false, initAt := none, writes := [], gapRecv := true, initLeft := [], initGo := none, onBus := false, enAt := none }

/-- A convolution that reads a frame of a port's store (08 R201). -/
def readsFrames (port : Nat) (c : Cmd) : Bool := c.op == .conv2d && c.phase == .parked .tiles && blk c 34 1 == 1 && blk c 35 1 == port

/-- The result of a read of images: what it wrote, and the state of the port's gate (04 Table 4.11). -/
def imageResult (s : State) (c : Cmd) : List Byte :=
  natLe 4 (c.misc.getD 0 0) ++ natLe 2 c.cnt ++ natLe 2 (min c.lost 65535)
    ++ natLe 4 (b2n (!(camOf s (arg c 24 1)).gateOpen) + 2 * c.misc.getD 1 0)

/-- The result of a command that a privacy block ends. -/
def blockedResult (s : State) (c : Cmd) : List Byte :=
  if c.op = .audioRead then audioResult s c else if c.op = .frameRead then imageResult s c else c.res

/-- Waiting reads keep what they wrote; their results say that the gate is closed. -/
def markReads (s : State) : State :=
  { s with cmds := s.cmds.map (fun c => if c.phase ≠ .waiting then { c with res := blockedResult s c } else c) }

/-- The commands that a press of PRIV_N ends at once: the parked ones it blocks (03 R66). -/
def privEnds (c : Cmd) : Bool :=
  match c.phase with
  | .parked _ => privBlocked c.op || c.op == .cameraParams
  | _ => false

/-- A wake that is decided and not yet open is aborted (03 R66): its requests for domains that have not begun to return are withdrawn, and so is
a PEWAKE_N assertion made for it. Work that needs such a domain asks for it again (15 R358). -/
def withdrawWake (s : State) : State :=
  if s.listen.wakeDecided.isNone then s
  else
    let s := (wakeDomains s).foldl (fun s d => updDom s d (fun x => { x with demand := false })) s
    let gs := BitVec.ofNat 4 (maskOf ((maskList s.listen.wakePolicy.wakeGroups.toNat).filter (fun g => !domOn s (memOfGroup g))))
    { s with pins := { s.pins with pewakeLow := false }, power := { s.power with wantGroups := s.power.wantGroups &&& ~~~gs } }

/-- `PRIV_N_LOW`. -/
def privNLow (s : State) : State :=
  if s.boot.inReset then { s with pins := { s.pins with privN := false } }
  else
    let s := forceSensors { s with listen := { s.listen with priv := true, privLowAt := s.stb, privReturn := false } }
    let s := zeroStores (wipeAudio (withdrawWake s))
    let s := markReads { s with cam0 := privCam s.cam0, cam1 := privCam s.cam1 }
    let s := killImages s ((s.cmds.filter (fun c => readsFrames 0 c || readsFrames 1 c)).map (·.id))
    endAll s ((s.cmds.filter privEnds).map (·.id)) .privacyBlock

/-- `PRIV_N_RELEASE`: PRIV_N has read high for 61,440 tk. -/
def privNRelease (s : State) : State :=
  if s.boot.inReset then { s with pins := { s.pins with privN := true } }
  else if !s.listen.priv || decide (s.stb < s.listen.privLowAt + 61440) then s
  else { s with pins := { s.pins with privN := true }, listen := { s.listen with priv := false, privReturn := true, privLowAt := s.stb } }

/-- Ticks of the TALK_N debounce. -/
def debounce : Nat := 15360

/-- `TALK_N_PRESS`: debounced 15,360 tk after its falling edge. -/
def talkNPress (edge : Nat) (s : State) : State :=
  if s.boot.inReset || decide (s.stb < edge + debounce) || !s.pins.talkN then s
  else
    let s := { s with pins := { s.pins with talkN := false } }
    if s.listen.priv then { s with listen := { s.listen with privPresses := min (s.listen.privPresses + 1) 65535 } }
    else if s.listen.armed.getLsbD 1 then wake s .talk (boundaryAfter edge) s.listen.policy 0xFFFF
    else s

/-- `TALK_N_RELEASE`: the frame in which the release falls carries `END_OF_TURN`. -/
def talkNRelease (edge : Nat) (s : State) : State :=
  if s.boot.inReset || decide (s.stb < edge + debounce) || s.pins.talkN then s
  else
    let s := { s with pins := { s.pins with talkN := true } }
    if !s.listen.gateOpen then s
    else
      let stamp := edge / frameTicks * frameTicks
      let mark := fun (l : List AudioFrame) => l.map (fun f => if f.stamp = stamp then { f with endOfTurn := true } else f)
      { s with listen := { s.listen with
        frames := mark s.listen.frames, frames48 := mark s.listen.frames48,
        endOfTurnAt := if s.listen.frames.any (fun f => f.stamp == stamp) then s.listen.endOfTurnAt else some stamp } }

/- ### LISTEN_POLICY and WAKE_ARM (03 R69, R70) -/

/-- A coppice or a group that the part does not have. -/
def policyAbsent (s : State) (c : Cmd) : Bool :=
  (maskList (arg c 42 1)).any (fun i => !coppicePresent s i) || (maskList (arg c 43 1)).any (fun g => !groupPresent s g)

/-- Static conditions of `LISTEN_POLICY`. -/
def paramsListenPolicy (s : State) (c : Cmd) : Bool :=
  let p := askedPolicy c
  decide (p.mode ≤ 2) && decide (arg c 25 1 < 8) && decide (p.arrayRate ≤ 1) && decide (p.beam ≤ 1) && decide (-384 ≤ p.s0Energy)
    && decide (p.s0Energy ≤ 0) && decide (1 ≤ p.s0Hold) && decide (p.s0Hold ≤ 8) && decide (p.spkProfile ≤ 8) && decide (p.keywordSet ≤ 15)
    && decide (p.releaseMax ≤ 1200) && decide (arg c 42 1 < 16) && decide (arg c 43 1 < 16) && decide (1 ≤ p.wakeTiles)
    && decide (p.wakeTiles ≤ 8) && argZero c 47 47 && decide (-384 ≤ p.s0VibEnergy) && decide (p.s0VibEnergy ≤ 0)
    && decide (p.s0Combine ≤ 3) && decide (1 ≤ p.s1Hangover) && restZero c 52
    && (maskList p.wakeCoppices.toNat).all (fun i => ownedBy .pf0 (t1Coppice s i))
    && (maskList p.wakeGroups.toNat).all (fun g => ownedBy .pf0 (t1Group s g))

/-- `LISTEN_POLICY` waits for the next frame boundary without a candidate. -/
def runListenPolicy (c : Cmd) (s : State) : State :=
  if s.listen.priv then complete s c .privacyBlock else park s c .policyHold

/-- Static conditions of `WAKE_ARM`. -/
def paramsWakeArm (c : Cmd) : Bool := decide (arg c 24 1 ≤ 1) && restZero c 26 && (arg c 24 1 == 0 || arg c 25 1 == 0)

/-- `WAKE_ARM`. A halted Gorse controller answers nothing (14 R335). -/
def runWakeArm (c : Cmd) (s : State) : State :=
  let l := s.listen
  let v := arg c 25 1
  if l.priv then complete s c .privacyBlock
  else if arg c 24 1 = 0 then
    if !subsetArmed s c then complete s c .badParam
    else if v = l.armed.toNat then complete s c .ok (armResult s)
    else park s c .policyHold
  else if s.fault.haltGorse then park s c .policyHold
  else if !l.armed.getLsbD 2 then complete s c .badParam
  else
    let s1 := wake s .manual (boundaryAfter s.stb) l.policy 0xFFFF
    complete s1 c .ok (natLe 8 s1.listen.release ++ natLe 2 s1.listen.wakeId.toNat ++ natLe 1 (b2n (wakeUnderWay s)))

end Sys2Proof.Machine
end

