-- ==== Sys2Proof/Machine/Cameras.lean ====
section
/-! DEFINITION. Camera ports and the image pipeline (04): the receivers, settings that take effect late, the frame store and the image
side of the privet gate, the vision cascade, `CAMERA_CONFIG`, `CAMERA_PARAMS` and `FRAME_READ`. -/

namespace Sys2Proof.Machine

def setCam (s : State) (port : Nat) (x : Cam) : State := if port = 0 then { s with cam0 := x } else { s with cam1 := x }
def updCam (s : State) (port : Nat) (f : Cam → Cam) : State := setCam s port (f (camOf s port))

/-- The port exists, is configured and its domain is ON. -/
def camRuns (s : State) (port : Nat) : Bool :=
  decide (port < 2) && portPresent s.fuse.part port && (camOf s port).configured && domOn s (domCam port)

/- ### Domains and pins (04 Table 4.2, R78) -/

def mclkRate (m : Nat) : Nat := match m with | 1 => 6144 | 2 => 12288 | 3 => 24576 | _ => 0

/-- Ticks from the rise of CAMn_EN to the start of CAMn_MCLK (1 ms). -/
def mclkDelay : Nat := 3072

/-- Camera pins as the domain's state gives them: on a return CAMn_EN rises first, and CAMn_MCLK starts 1 ms after it. -/
def camPins (s : State) (port : Nat) : State :=
  let st := (domOf s (domCam port)).state
  let en := st != .off
  let enAt := if en then (camOf s port).enAt.getD s.stb else s.stb
  let clk := if (st = .on ∨ st = .returning) ∧ enAt + mclkDelay ≤ s.stb then mclkRate (camOf s port).cfg.mclk else 0
  let s := updCam s port (fun x => { x with enAt := if en then some enAt else none })
  if port = 0 then { s with pins := { s.pins with camEn0 := en, camMclk0 := clk } }
  else { s with pins := { s.pins with camEn1 := en, camMclk1 := clk } }

/-- Take a port's domain, and ISP, to the states that its configuration asks for. -/
def settleCam (s : State) (port : Nat) : State :=
  let x := camOf s port
  let d := domCam port
  let s := if camWanted x then demandDom s d 0x00 0x06
    else
      let w : DomState := if x.configured then .ret else .off
      let cur := (domOf s d).state
      if cur = w || cur = .off then s
      else cascadeState (updCam s port (fun x => { x with armedRx := false, inFrame := false, started := false, initAt := none,
                                                                initLeft := [], initGo := none, onBus := false })) d w
  let isp := camWanted s.cam0 || camWanted s.cam1
  let s := if isp then demandDom s domIsp 0x00 0x06
    else if (domOf s domIsp).state = .off then s else cascadeState s domIsp .off
  camPins s port

/-- A port's domain is ON: from OFF the initialisation wait starts, from RET the receiver arms (04 R78). -/
def camReturned (s : State) (port : Nat) (fromOff : Bool) : State :=
  let s := camPins s port
  updCam s port (fun x =>
    if fromOff then { x with initAt := some (s.stb + ceilDiv (x.cfg.initWait * 3072) 10), armedRx := false } else { x with armedRx := true })

/- ### The I2C bus (04 Table 4.2, R77, R78) -/

/-- Entries of an initialisation list (04 Table 4.9). -/
def initEntries : Nat → List Byte → List CamInit
  | 0, _ => []
  | k + 1, bs =>
    if bs.length < 4 then []
    else { reg := field bs 0 2, wait := field bs 3 1, data := bytesAt bs 4 (field bs 2 1) } :: initEntries k (bs.drop (4 + field bs 2 1))

/-- A number in two big-endian bytes. -/
def be16 (n : Nat) : List Byte := (natLe 2 n).reverse

/-- A write on the bus: the sensor's 7-bit address with the write bit, the 16-bit register, the data. -/
def i2cWrite (g : CamConfig) (reg : Nat) (data : List Byte) : List Byte := BitVec.ofNat 8 (2 * g.i2cAddr) :: be16 reg ++ data

/-- Registers of a setting, and the values written from there on, big-endian. -/
def settingReg (g : CamConfig) (kind : Nat) : Nat := if kind = 0 then g.expReg else if kind = 1 then g.againReg else g.dgainReg
def settingData (g : CamConfig) (kind : Nat) (v : List Nat) : List Byte := (v.take (if kind = 0 then g.exposures else 1)).flatMap be16

/-- Ticks of a write of `n` bytes: nine bit clocks a byte and two for start and stop, at 400 kHz or 1 MHz (the example of 04 R87). -/
def busTicks (g : CamConfig) (n : Nat) : Nat := ceilDiv ((9 * n + 2) * 3072) (if g.i2cSpeed = 0 then 400 else 1000)

/-- The first `CAMERA_PARAMS` write that its frame has made due. -/
def dueWrite (x : Cam) : Option CamWrite := x.writes.find? (fun w => decide (w.writeFrame < x.frameNo))

/-- A port has a write for the bus now. -/
def wantsBus (s : State) (port : Nat) : Bool :=
  let x := camOf s port
  camRuns s port && (if x.initGo.isSome then !x.initLeft.isEmpty && decide (x.initGo.getD 0 ≤ s.stb) else (dueWrite x).isSome)

/-- Lines until the latch line of a port's next write; an initialisation list has none and comes last. The spec gives no line time by which the
latch lines of two ports compare, so the model compares the lines that are left (DEDUCED, notes/assumptions/74.md). -/
def latchLeft (x : Cam) : Nat := if x.initGo.isSome then 65536 else x.cfg.latchLine - x.raw0.length

/-- The free bus takes the next write: of two ports' the one whose latch line comes first. -/
def pumpBus (s : State) : State :=
  if s.cam0.onBus || s.cam1.onBus then s
  else if wantsBus s 0 && !(wantsBus s 1 && decide (latchLeft s.cam1 < latchLeft s.cam0)) then updCam s 0 (fun x => { x with onBus := true })
  else if wantsBus s 1 then updCam s 1 (fun x => { x with onBus := true })
  else s

/-- The receiver arms once the initialisation list and its last wait are over. -/
def armAfterInit (s : State) (port : Nat) : State :=
  let x := camOf s port
  match x.initGo with
  | some t => if x.initLeft.isEmpty && decide (t ≤ s.stb) && camRuns s port then setCam s port { x with initGo := none, armedRx := true } else s
  | none => s

/-- `INIT_WAIT`: the writing of the initialisation list begins; after it the receiver arms. -/
def initWait (port : Nat) (s : State) : State :=
  let x := camOf s port
  match x.initAt with
  | some t =>
    if camRuns s port ∧ t ≤ s.stb then
      pumpBus (armAfterInit (setCam s port { x with initAt := none, initLeft := initEntries x.cfg.init.length x.cfg.init, initGo := some s.stb,
                                                    initTries := 0 }) port)
    else s
  | none => s

/-- What the passing of time does at the ports: clocks start, waits of the initialisation lists end. -/
def tickCams (s : State) : State := pumpBus (armAfterInit (armAfterInit (camPins (camPins s 0) 1) 0) 1)

/-- `CAMERA_TRIGGER` (04 Table 4.2): a pulse begins. -/
def cameraTrigger (port : Nat) (s : State) : State :=
  let x := (camOf s port).cfg
  if camRuns s port && x.syncMode == 1 && s.stb % x.syncPeriod == x.syncPhase then
    if port = 0 then { s with pins := { s.pins with camSync0 := some s.stb } } else { s with pins := { s.pins with camSync1 := some s.stb } }
  else s

/- ### The frame store (04 R90 to R92) -/

/-- Frames that uncommitted commands read. -/
def heldFrames (s : State) (port : Nat) : List Nat :=
  (s.work.jobs.filter (fun j => match cmdOf s j.id with | some c => readsFrames port c | none => false)).filterMap
    (fun j => j.frame.map (·.number))

/-- A stored frame's planes in DRAM: Y, then interleaved Cb, Cr (04 R81). -/
def frameSize (f : CamFrame) : Nat := f.width * f.height + 2 * ceilDiv f.width 2 * ceilDiv f.height 2
def framePlanes (s : State) (f : CamFrame) : List Byte := memReadN s.store.dram f.base (frameSize f)

/-- The slot that the next frame takes: a free one, else that of the oldest frame that no command holds. -/
def nextSlot (s : State) (port : Nat) : Option Nat :=
  let x := camOf s port
  match (List.range x.cfg.frameSlots).find? (fun i => x.frames.all (fun f => f.slot != i)) with
  | some i => some i
  | none => (x.frames.find? (fun g => !(heldFrames s port).contains g.number)).map (·.slot)

/-- Store a frame and its planes; with every slot held it is dropped. -/
def storeFrame (s : State) (port : Nat) (f : CamFrame) (planes : List Byte) : State :=
  let x := camOf s port
  match nextSlot s port with
  | none => setCam s port { x with dropped := x.dropped + 1, gapNext := true }
  | some i =>
    let f := { f with flags := if x.gapNext then f.flags ||| 2 else f.flags, slot := i, base := storeBase s port + i * (yBytes x.cfg + cBytes x.cfg) }
    let s := setCam s port { x with frames := x.frames.filter (fun h => h.slot != i) ++ [f], gapNext := false }
    { s with store := { s.store with dram := memWriteN s.store.dram f.base planes } }

/-- A port's frame store is cleared (04 R91). -/
def clearStore (s : State) (port : Nat) : State :=
  updCam (zeroStore s port (camOf s port).cfg) port (fun x => { x with frames := [] })

/- ### FRAME_READ (04 R96) -/

def readPort (c : Cmd) : Nat := arg c 24 1
def readWaits (c : Cmd) : Bool := (arg c 26 1).testBit 0

def paramsFrameRead (c : Cmd) : Bool :=
  decide (readPort c ≤ 1) && decide (arg c 25 1 < 8) && decide (arg c 26 1 < 2) && decide (1 ≤ arg c 27 1) && decide (arg c 27 1 ≤ 16)
    && restZero c 44

/-- Pad a part to 64 bytes. -/
def pad64 (bs : List Byte) : List Byte := bs ++ zeroBytes (roundUp bs.length 64 - bs.length)

/-- Largest record of a read. -/
def frameRecord (g : CamConfig) (what : Nat) : Nat :=
  64 + (if what.testBit 0 then roundUp (yBytes g + cBytes g) 64 else 0) + (if what.testBit 1 then 1856 else 0)
    + (if what.testBit 2 ∧ g.embLines ≠ 0 then 1024 else 0)

/-- One frame record (04 Table 4.12). -/
def frameBytes (s : State) (what : Nat) (f : CamFrame) (gap : Bool) : List Byte :=
  natLe 8 f.stamp ++ natLe 4 f.number ++ natLe 2 (f.flags ||| (if gap then 2 else 0)).toNat ++ natLe 2 f.paramId ++ natLe 2 f.exp0
    ++ natLe 2 f.again ++ natLe 2 f.dgain ++ natLe 2 f.linesValid ++ natLe 8 f.markStamp ++ natLe 4 f.endStamp ++ natLe 2 f.crcLines
    ++ natLe 2 f.width ++ natLe 2 f.height ++ natLe 2 f.emb.length ++ natLe 1 f.attention ++ natLe 1 f.faces ++ zeroBytes 18
    ++ (if what.testBit 0 then pad64 (framePlanes s f) else []) ++ (if what.testBit 1 then pad64 f.stats else [])
    ++ (if what.testBit 2 then pad64 f.emb else [])

/-- What a read has gathered (04 Table 4.11); `misc` holds the first number, a `TRUNCATED` record seen, and the bytes written. -/
def frameResult (s : State) (c : Cmd) : List Byte :=
  imageResult s c

/-- Write one record. -/
def writeFrame (x : State × Cmd) (f : CamFrame) : State × Cmd :=
  let s := x.1
  let c := x.2
  let gone := f.number - c.first
  let r := boundaryRead s (camOf s (readPort c)).gateOpen (dmaMaster .pf0) (frameBytes s (arg c 25 1) f (decide (0 < gone)))
  let bs := r.2
  let off := c.misc.getD 2 0
  let s := writeDest r.1 c (arg c 32 8 + off) bs
  let c := { c with misc := [if c.cnt = 0 then f.number % 2 ^ 32 else c.misc.getD 0 0, max (c.misc.getD 1 0) (f.flags.toNat % 2), off + bs.length],
                    cnt := c.cnt + 1, lost := c.lost + gone, first := f.number + 1 }
  (updCam s (readPort c) (fun x => { x with unread := max x.unread c.first }), c)

/-- The readable frames of a read, oldest first. -/
def frameReady (s : State) (c : Cmd) : List CamFrame :=
  ((camOf s (readPort c)).frames.filter (fun f => decide (c.first ≤ f.number))).take (arg c 27 1 - c.cnt)

def finishFrame (s : State) (c : Cmd) : State :=
  complete s c (if c.lost = 0 ∧ c.misc.getD 1 0 = 0 then .ok else .truncated) (frameResult s c)

/-- The image of a frame holds a poisoned line, which a read that wants the image meets (12 R294). -/
def framePoisoned (s : State) (c : Cmd) (f : CamFrame) : Bool := (arg c 25 1).testBit 0 && (firstPoison s 2 f.base (frameSize f)).isSome

/-- A read takes the frames that are ready, up to a poisoned one, on which it ends; else it completes, or waits for more. -/
def pumpFrame (c : Cmd) (s : State) : State :=
  let ready := frameReady s c
  let good := ready.takeWhile (fun f => !framePoisoned s c f)
  let r := good.foldl writeFrame (s, c)
  if good.length < ready.length then complete r.1 r.2 .poison (frameResult r.1 r.2)
  else if arg c 27 1 ≤ r.2.cnt ∨ readWaits c = false then finishFrame r.1 r.2
  else
    let c := { r.2 with phase := .parked .frames }
    setCmd r.1 { c with res := frameResult r.1 c }

/-- A read begins at an open gate; no frame before the gate's first is read. -/
def beginFrame (c : Cmd) (s : State) : State :=
  let x := camOf s (readPort c)
  let n := arg c 28 4
  let start : Nat := if n = 2 ^ 32 - 1 then x.unread else (expand32 (BitVec.ofNat 32 n) x.frameNo).toNat
  pumpFrame { c with first := max start x.openFrame, cnt := 0, lost := 0, misc := [] } s

def runFrameRead (c : Cmd) (s : State) : State :=
  let x := camOf s (readPort c)
  if s.listen.priv then complete s c .privacyBlock (frameResult s c)
  else if x.configured && decide (arg c 40 4 < arg c 27 1 * frameRecord x.cfg (arg c 25 1)) then complete s c .badParam
  else if x.gateOpen then beginFrame c s
  else if readWaits c then setCmd s { c with phase := .parked .gateOpen, res := frameResult s c }
  else complete s c .privacyBlock (frameResult s c)

def resumeFrameRead (c : Cmd) (s : State) : Option State :=
  let x := camOf s (readPort c)
  if c.phase = .parked .gateOpen then
    if !x.gateOpen then none
    else if arg c 40 4 < arg c 27 1 * frameRecord x.cfg (arg c 25 1) then some (complete s c .badParam) else some (beginFrame c s)
  else if !x.gateOpen then some (finishFrame s c)
  else if (frameReady s c).isEmpty then none
  else some (pumpFrame c s)

/- ### Settings in force (04 R82 to R87) -/

/-- The setting of a kind in force on a frame: the latest effect, and of equal ones the later command's. -/
def settingAt (x : Cam) (kind n : Nat) : Option CamSetting :=
  (x.settings.filter (fun e => e.kind == kind && decide (e.frame ≤ n))).foldl
    (fun b e => match b with | some y => if y.frame < e.frame ∨ (y.frame = e.frame ∧ y.seq < e.seq) then some e else b | none => some e) none

/-- The settings in force on a frame. -/
def settingsAt (x : Cam) (n : Nat) : List CamSetting := (List.range 4).filterMap (fun k => settingAt x k n)

/-- Only a part of a command's settings is in force on a frame: one failed, or is still on the bus or due later. -/
def splitAt (x : Cam) (n : Nat) : Bool :=
  (settingsAt x n).any (fun e =>
    x.failed.contains e.cmd || x.writes.any (fun w => w.cmd == e.cmd) || x.settings.any (fun y => y.cmd == e.cmd && decide (n < y.frame)))

/-- `PARAM_ID` of a frame: that of the latest command with a setting in force; before any it is a free value. -/
def paramIdAt (s : State) (x : Cam) (n : Nat) : Nat :=
  match (sortOn (·.seq) (settingsAt x n)).getLast? with | some e => e.paramId | none => Config.freeNat (s.freeCtr + 9) % 65536

/-- Settings that no later frame uses are forgotten. -/
def pruneSettings (x : Cam) (n : Nat) : Cam :=
  { x with settings := x.settings.filter (fun e => decide (n < e.frame) || (settingsAt x n).contains e) }

/- ### CAMERA_PARAMS (04 R83 to R87) -/

def paramsCameraParams (c : Cmd) : Bool :=
  decide (arg c 24 1 ≤ 1) && decide (arg c 25 1 < 2) && decide (arg c 26 1 < 16) && argZero c 27 27 && restZero c 52

/-- Kinds that a command sets, and their delays; white balance has none. -/
def setKinds (c : Cmd) : List Nat := (List.range 4).filter (fun i => (arg c 26 1).testBit i)
def delayOf (g : CamConfig) (kind : Nat) : Nat := match kind with | 0 => g.delayExp | 1 => g.delayAgain | 2 => g.delayDgain | _ => 0

/-- Values of a kind. -/
def setValue (c : Cmd) (kind : Nat) : List Nat :=
  match kind with
  | 0 => [arg c 32 2, arg c 34 2, arg c 36 2]
  | 1 => [arg c 38 2]
  | 2 => [arg c 40 2]
  | _ => [arg c 42 2, arg c 44 2, arg c 46 2, arg c 48 2]

/-- A scheduled command knows its applied frame in `aux`; `misc` holds the effects of its settings so far. -/
def scheduleParams (c : Cmd) (n : Nat) (s : State) : State :=
  let p := arg c 24 1
  let g := (camOf s p).cfg
  let id := arg c 50 2
  let kinds := setKinds c
  let s := updCam s p (fun x => { x with
    writes := x.writes ++ (kinds.filter (· < 3)).map (fun k =>
      { kind := k, value := setValue c k, writeFrame := n - delayOf g k, effect := n, paramId := id, cmd := c.id, seq := x.paramSeq })
    settings := x.settings ++ (kinds.filter (· = 3)).map (fun k =>
      { kind := k, value := setValue c k, frame := n, paramId := id, cmd := c.id, seq := x.paramSeq })
    paramSeq := x.paramSeq + 1 })
  setCmd s { c with phase := .parked .paramsTarget, aux := n }

/-- Bus ticks of the writes that frame `f` starts, those of a command for frame `n` among them. -/
def writeTicks (x : Cam) (c : Cmd) (n f : Nat) : Nat :=
  ((x.writes.filter (fun w => w.writeFrame == f)).map (fun w => busTicks x.cfg (3 + (settingData x.cfg w.kind w.value).length))).sum
    + (((setKinds c).filter (fun k => decide (k < 3) && n - delayOf x.cfg k == f)).map
        (fun k => busTicks x.cfg (3 + (settingData x.cfg k (setValue c k)).length))).sum

/-- Every write of a command for frame `n` can be complete before its latch line (04 R84). The spec gives no line time; the model takes the time
between the last two lines that the port received, and before it has one it takes the condition as met (DEDUCED, notes/assumptions/42.md). -/
def writesFit (x : Cam) (c : Cmd) (n : Nat) : Bool :=
  x.lineTicks == 0 || ((setKinds c).filter (· < 3)).all (fun k =>
    decide (writeTicks x c n (n - delayOf x.cfg k) ≤ x.cfg.latchLine * x.lineTicks))

/-- The earliest frame that a command can take; where no frame lets its writes be complete in time, that of its arrival alone. -/
def earliestFrame (x : Cam) (c : Cmd) : Nat :=
  let early := x.frameNo + ((setKinds c).map (delayOf x.cfg)).foldl max 0
  (((List.range (x.writes.length + 2)).map (early + ·)).find? (writesFit x c)).getD early

/-- `CAMERA_PARAMS` reaches Gorse: it takes its target, or moves as a whole to the earliest frame. -/
def runCameraParams (c : Cmd) (s : State) : State :=
  let x := camOf s (arg c 24 1)
  if s.listen.priv then complete s c .privacyBlock
  else if !x.configured then complete s c .badParam
  else
    let early := earliestFrame x c
    let t := arg c 28 4
    let want := expand32 (BitVec.ofNat 32 t) early
    if t = 2 ^ 32 - 1 then scheduleParams c early s
    else if (early : Int) ≤ want ∧ writesFit x c want.toNat = true then scheduleParams c want.toNat s
    else if (arg c 25 1).testBit 0 then complete s c .deadlineMissed
    else scheduleParams c early s

/-- The frame on which the last setting of a command takes effect. -/
def lastEffect (x : Cam) (c : Cmd) : Nat := ((x.settings.filter (fun e => e.cmd == c.id)).map (·.frame)).foldl max 0

/-- The stamp of a frame's start. -/
def frameStamp (x : Cam) (n : Nat) : Nat := ((x.starts.find? (fun e => e.1 == n)).map (·.2)).getD x.frameStart

/-- A command completes once its writes have ended and its last effect's frame has started. -/
def paramsDone (port : Nat) (s : State) (c : Cmd) : State :=
  let x := camOf s port
  let ok := !x.failed.contains c.id
  let made := x.settings.any (fun e => e.cmd == c.id)
  let n := if made then lastEffect x c else c.aux
  if x.writes.any (fun w => w.cmd == c.id) then s
  else if !made && !ok then complete s c .notPresent
  else if n < x.frameNo then complete s c (if ok then .ok else .notPresent) (natLe 4 n ++ natLe 8 (frameStamp x n)) else s

/-- The open `CAMERA_PARAMS` of a port. -/
def openParams (s : State) (port : Nat) : List Cmd :=
  s.cmds.filter (fun c => c.op == .cameraParams && c.phase == .parked .paramsTarget && arg c 24 1 == port)

def finishParams (s : State) (port : Nat) : State := (openParams s port).foldl (paramsDone port) s

/-- A write that ends now is late: its frame is over, or its latch line has begun. Before that line it is not late; past the last line of the
frame, where the receiver sees no lines, the event says it (04 R82). -/
def lateNow (x : Cam) (w : CamWrite) (late : Bool) : Bool :=
  if w.writeFrame + 1 < x.frameNo then true
  else if x.cfg.latchLine < x.raw0.length then true
  else if x.inFrame then false else late

/-- A transfer of the initialisation list ends; one that fails for the third time is given up, and the next goes on after its wait
(notes/assumptions/74.md). -/
def initTransfer (s : State) (port : Nat) (x : Cam) (e : CamInit) (rest : List CamInit) (ok : Bool) : State :=
  let next : Cam := { x with initLeft := rest, initTries := 0, initGo := some (s.stb + ceilDiv (e.wait * 3072) 10) }
  if ok then setCam s port { next with i2cOut := x.i2cOut ++ [i2cWrite x.cfg e.reg e.data] }
  else if x.initTries < 2 then setCam s port { x with initTries := x.initTries + 1 }
  else setCam (raise s (capture s 0x25 port 1)) port next

/-- A write of a `CAMERA_PARAMS` ends, or fails for the third time. -/
def paramTransfer (s : State) (port : Nat) (x : Cam) (w : CamWrite) (ok late : Bool) : State :=
  let rest := x.writes.filter (fun y => decide (y ≠ w))
  if ok then
    let e : CamSetting := { kind := w.kind, value := w.value, frame := w.effect + b2n (lateNow x w late), paramId := w.paramId, cmd := w.cmd, seq := w.seq }
    finishParams (setCam s port { x with writes := rest, settings := x.settings ++ [e],
                                         i2cOut := x.i2cOut ++ [i2cWrite x.cfg (settingReg x.cfg w.kind) (settingData x.cfg w.kind w.value)] }) port
  else if w.tries < 2 then
    setCam s port { x with writes := x.writes.map (fun y => if y = w then { y with tries := y.tries + 1 } else y) }
  else
    let s := match cmdOf s w.cmd with
      | some c => raise s (captureCmd s c 0x25 port 1)
      | none => raise s (capture s 0x25 port 1)
    finishParams (setCam s port { x with writes := rest, failed := x.failed ++ [w.cmd] }) port

/-- `I2C_TRANSFER_DONE`: the write of the port that holds the bus ends, and the bus takes the next. -/
def i2cTransferDone (port : Nat) (ok late : Bool) (s : State) : State :=
  if !camRuns s port || !(camOf s port).onBus then s
  else
    let x : Cam := { camOf s port with onBus := false }
    pumpBus (armAfterInit (match x.initLeft, dueWrite x with
      | e :: rest, _ => initTransfer s port x e rest ok
      | [], some w => paramTransfer s port x w ok late
      | [], none => setCam s port x) port)

/- ### The image gate (04 R90, R91; 08 R201) -/

/-- The gate of a port closes: the store is cleared, waiting reads end with what they have, and convolutions over its frames are killed. -/
def closeImage (s : State) (port : Nat) : State :=
  let s := updCam s port (fun x => { x with gateOpen := false, gateStage2 := false, closeDue := false })
  let s := clearStore s port
  let s := killImages s ((s.cmds.filter (readsFrames port)).map (·.id))
  (s.cmds.filter (fun c => c.op == .frameRead && c.phase == .parked .frames && readPort c == port)).foldl finishFrame s

/-- Drop a port's configuration and its store's charge. Commands whose writes can no longer be made find the port gone. -/
def dropCam (s : State) (port : Nat) : State :=
  let s := dropAllocs s .pf0 [19] port
  let s := (openParams s port).foldl (fun s c => complete (dropWork s c) c .notPresent) s
  settleCam (setCam s port { enAt := (camOf s port).enAt, i2cOut := (camOf s port).i2cOut }) port

/-- The changes of the gate and the stream that wait for a frame start. -/
def gateAtStart (s : State) (port : Nat) : State :=
  let x := camOf s port
  let s := if x.closeDue then closeImage s port else s
  let x := camOf s port
  if x.dropDue then dropCam s port
  else if !x.streaming then settleCam s port
  else if x.openDue then
    updCam s port (fun x => if x.gateOpen then { x with openDue := false } else
      { x with openDue := false, gateOpen := true, gateStage2 := x.openDueStage2, opener := s.sess0.number, openFrame := x.frameNo,
               unread := x.frameNo, frames := [] })
  else s

/- ### Frames (04 R79 to R81, R86 to R89) -/

/-- Output lines of a frame with `n` valid input lines. Where the image is scaled the spec does not say how they follow; the model rounds
`n`·`OUT_HEIGHT`/`HEIGHT` down (DESIGN CHOICE, notes/assumptions/75.md). -/
def validLines (g : CamConfig) (n : Nat) : Nat := min n g.height * g.outHeight / max 1 g.height

/-- The full image: the lines after the valid ones hold Y 0 and chroma 128. -/
def fullPlanes (g : CamConfig) (v : Nat) (o : IspOut) : List Byte × List Byte :=
  let cv := 2 * ceilDiv g.outWidth 2 * ceilDiv v 2
  (bytesAt (o.yPlane ++ zeroBytes (yBytes g)) 0 (g.outWidth * v) ++ zeroBytes (yBytes g - g.outWidth * v),
   bytesAt (o.cPlane ++ List.replicate (cBytes g) 128) 0 cv ++ List.replicate (cBytes g - cv) 128)

/-- The settings that a frame carries (04 R86, R87); before any `CAMERA_PARAMS` they are the sensor's own, which are free. -/
def frameSet (s : State) (x : Cam) (n : Nat) : FrameSet :=
  let v := fun (kind len : Nat) => match settingAt x kind n with
    | some e => e.value
    | none => (List.range len).map (fun i => Config.freeNat (s.freeCtr + 1 + 3 * kind + i) % 65536)
  { exps := (v 0 3).take x.cfg.exposures, again := (v 1 1).getD 0 0, dgain := (v 2 1).getD 0 0, wb := v 3 4 }

/-- Free values that one frame may draw. -/
def frameDraws : Nat := 16

/-- The lines of a frame's exposures. -/
def frameRaws (x : Cam) : List Image := [x.raw0, x.raw1, x.raw2].take x.cfg.exposures

/-- `MOTION` against the previous frame; with no previous frame it is a free value. -/
def motionOf (s : State) (x : Cam) (o : IspOut) : Nat :=
  if x.prevZoneY.isEmpty then Config.freeNat s.freeCtr
  else ((x.prevZoneY.zipWith (fun a b => if a < b then b - a else a - b) o.zoneY)).sum

/-- The statistics block (04 Table 4.5). -/
def statsBytes (o : IspOut) (motion : Nat) : List Byte :=
  bytesAt (o.zones ++ zeroBytes 1536) 0 1536 ++ bytesAt (o.hist ++ zeroBytes 256) 0 256 ++ natLe 4 motion ++ natLe 4 o.clipped

/-- Flags of a frame (04 Table 4.12); `gapNext` is added when it is stored. -/
def frameFlags (x : Cam) (trunc : Bool) (n : Nat) : BitVec 5 :=
  let partialMerge := (frameRaws x).any (fun r => decide (r.length < x.raw0.length))
  BitVec.ofNat 5 (b2n trunc + 2 * b2n x.gapThis + 4 * b2n partialMerge + 8 * b2n (decide (0 < x.crcLines)) + 16 * b2n (splitAt x n))

/-- Next presence frame after a tick (04 R93). -/
def presencePeriod : Nat := 1536000

/-- Vision stages 0 and 1 on a finished frame. -/
def visionStage (s : State) (port motion : Nat) (o : IspOut) : State :=
  let x := camOf s port
  let high := decide (x.motionThreshold ≤ motion)
  let n := if high then x.motionCount + 1 else 0
  let low := if high then none else some (x.motionLow.getD s.stb)
  let fire := !x.stage1 && decide (1 ≤ x.cascadeTop) && decide (x.motionFrames ≤ n)
  let x := { x with motion := motion, motionCount := n, motionLow := low, prevZoneY := o.zoneY,
                    presence := if 1 ≤ x.cascadeTop then o.presence else x.presence,
                    presTake := false, presFrame := if x.presTake then some o.presence else x.presFrame }
  if fire then
    raiseAudio (setCam s port { x with stage1 := true, presenceDue := roundUp s.stb presencePeriod })
  else setCam s port x

/-- A frame ends, at its end packet or at the next start: the pipeline runs over its whole lines. -/
def endFrame (s : State) (port : Nat) (cut : Bool) : State :=
  let x := camOf s port
  let n := x.frameNo - 1
  let st := frameSet s x n
  let o := runIsp x.cfg st (frameRaws x)
  let trunc := cut || x.truncated || decide (x.raw0.length < x.cfg.height)
  let v := validLines x.cfg x.raw0.length
  let motion := motionOf s x o
  let planes := fullPlanes x.cfg v o
  let f : CamFrame := {
    number := n, stamp := x.frameStart, flags := frameFlags x trunc n, paramId := paramIdAt s x n, exp0 := st.exps.getD 0 0,
    again := st.again, dgain := st.dgain, linesValid := v, markStamp := x.markStamp, endStamp := s.stb % 2 ^ 32,
    crcLines := x.crcLines, attention := x.attn, faces := x.faces, width := x.cfg.outWidth, height := x.cfg.outHeight, stats := statsBytes o motion,
    emb := x.emb }
  let s := setCam { s with freeCtr := s.freeCtr + frameDraws } port { x with inFrame := false, endAt := s.stb }
  let s := if x.gateOpen ∧ x.started then storeFrame s port f (planes.1 ++ planes.2) else s
  visionStage s port motion o

/-- The remainder of a frame is dropped. -/
def dropRemainder (x : Cam) : Cam := { x with dropRest := true, truncated := true }

/-- A short packet's header: one that cannot be corrected drops the remainder of the frame and is not used, one that was corrected is counted
(04 Table 4.6). -/
def shortEcc (x : Cam) (ecc : HeaderEcc) : Cam :=
  match ecc with
  | .ok => x
  | .corrected => { x with eccCorrected := x.eccCorrected + 1 }
  | .bad => if x.inFrame then dropRemainder x else { x with discarded := x.discarded + 1 }

/-- `FRAME_END`. -/
def frameEnd (port : Nat) (ecc : HeaderEcc) (s : State) : State :=
  if !camRuns s port || !(camOf s port).armedRx then s
  else
    let s := updCam s port (fun x => shortEcc x ecc)
    if decide (ecc ≠ .bad) && (camOf s port).inFrame then endFrame s port false else s

/-- A new frame of exposure 0 begins. A switch of the ISP's firmware drops it when the gap before it is shorter than 200 µs (13 Table
13.12). -/
def beginNumbered (s : State) (port : Nat) : State :=
  let x := camOf s port
  let n := x.frameNo
  let drop := x.ispSwitched && decide (s.stb < x.endAt + 615)
  let due := x.stage1 && decide (x.presenceDue ≤ s.stb)
  let x := { pruneSettings x n with
             ispSwitched := false, gapNext := x.gapNext || drop, gapThis := x.gapRecv, gapRecv := false,
             presTake := due, presFrame := if due then none else x.presFrame,
             skipped := if due then x.skipped + b2n x.presFrame.isSome + (s.stb - x.presenceDue) / presencePeriod else x.skipped,
             presenceDue := if due then (s.stb / presencePeriod + 1) * presencePeriod else x.presenceDue,
             starts := ((n, s.stb) :: x.starts).take 16,
             frameNo := n + 1, inFrame := true, started := x.gateOpen && !drop, frameStart := s.stb, lastStart := s.stb, raw0 := [], raw1 := [], raw2 := [], dropRest := false, truncated := false, crcLines := 0, markStamp := 0, emb := [], embSeen := 0,
             stalled := false }
  pumpBus (finishParams (setCam s port x) port)

/-- Virtual channel of an exposure; 3 is the embedded data's. -/
def vcOf (x : Cam) (i : Nat) : Nat := bits x.cfg.vcMap.toNat (2 * i + 1) (2 * i)

/-- Count a frame of a virtual channel (02 R37). -/
def countVc (x : Cam) (vc : Nat) : Cam := { x with vcCounts := x.vcCounts.zipIdx.map (fun e => if e.2 = vc then (e.1 + 1) % 2 ^ 32 else e.1) }

/-- `FRAME_START` on a virtual channel. Gate changes and settings happen at the start of exposure 0's frame; a start at which the stream stops
is not received. -/
def frameStartEvent (port vc : Nat) (ecc : HeaderEcc) (s : State) : State :=
  let x := camOf s port
  if !camRuns s port || !x.armedRx || decide (4 ≤ vc) then s
  else
    let named := ((List.range x.cfg.exposures) ++ [3]).any (fun i => vcOf x i == vc)
    let s := updCam s port (fun x => shortEcc x ecc)
    if ecc = .bad then s
    else if !named then updCam s port (fun x => { x with discarded := x.discarded + 1 })
    else if vc ≠ vcOf x 0 then updCam s port (fun x => countVc x vc)
    else
      let s := if x.inFrame then endFrame s port true else s
      let s := gateAtStart s port
      if camRuns s port && (camOf s port).armedRx then beginNumbered (updCam s port (fun x => countVc x vc)) port else s

/- ### The receiver (04 Table 4.1, Table 4.6) -/

/-- Pixels of a line. -/
def linePixels (k : CsiPacket) : Nat := if k.dataType = 0x1E then k.pixels.length / 2 else k.pixels.length

/-- A line of exposure `i`. -/
def takeLine (s : State) (x : Cam) (i : Nat) (k : CsiPacket) : Cam :=
  let raw := if i = 0 then x.raw0 else if i = 1 then x.raw1 else x.raw2
  if x.dropRest then x
  else if k.overflow || decide (x.cfg.height ≤ raw.length) || decide (x.cfg.width < linePixels k) then dropRemainder x
  else
    let x := if i = 0 ∧ raw.length = x.cfg.markLine then { x with markStamp := s.stb } else x
    let x := if i = 0 then { x with lineAt := s.stb, lineTicks := if raw.isEmpty then x.lineTicks else s.stb - x.lineAt } else x
    let x := if k.crcOk then x else { x with crcLines := x.crcLines + 1 }
    let raw := raw ++ [repairLine x.cfg (frameSet s x (x.frameNo - 1)).again raw k.crcOk k.pixels]
    if i = 0 then { x with raw0 := raw } else if i = 1 then { x with raw1 := raw } else { x with raw2 := raw }

/-- A line of embedded data: at most 1 KiB of `EMB_LINES` lines is kept. -/
def takeEmb (x : Cam) (k : CsiPacket) : Cam :=
  if x.embSeen < x.cfg.embLines then { x with embSeen := x.embSeen + 1, emb := (x.emb ++ k.data).take 1024 } else x

/-- `CSI2_PACKET`: a long packet, or a line start or end, which is ignored. -/
def csi2Packet (port : Nat) (k : CsiPacket) (s : State) : State :=
  let x := camOf s port
  if !camRuns s port || !x.armedRx || k.dataType == 0x02 || k.dataType == 0x03 then s
  else
    let drop := setCam s port { x with discarded := x.discarded + 1 }
    let exp := (List.range x.cfg.exposures).find? (fun i => vcOf x i == k.vc)
    if k.ecc = .bad then (if x.inFrame then setCam s port (dropRemainder x) else drop)
    else if !x.inFrame then drop
    else
      let x := if k.ecc = .corrected then { x with eccCorrected := x.eccCorrected + 1 } else x
      if k.dataType = 0x12 then (if vcOf x 3 = k.vc then setCam s port (takeEmb x k) else setCam s port { x with discarded := x.discarded + 1 })
      else match (if k.dataType = x.cfg.dataType then exp else none) with
        | some i => setCam s port (takeLine s x i k)
        | none => setCam s port { x with discarded := x.discarded + 1 }

/-- `STREAM_STALL`: once until the next frame start. -/
def streamStall (port : Nat) (s : State) : State :=
  let x := camOf s port
  if camRuns s port && x.armedRx && !x.stalled && decide (x.lastStart + ceilDiv (4 * 3072000) (max 1 x.cfg.fpsMax) ≤ s.stb) then
    raise (setCam s port { x with stalled := true }) (capture s 0x26 port 0)
  else s

/- ### The vision cascade (04 R91, R93, R94) -/

/-- Domains that vision stage 2 needs. -/
def attendDoms (s : State) (x : Cam) : List Nat := domCtrl :: memDomsOf s .pf0 ++ [domCop x.attendCoppice, domEdge x.attendCoppice]

/-- Vision stage 2 can run: on tenant 0's coppice, with its domains ON and its model installed (04 Table 4.7, R94). -/
def attends (s : State) (x : Cam) : Bool :=
  ownsCoppice s .pf0 x.attendCoppice && allOn s (attendDoms s x) && (modelOf s .pf0 x.attendModel).isSome

/-- `PRESENCE_SCORE` of the image that waits for it, that of the first frame that started at or after its due tick (04 R93). `att` and `faces`
are what stage 2 finds where it runs; until its domains are ON they are unknown. -/
def presenceScore (port score att faces : Nat) (s : State) : State :=
  let x := camOf s port
  if !camRuns s port || !x.stage1 || !listens s || !domOn s 0x04 || x.presFrame.isNone || decide (3 < att) || decide (255 < faces) then s
  else
    let x := { x with presFrame := none }
    if score < x.presenceThreshold then
      setCam s port { x with presLow := some (x.presLow.getD s.stb), stage2 := false, attn := if 2 ≤ x.cascadeTop then 1 else 0, faces := 0 }
    else if x.cascadeTop < 2 ∨ x.autoRelease = false ∨ ownsCoppice s .pf0 x.attendCoppice = false then setCam s port { x with presLow := none }
    else
      let s := setCam s port { x with presLow := none, stage2 := true, attn := if attends s x then att else 0, faces := if attends s x then faces else 0,
                                      openDue := x.openDue || !x.gateOpen || x.closeDue,
                                      openDueStage2 := if x.openDue then x.openDueStage2 else true }
      let s := wantGroups s (groupsOf s .pf0)
      (attendDoms s x).foldl (fun s d => demandDom s d 0x00 0x06) s

/-- `ABSENT_HOLD` seconds have passed. -/
def heldFor (s : State) (x : Cam) (since : Option Nat) : Bool :=
  match since with | some t => decide (t + 3072000 * x.absentHold ≤ s.stb) | none => false

/-- `ABSENT_HOLD`: a gate opened by stage 2 is due to close, and stage 1 stops. -/
def absentHold (port : Nat) (s : State) : State :=
  let x := camOf s port
  if !camRuns s port then s
  else
    let x := if x.gateOpen ∧ x.gateStage2 ∧ heldFor s x x.presLow then { x with closeDue := true } else x
    let stop := x.stage1 && heldFor s x x.motionLow
    let s := setCam s port (if stop then { x with stage1 := false, stage2 := false, attn := 0, faces := 0, presTake := false, presFrame := none } else x)
    if stop ∧ audioWant s 0x04 ≠ .on ∧ (domOf s 0x04).state ≠ .off then cascadeState s 0x04 (audioWant s 0x04) else s

/- ### CAMERA_CONFIG (04 R75, R95) -/

/-- Entries of an initialisation list fill it exactly. -/
def initOk (bs : List Byte) : Nat → Bool
  | 0 => bs.isEmpty
  | k + 1 => bs.isEmpty || (decide (4 ≤ bs.length) && decide (4 + field bs 2 1 ≤ bs.length) && initOk (bs.drop (4 + field bs 2 1)) k)

def camConfigOf (b cal : List Byte) : CamConfig :=
  { lanes := field b 2 1, dataType := field b 3 1, laneMbps := field b 4 2, width := field b 6 2, height := field b 8 2,
    exposures := field b 10 1, vcMap := BitVec.ofNat 8 (field b 11 1), bayer := field b 12 1, embLines := field b 13 1,
    i2cAddr := field b 14 1, i2cSpeed := field b 15 1, mclk := field b 16 1, syncMode := field b 17 1, initWait := field b 18 2,
    syncPeriod := field b 20 4, syncPhase := field b 24 4, markLine := field b 28 2, latchLine := field b 30 2, delayExp := field b 32 1,
    delayAgain := field b 33 1, delayDgain := field b 34 1, fpsMax := field b 35 1, outWidth := field b 36 2, outHeight := field b 38 2,
    frameSlots := field b 40 1, expReg := field b 42 2, againReg := field b 44 2, dgainReg := field b 46 2, cal := cal, init := b.drop 64 }

/-- The limits of Table 4.9 and R75. -/
def camConfigOk (b cal : List Byte) : Bool :=
  let g := camConfigOf b cal
  let px := g.width * g.height * g.exposures * g.fpsMax
  field b 0 2 == 1 && [1, 2, 4].contains g.lanes && [0x2A, 0x2B, 0x2C, 0x2D, 0x1E].contains g.dataType && decide (80 ≤ g.laneMbps)
    && decide (g.laneMbps ≤ 2500) && decide (64 ≤ g.width) && decide (g.width ≤ 4096) && g.width % 2 == 0 && decide (64 ≤ g.height)
    && decide (g.height ≤ 3072) && decide (1 ≤ g.exposures) && decide (g.exposures ≤ 3) && (g.dataType != 0x1E || g.exposures == 1)
    && decide (g.bayer ≤ 3) && decide (g.embLines ≤ 2) && decide (g.i2cAddr < 128) && decide (g.i2cSpeed ≤ 1) && decide (g.mclk ≤ 3)
    && decide (g.syncMode ≤ 1) && decide (1 ≤ g.fpsMax) && decide (g.fpsMax ≤ 30) && decide (3072000 ≤ g.syncPeriod * g.fpsMax)
    && decide (g.syncPhase < g.syncPeriod) && decide (g.delayExp ≤ 3) && decide (g.delayAgain ≤ 3) && decide (g.delayDgain ≤ 3)
    && decide (64 ≤ g.outWidth) && g.outWidth % 2 == 0 && decide (g.outWidth ≤ g.width) && decide (g.outHeight ≤ g.height)
    && decide (2 ≤ g.frameSlots) && decide (g.frameSlots ≤ 16) && zeroAt b 41 41 && field b 56 4 == 8592 && zeroAt b 60 63
    && initOk g.init g.init.length && decide (px ≤ 800000000)
    && decide (10 * px * pixelBits g.dataType ≤ 9 * g.lanes * g.laneMbps * 1000000)
    && field cal 0 2 == 1 && zeroAt cal 2 3 && decide (field cal 4494 2 ≤ 1024)

/-- Static conditions of `CAMERA_CONFIG`; what only a configuration uses is judged with `ACTION` 0. -/
def paramsCameraConfig (s : State) (c : Cmd) : Bool :=
  let a := arg c 25 1
  let top := arg c 26 1
  decide (arg c 24 1 ≤ 1) && decide (a ≤ 3) && decide (top ≤ 3) && decide (arg c 27 1 < 2) && (decide (top < 2) || arg c 27 1 == 1)
    && restZero c 50
    && (a != 0 || (decide (64 ≤ arg c 36 4) && decide (1 ≤ arg c 42 1) && decide (arg c 42 1 ≤ 8) && decide (1 ≤ arg c 43 1)
                    && decide (arg c 46 1 ≤ 15) && decide (arg c 47 1 ≤ 3)
                    && (decide (top < 2) || ownsCoppice s .pf0 (arg c 47 1))))

/-- The port, or the coppice of vision stage 2, is absent in the part (00 R1, 04 R95). -/
def cameraAbsent (s : State) (c : Cmd) : Bool :=
  (decide (arg c 24 1 ≤ 1) && !portPresent s.fuse.part (arg c 24 1))
    || (c.op == .cameraConfig && arg c 25 1 == 0 && decide (2 ≤ arg c 26 1) && decide (arg c 47 1 ≤ 3) && !coppicePresent s (arg c 47 1))

/-- `ACTION` 0: a new configuration restarts the frame numbers; an open gate stays open on an empty store. -/
def configureCam (c : Cmd) (s : State) : State :=
  let p := arg c 24 1
  let b := memReadN s.store.host (arg c 28 8) (arg c 36 4)
  let cal := memReadN s.store.host (field b 48 8) 8592
  if !camConfigOk b cal then complete s c .badParam
  else
    let g := camConfigOf b cal
    let old := camOf s p
    let s0 := dropAllocs s .pf0 [19] p
    match placeObject s0 .pf0 2 0 (g.frameSlots * (yBytes g + cBytes g)) 19 p false with
    | none => complete s c .quota
    | some r =>
      let s := (openParams r.1 p).foldl (fun s d => complete (dropWork s d) d .notPresent) r.1
      let top := arg c 26 1
      let x : Cam := { configured := true, cfg := g, cascadeTop := min top 2, autoRelease := arg c 27 1 == 1, motionThreshold := arg c 40 2,
                       motionFrames := arg c 42 1, absentHold := arg c 43 1, presenceThreshold := arg c 44 2, presenceModel := arg c 46 1,
                       attendCoppice := arg c 47 1, attendModel := arg c 48 2, gateOpen := old.gateOpen, gateStage2 := old.gateStage2,
                       opener := old.opener, closeDue := old.closeDue, openDue := old.openDue, openDueStage2 := old.openDueStage2, enAt := old.enAt,
                       gapRecv := old.gapRecv, i2cOut := old.i2cOut, initLeft := old.initLeft, initGo := old.initGo, initTries := old.initTries, streaming := decide (1 ≤ top) || old.streaming, lastStart := s.stb,
                       armedRx := old.armedRx, initAt := old.initAt }
      complete (settleCam (setCam s p x) p) c .ok

/-- `CAMERA_CONFIG`. -/
def runCameraConfig (c : Cmd) (s : State) : State :=
  let p := arg c 24 1
  let x := camOf s p
  match arg c 25 1 with
  | 0 => configureCam c s
  | 1 =>
    if !x.configured then complete s c .badParam
    else complete (settleCam (setCam s p { x with streaming := true, openDue := !x.gateOpen || x.closeDue, openDueStage2 := false,
                                                  gateStage2 := if x.closeDue then x.gateStage2 else false, dropDue := false, lastStart := s.stb }) p) c .ok
  | 2 =>
    let x := { x with streaming := false, openDue := false, closeDue := x.gateOpen }
    complete (if x.gateOpen then setCam s p x else settleCam (setCam s p x) p) c .ok
  | _ =>
    if x.gateOpen then complete (setCam s p { x with openDue := false, closeDue := true, dropDue := true }) c .ok
    else complete (dropCam s p) c .ok

end Sys2Proof.Machine
end

