-- ==== Sys2Proof/Machine/Units.lean ====
section
/-! DEFINITION. The unit events: admission of a tile or edge command at a boundary and its commit (06 R155, R156, R447; 07
R173; 11 R259; 14 R339; 15 R362). -/

namespace Sys2Proof.Machine

/-- What a job's operator computes. -/
def probOf (s : State) (c : Cmd) (j : Job) : Option Prob :=
  match c.op with
  | .matmul => some (matmulProb s c)
  | .conv2d => some (convProb s c j.frame j.edge c.aux)
  | .pool2d => some (poolProb s c c.aux)
  | .attention => some (attentionProb s c j)
  | _ => none

/-- The ordinary result of an operator for its committed work (05 R117). -/
def jobResult (c : Cmd) (j : Job) : List Byte :=
  match c.op with
  | .matmul => matmulResult j
  | .conv2d => convResult c j
  | .pool2d => poolResult c j
  | .attention => attentionResult j
  | _ => []

/-- A job goes on: its command is open, parked on its tile commands, and no poison ended it (06 R447). -/
def jobAdmits (s : State) (t : WorkCut) (edge : Bool) : Bool :=
  match t.work with
  | .step _ _ => !edge
  | .cmd id =>
    match cmdOf s id, jobOf s id with
    | some c, some j => c.phase == .parked .tiles && !j.poisoned && j.edge == edge && s.work.imageEnds.all (fun e => e.1 != id)
        && (match probOf s c j with | some pr => cutFits pr j t | none => false)
        && s.work.admitted.all (fun a => !cutsMeet a.cut t)
    | _, _ => false

/-- The PMU's estimate of a cut's energy from its mode and its cycles (15 R362); those of a batch step's cut are its program's. -/
def cutEnergy (s : State) (t : WorkCut) : Nat :=
  match t.work with
  | .cmd id =>
    match (cmdOf s id).bind (fun c => (jobOf s id).bind (probOf s c)) with
    | some pr => Config.energyEstimate pr.mode (pr.cycles t)
    | none => 0
  | .step fn m => Config.programEnergy (((modelOf s fn m).map (·.image)).getD [])

/-- Whether the operator of a cut runs on an edge engine. -/
def edgeWork (s : State) (t : WorkCut) : Bool :=
  match t.work with
  | .cmd id => (match jobOf s id with | some j => j.edge | none => false)
  | .step _ _ => false

/-- `TILE_COMMAND_ADMIT`: at a boundary the coppice admits a tile or edge command in class order under the power limit (11
R259, 15 R362). The command runs on an edge engine where its operator does. -/
def admitEvent (t : WorkCut) (measured : Energies) (s : State) : State :=
  if laurelRuns s && !s.custody.quiescing && jobAdmits s t (edgeWork s t) && workNames s t (edgeWork s t) && unitReady s t (edgeWork s t)
      && classTurn s t then
    (if powerAdmits s t (cutEnergy s t) measured then admitCut s t (edgeWork s t) else deferCut s)
  else s

/-- A cut that runs on a unit. -/
def admittedAs (s : State) (t : WorkCut) (edge : Bool) : Option Admitted :=
  s.work.admitted.find? (fun a => decide (a.cut = t) && a.edge == edge)

/-- A job changes: its command's result is that of the work it has committed (05 R117). -/
def bookJob (s : State) (j : Job) : State :=
  let s := setJob s j
  match cmdOf s j.id with
  | some c => setCmd s { c with res := jobResult c j }
  | none => s

/-- Number of the checker and the source of a cut's unit (14 Table 14.3). -/
def checkerOf (s : State) (t : WorkCut) (edge : Bool) : Nat × Nat :=
  if edge then (0x09, t.coppice) else (0x08, physTile s t.coppice t.tile)

/-- The cut reads a line or block that cannot be delivered: it is discarded and the job ends (06 R447, 07 R173). -/
def poisonCut (s : State) (c : Cmd) (j : Job) (a : Admitted) (e : ReadError) : State :=
  let s := removeCut (discardTrace s a 7) a.cut
  let s := if e = .undecodable then raise s ((captureCmd s c 0x16 (checkerOf s a.cut a.edge).2 1).inRegion s (unitDom (cutUnit s a))) else s
  endPoisoned (setJob s { j with poisoned := true }) c.id

/-- An operator's command after a commit: it completes when every output element has committed. -/
def afterCommit (s : State) (c : Cmd) (j : Job) : State :=
  let c := { c with res := jobResult c j, warn := c.warn ||| (if 0 < j.emptyRows then warnEmptyRow else 0) }
  let s := setCmd s c
  if j.poisoned then endPoisoned s c.id
  else if j.done.length = j.total then finishCmd s c else s

/-- A mismatch discards the command's outputs and is a fault against the unit (06 R146). Once: the command is re-run, wherever its tile goes. A second
mismatch ends the work `POISON`. Under a FATAL halt a tile command that fails its checks is discarded and not run again (06 Table 6.9). -/
def mismatch (s : State) (t : WorkCut) (a : Admitted) (src unit : Nat) : State :=
  let ids := workCmds s t.work
  let cap := match (ids.head?).bind (cmdOf s) with | some c => captureCmd s c src unit 1 | none => capture s src unit 1
  let s := raiseAt s src unit cap
  let s := discardTrace s a 6
  let s := if a.edge then s else countUp (countUp s 0x0005 unit 1) 0x0003 unit (Config.freeNat s.freeCtr)
  let s := bumpFree s
  if s.fault.haltLaurel then removeCut s t
  else if a.retried then
    let s := match t.work with
      | .cmd _ => s
      | .step fn m => match stepOf s fn m with | some x => discardStep s x | none => s
    endAll (removeCut s t) ids .poison
  else
    let s : State := ids.foldl (fun s id => countRetry (warnCmd s id warnRerun) id) s
    let s : State := match t.work with
      | .cmd id => match jobOf s id with | some j => bookJob s { j with retries := j.retries + 1 } | none => s
      | .step _ _ => s
    { s with work := { s.work with retried := s.work.retried ++ [anywhere t], admitted := s.work.admitted.map (fun x =>
        if x.cut = t then { x with retried := true } else x) } }

/- ### Outputs of batch steps (05 Table 5.12; 11 R276) -/

/-- What has committed of an output of a command. -/
def outStage (s : State) (id no : Nat) : OutStage := (s.work.outs.find? (fun o => o.cmd == id && o.out == no)).getD { cmd := id, out := no }

/-- Commit the listed elements of output `no` of a command that have not committed; `val` gives an element's bytes from a draw and its index. The first commit sets the index entries of a `ZMASK` tensor, and a block is written when its last element commits (07 R174). -/
def commitOutBy (val : Nat → Nat → List Byte) (s : State) (c : Cmd) (no : Nat) (d : Desc) (idx : List Nat) : State :=
  let n := elemBytes d.format
  let o := outStage s c.id no
  let s := if o.done.isEmpty && !idx.isEmpty then invalidate s d else s
  let q := (idx.filter (fun i => !o.done.contains i)).foldl (fun (x : State × OutStage) i =>
    let bs := val x.1.freeCtr i
    let s := { x.1 with freeCtr := x.1.freeCtr + n }
    (if d.form = 0 then tierWrite s d.tier (d.off + d.elemOff i) bs else s,
      { x.2 with done := x.2.done ++ [i], staged := memWriteN x.2.staged (n * i) bs })) (s, o)
  let s := if d.form = 1 then writeBlocks' q.1 d q.2.staged o.done q.2.done else q.1
  { s with work := { s.work with outs := s.work.outs.filter (fun x => !(x.cmd == c.id && x.out == no)) ++ [q.2] } }

/-- Commit elements with the values of the model's program, which are open (notes/assumptions/39.md). -/
def commitOut (s : State) (c : Cmd) (no : Nat) (d : Desc) (idx : List Nat) : State :=
  commitOutBy (fun k _ => freeBytes k (elemBytes d.format)) s c no d idx

/-- Elements of an output that belong to positions `[a, b)` of a command, along dim 1. -/
def positionElems (d : Desc) (a b : Nat) : List Nat :=
  (List.range d.count).filter (fun i => let p := (unravel d.used i).getD 1 0; decide (a ≤ p) && decide (p < b))

/-- Elements that positions `[a, b)` of `total` give by `OUT_MODE`: those of every position, or of the last one. -/
def modeElems (d : Desc) (mode a b total : Nat) : List Nat :=
  if !d.present || mode = 2 then []
  else if mode = 1 then positionElems d a b
  else if b = total then List.range d.count else []

/-- The outputs that a member's work in a step writes, with their elements. `GRAD` is written when its command completes (09 R231). -/
def memberOuts (c : Cmd) (mb : Member) : List (Desc × List Nat) :=
  match c.op with
  | .seqAppend => let d := descAt c.pkt.block 128; [(d, modeElems d (blk c 8 1) c.cnt (c.cnt + mb.n) (blk c 4 4))]
  | .streamChunk => let d := descAt c.pkt.block 128; [(d, modeElems d (blk c 8 1) c.cnt (c.first + mb.n) (blk c 4 4))]
  | .graphRun => (List.range (blk c 6 1)).map (fun i => let d := descAt c.pkt.block (64 + 64 * (blk c 5 1 + i)); (d, List.range d.count))
  | _ => []

/-- A tile command of a step commits its block of a member's output: the member is the cut's batch and the output its first K, where rows are dense rows of dim
0. Most tile commands of a program write no output (05 Table 5.12; 10 R248). -/
def commitStepCut (s : State) (x : Step) (t : WorkCut) : State :=
  match x.members[t.batch]? with
  | none => s
  | some mb => match cmdOf s mb.cmd with
    | none => s
    | some c => match (memberOuts c mb)[t.k0]? with
      | none => s
      | some (d, idx) =>
        let w := max 1 (d.dim 0)
        commitOut s c t.k0 d (idx.filter (fun i => decide (t.m0 ≤ i / w) && decide (i / w < t.m1) && decide (t.n0 ≤ i % w) && decide (i % w < t.n1)))

/-- Open result flags of a model's program (06 Table 6.13). -/
def openFlags (n : Nat) : Nat := Config.freeNat n % 64

/-- Result of a `GRAPH_RUN` for the work of a step so far (11 Table 11.9). -/
def graphResult (c : Cmd) (tileCmds flags : Nat) : List Byte := natLe 4 tileCmds ++ natLe 2 flags ++ zeroBytes 2 ++ natLe 4 c.lost

/-- A step counts a committed tile command, which its `GRAPH_RUN` members show. -/
def countStepCut (s : State) (x : Step) : State :=
  let n := x.tileCmds + 1
  let s := { s with work := { s.work with steps := s.work.steps.map (fun y => if y.fn = x.fn ∧ y.model = x.model then { y with tileCmds := n } else y) } }
  bumpFree (x.members.foldl (fun s m => match cmdOf s m.cmd with
    | some c => if c.op = .graphRun then setCmd s { c with res := graphResult c n (openFlags s.freeCtr) } else s
    | none => s) s)

/-- An injection armed at the buffer of a cut's tile strikes (14 R348, Table 14.3 source 0x01): the state, and whether the error is
uncorrectable. -/
def tileEcc (s : State) (t : WorkCut) (edge : Bool) : State × Bool :=
  let u := physTile s t.coppice t.tile
  match (if edge then none else armed s 0x01 u (fun _ => false)) with
  | some i =>
    let cls := if i.bits = 1 then 0 else 1
    let cap := match ((workCmds s t.work).head?).bind (cmdOf s) with | some c => captureCmd s c 0x01 u cls | none => capture s 0x01 u cls
    (fireInjection s i cap, cls == 1)
  | none => (s, false)

/-- The cut that read an uncorrectable line of its tile's buffer is discarded, and its work ends `POISON`. -/
def eccCut (s : State) (a : Admitted) : State :=
  let s := removeCut (discardTrace s a 7) a.cut
  match a.cut.work with
  | .cmd id => match jobOf s id with
    | some j => endPoisoned (setJob s { j with poisoned := true }) id
    | none => s
  | .step fn m =>
    let ids := workCmds s a.cut.work
    endAll (match stepOf s fn m with | some x => discardStep s x | none => s) ids .poison

/-- Armed injections strike a cut's reads of its operands. -/
def strikeCut (s : State) (c : Cmd) (j : Job) (t : WorkCut) (edge : Bool) : State :=
  strike (captureBy s c (if edge then 0x48 + t.coppice else 0x20 + physTile s t.coppice t.tile)) (tensorRanges c)
    (fun u => (probOf u c j).any (fun pr => cutBad pr t == some .poison)) s

/-- Why an element of an input that belongs to positions `[a, b)` cannot be delivered (06 R447). -/
def inputErr (s : State) (d : Desc) (a b : Nat) : Option ReadError := (positionElems d a b).findSome? (fun i => d.badElem s i)

/-- Why the inputs of a member's work in a step cannot be delivered. -/
def memberBad (s : State) (c : Cmd) (mb : Member) : Option ReadError :=
  match c.op with
  | .seqAppend => inputErr s (descAt c.pkt.block 64) c.cnt (c.cnt + mb.n)
  | .trainStep => (inputErr s (descAt c.pkt.block 64) 0 65536).or (inputErr s (descAt c.pkt.block 128) 0 65536)
  | .graphRun => (List.range (blk c 5 1)).findSome? (fun i => inputErr s (descAt c.pkt.block (64 + 64 * i)) 0 (2 ^ 32))
  | _ => none

/-- Armed injections strike a step's read of a command's inputs, which a tile of the step's first coppice makes. -/
def strikeInputs (t : Step) (c : Cmd) (bad : State → Bool) (s : State) : State :=
  strike (captureBy s c (0x20 + physTile s ((maskList t.coppices.toNat).headD 0) 0)) (tensorRanges c) bad s

/-- A member whose input cannot be delivered ends `POISON`; a block that cannot be decoded is a fault of its own (07 R173). -/
def endBadInput (s : State) (t : Step) (c : Cmd) (e : ReadError) : State :=
  let u := physTile s ((maskList t.coppices.toNat).headD 0) 0
  let s := if e = .undecodable then raise s ((captureCmd s c 0x16 u 1).inRegion s (domTile u)) else s
  endCmd s c .poison

/-- A tile command of a step that reads a member's inputs finds one that cannot be delivered: the member ends (06 R447). -/
def stepCutBad (s : State) (x : Step) (t : WorkCut) : Option (Cmd × ReadError) :=
  match (x.members[t.batch]?).bind (fun mb => (cmdOf s mb.cmd).map (fun c => (c, mb))) with
  | some (c, mb) => (memberBad s c mb).map (fun e => (c, e))
  | none => none

/-- A tile or edge command ends (06 R146, R155; 14 R339): with a failed comparison or an undeliverable operand its outputs are
discarded, else they commit. A failed comparison goes before a poisoned line (06 Table 6.9). Of a step's products only the error is known: their operands
are the program's. -/
def cutCommit (t : WorkCut) (edge : Bool) (upset : Option Upset) (s : State) : State :=
  match admittedAs s t edge with
  | none => s
  | some a =>
    let k := checkerOf s t edge
    let injected := (armed s k.1 k.2 (fun _ => true)).isSome
    let e := tileEcc s t edge
    if s.fault.integrity then s
    else match t.work with
      | .step fn m =>
        if injected || upset.any (fun u => decide (u.delta ≠ 0)) then mismatch s t a k.1 k.2
        else if e.2 then eccCut e.1 a
        else
          let s := e.1
          let s1 := countCommit (removeCut s t) (traceOwner s t.work) false k.2 (Config.freeNat s.freeCtr) 0
          match stepOf s fn m with
          | none => removeCut s t
          | some x => match stepCutBad s x t with
            | some (c, e) => endBadInput (removeCut (discardTrace s a 7) t) x c e
            | none => countStepCut (commitStepCut (bumpFree s1) x t) x
      | .cmd id =>
        match cmdOf s id, jobOf s id with
        | some c, some j =>
          match probOf s c j with
          | none => s
          | some pr =>
            if injected || cutFails pr j t upset then mismatch s t a k.1 k.2
            else if e.2 then eccCut e.1 a
            else
              let s := strikeCut e.1 c j t edge
              match (probOf s c j).bind (fun pr => cutBad pr t) with
              | some e => poisonCut s c j a e
              | none =>
                let x := commitCut (removeCut s t) pr j t
                let s1 := countCommit (setJob x.1 x.2) (some c) edge k.2 (pr.products t) (pr.skipped t)
                afterCommit s1 c x.2
        | _, _ => s

/-- `TILE_COMMAND_COMMIT`. -/
def tileCommitEvent (t : WorkCut) (upset : Option Upset) (s : State) : State := cutCommit t false upset s

/-- `EDGE_COMMAND_COMMIT`. -/
def edgeCommitEvent (t : WorkCut) (upset : Option Upset) (s : State) : State := cutCommit t true upset s

end Sys2Proof.Machine
end

