-- ==== Sys2Proof/Machine/Steps.lean ====
section
/-! DEFINITION. Batch steps: `SEQ_APPEND`, `GRAPH_RUN` and `TRAIN_STEP`, how a step is built, pre-empted and committed, page
waits and slot grants (09 R205 to R220, R231, R232; 11 R253 to R261, R276, R278). -/

namespace Sys2Proof.Machine

/- ### Entering the sequence table (11 R254) -/

/-- The n-th input or output template of a model. -/
def Model.tmplIn (m : Model) (i : Nat) : Desc := descAt (m.inputs.getD i []) 0
def Model.tmplOut (m : Model) (i : Nat) : Desc := descAt (m.outputs.getD i []) 0

/-- A command that has its turn takes its slot, or waits for one. -/
def enterTable (s : State) (c : Cmd) (kind handle cls model : Nat) : State :=
  match takeSlot s c kind handle cls model with
  | some s => park s c .step
  | none => park s c .slot

/-- Commands of an op on a context that started before this one and are open (09 R214). -/
def earlierOn (s : State) (c : Cmd) : List Cmd :=
  s.cmds.filter (fun d => d.fn == c.fn && d.op == c.op && d.phase != .waiting && ctxHandle d.pkt == ctxHandle c.pkt && decide (d.sseq < c.sseq))

/- ### SEQ_APPEND (09 Table 9.4, R213 to R215) -/

/-- Static conditions of `SEQ_APPEND`. -/
def paramsSeqAppend (c : Cmd) : Bool :=
  let b := c.pkt.block
  let i := descAt b 64
  let o := descAt b 128
  let st := descAt b 192
  let n := blk c 4 4
  decide (blk c 0 2 = 1) && blkZero c 2 3 && decide (1 ≤ n) && decide (n ≤ 65536) && decide (blk c 8 1 ≤ 2) && decide (blk c 9 1 ≤ 1)
  && blkZero c 10 63 && ctxValid c.pkt && i.present && i.ok false && i.dim1 1 == n
  && (o.present == decide (blk c 8 1 ≠ 2)) && (!o.present || (o.ok true && decide (o.form ≤ 1))) && (st.present == decide (blk c 9 1 = 1))
  && (!st.present || (st.ok true && st.format == 0x05 && st.form == 0 && st.rank == 4 && st.dim 0 == 4 && st.dim 1 == n))

/-- Result of `SEQ_APPEND`; `misc` holds `KV_SAT` and `COW`. -/
def appendResult (c : Cmd) (length : Nat) : List Byte :=
  natLe 4 c.cnt ++ natLe 4 length ++ natLe 2 c.steps ++ natLe 2 (c.misc.headD 0 + 2 * (c.misc.getD 1 0))

/-- The descriptors agree with the graph image (09 R215, 11 R449). -/
def appendAgrees (s : State) (c : Cmd) (m : Model) (q : Seqn) : Bool :=
  let b := c.pkt.block
  let o := descAt b 128
  let st := descAt b 192
  agrees (m.tmplIn 0) (descAt b 64) (some (blk c 4 4)) && (!o.present || agrees (m.tmplOut 0) o none)
  && (!st.present || (st.dim 2 == Config.queryHeads m.image && st.dim 3 == q.geom.layers)) && operandsPlaced s c

/-- `SEQ_APPEND` starts (09 R213 to R215). -/
def runSeqAppend (c : Cmd) (s : State) : State := withContext c s (fun s =>
  match seqOf s c.fn (ctxHandle c.pkt) with
  | none => complete s c .badParam
  | some q =>
    match modelOf s c.fn q.model with
    | none => complete s c .badParam
    | some m =>
      let others := s.cmds.filter (fun d => d.id != c.id && d.fn == c.fn && d.op == .seqAppend && d.phase != .waiting && ctxHandle d.pkt == q.handle)
      let queued := (others.map (fun d => blk d 4 4 - d.cnt)).sum
      if !appendAgrees s c m q then complete s c .badParam
      else if 65536 < q.length + queued + blk c 4 4 then complete s c .lengthLimit
      else
        let c := { c with sseq := (others.map (·.sseq)).foldl max 0 + 1, phase := .parked .turn, misc := [0, 0] }
        matchWatch (setCmd s { c with res := appendResult c q.length }) c)

/-- An append whose turn has come takes its slot (09 R214). -/
def resumeSeqAppend (c : Cmd) (s : State) : Option State :=
  if c.phase ≠ .parked .turn then none
  else match seqOf s c.fn (ctxHandle c.pkt) with
    | none => some (endCmd s c .badParam)
    | some q => if (earlierOn s c).isEmpty then some (enterTable s c 1 q.handle q.cls q.model) else none

/- ### GRAPH_RUN (11 R276) -/

/-- Coppices of a step of a model: a command's own, or the policy's (0 is all), those of the tenant that are not held OFF (11
R258). -/
def stepCoppices (s : State) (fn : Fn) (model own : Nat) : List Nat :=
  let p := (policyOf s fn model).coppices
  let mask := if own ≠ 0 then own else if p ≠ 0 then p else 15
  (maskList mask).filter (fun c => ownsCoppice s fn c && usable s (domCop c))

/-- Static conditions of `GRAPH_RUN`. -/
def paramsGraphRun (s : State) (c : Cmd) : Bool :=
  let ni := blk c 5 1
  let no := blk c 6 1
  decide (blk c 0 2 = 1) && decide (blk c 4 1 < 16) && (maskList (blk c 4 1)).all (ownsCoppice s c.fn)
  && decide (1 ≤ ni) && decide (ni ≤ 8) && decide (1 ≤ no) && decide (no ≤ 8) && decide (blk c 7 1 ≤ 1) && blkZero c 8 63
  && !ctxValid c.pkt
  && (List.range (ni + no)).all (fun i => let d := descAt c.pkt.block (64 + 64 * i); d.present && d.ok (decide (ni ≤ i)) && (decide (i < ni) || decide (d.form ≤ 1)))

/-- The descriptors agree with the `INPUT` and `OUTPUT` sections. -/
def graphAgrees (s : State) (c : Cmd) (m : Model) : Bool :=
  let ni := blk c 5 1
  let no := blk c 6 1
  m.inputs.length == ni && m.outputs.length == no && operandsPlaced s c
  && (List.range ni).all (fun i => agrees (m.tmplIn i) (descAt c.pkt.block (64 + 64 * i)) none)
  && (List.range no).all (fun i => agrees (m.tmplOut i) (descAt c.pkt.block (64 + 64 * (ni + i))) none)

/-- `GRAPH_RUN` starts: it takes a slot of its own (11 R254, R276). -/
def runGraphRun (c : Cmd) (s : State) : State :=
  match modelOf s c.fn (blk c 2 2) with
  | none => complete s c .badParam
  | some m =>
    let cops := stepCoppices s c.fn m.id (blk c 4 1)
    if m.kv.isSome || m.recurrent || !graphAgrees s c m then complete s c .badParam
    else if cops.isEmpty then complete s c .cancelled
    else if decide (cops.length < m.minCoppices) || cops.any (fun k => decide (activeTiles s k < m.minTiles)) then complete s c .badParam
    else
      let c := { c with res := zeroBytes 12 }
      enterTable (matchWatch s c) c 3 0 c.cls m.id

/- ### TRAIN_STEP (09 R231, R232) -/

/-- Static conditions of `TRAIN_STEP`. -/
def paramsTrainStep (s : State) (c : Cmd) : Bool :=
  let g := descAt c.pkt.block 192
  decide (blk c 0 2 = 1) && decide (blk c 6 1 ≤ 1) && decide (blk c 7 1 ≠ 0) && decide (blk c 7 1 < 16)
  && (maskList (blk c 7 1)).all (ownsCoppice s c.fn) && decide (1 ≤ blk c 8 4) && decide (blk c 8 4 ≤ 65536) && blkZero c 12 63
  && [64, 128].all (fun o => let d := descAt c.pkt.block o; d.present && d.ok false)
  && g.present && g.ok true && decide (g.form ≤ 1) && (g.format == 0x05 || g.format == 0x04)

/-- The prefix sequence of a `TRAIN_STEP`, if `CTX_VALID` names one. -/
def trainPrefix (s : State) (c : Cmd) : Option Seqn := if ctxValid c.pkt then seqOf s c.fn (ctxHandle c.pkt) else none

/-- `TRAIN_STEP` starts (09 R232). -/
def runTrainStep (c : Cmd) (s : State) : State := withContext c s (fun s =>
  match modelOf s c.fn (blk c 2 2), modelOf s c.fn (blk c 4 2) with
  | some m, some _ =>
    let t := fun i => descAt (m.training.getD i []) 0
    let q := trainPrefix s c
    let ok := m.training.length == 3
      && [(0, 64), (1, 128), (2, 192)].all (fun x => agrees (t x.1) (descAt c.pkt.block x.2) none)
      && operandsPlaced s c && (!ctxValid c.pkt || (q.map (fun q => q.model == m.id)).getD false)
    if !ok then complete s c .badParam
    else if 65536 < (q.map (·.length)).getD 0 + blk c 8 4 then complete s c .lengthLimit
    else if (stepCoppices s c.fn m.id (blk c 7 1)).isEmpty then complete s c .cancelled
    else
      let c := { c with res := zeroBytes 12, aux := (q.map (·.length)).getD 0 }
      let s := match q with | some q => addReader s q c.id | none => s
      enterTable (matchWatch s c) c 3 0 c.cls m.id
  | _, _ => complete s c .badParam)

/- ### Residency of models and states for slots (10 R250, 11 R271) -/

/-- Handle that a slot's waits name. -/
def slotHandle (x : Slot) : Nat := if x.kind = 3 then 0 else x.handle

/-- The device prefetches a stream whose home is tier 3 for an open chunk of it, unless a swap of a lower `SSEQ` is open
(10 R250). -/
def wantsPrefetch (s : State) (x : Stream) : Bool :=
  let mine := s.cmds.filter (fun d => d.fn == x.fn && ctxHandle d.pkt == x.handle && d.lost != 2)
  x.home == 3 && !x.prefetch && mine.any (fun d => d.op == .streamChunk
    && mine.all (fun e => e.op != .stateSwap || decide (d.sseq < e.sseq)))

/-- Start every prefetch that is due. -/
def startPrefetches (s : State) : State :=
  { s with work := { s.work with streams := s.work.streams.map (fun x => if wantsPrefetch s x then { x with prefetch := true } else x) } }

/-- A slot whose model or state is not resident waits for it; one whose wait is over goes on. -/
def serveSlot (s : State) (x : Slot) : State :=
  match cmdOf s x.cmd, modelOf s x.fn x.model with
  | none, _ => s
  | some c, none => endCmd s c .badParam
  | some c, some m =>
    if x.parked then s else
    let need := m.resident.isNone || !streamResident s x
    if need then
      let r := if m.resident.isNone then (startResidency s m).getD (s, false) else (s, false)
      let s := startPrefetches r.1
      let c := c.warns (r.2 || (m.resident.isNone && m.wasEvicted)) warnEvicted
      if x.resWait then setCmd s c else residencyWait (setSlot s { x with resWait := true }) c (slotHandle x)
    else if x.resWait then
      let c := { c with phase := .parked .step }
      progress (setCmd (setSlot s { x with resWait := false }) c) c 0x0004 (slotHandle x) false
    else s

def serveSlots (s : State) : State := s.work.slots.foldl serveSlot s

/- ### Frames that a step needs (09 R210, R216) -/

/-- Reference count of a frame. -/
def frameRefs (s : State) (pfn : Nat) : Nat := match s.store.frames.find? (fun f => f.pfn == pfn) with | some f => f.refs | none => 0

/-- The page that holds the next position of a list, if part of it is committed. -/
def openPage (q : Seqn) (layer : Nat) (isV : Bool) : Option Page :=
  if q.length % q.geom.tokens = 0 then none
  else q.pages.find? (fun p => p.layer == layer && p.isV == isV && p.index == q.length / q.geom.tokens)

/-- The lists of a geometry. -/
def KvGeom.lists (g : KvGeom) : List (Nat × Bool) := (List.range g.layers).flatMap (fun l => [(l, false), (l, true)])

/-- Frames that `n` more positions of a sequence need: new pages, and copies of shared open pages beyond those that earlier
members of the step will leave. -/
def framesFor (s : State) (q : Seqn) (n : Nat) (earlier : List Seqn) : Nat :=
  let g := q.geom
  let fresh := ceilDiv (q.length + n) g.tokens - ceilDiv q.length g.tokens
  let copies := g.lists.filter (fun x => match openPage q x.1 x.2 with
    | some p =>
      let sharers := (earlier.filter (fun e => (openPage e x.1 x.2).map (·.pfn) == some p.pfn)).length
      decide (1 + sharers < frameRefs s p.pfn)
    | none => false)
  2 * g.layers * fresh + copies.length

/-- Scratch frames of a `TRAIN_STEP` (09 R231). -/
def scratchFrames (m : Model) (n : Nat) : Nat :=
  match m.kv with
  | some g => 2 * g.layers * ceilDiv n g.tokens
  | none => 0

/-- Take a reservation: the frames a page wait left come first. A step that is being built does not evict its own model `keep` (09 R218). -/
def takeFrames (s : State) (x : Slot) (keep need : Nat) : Option (State × List Nat × Bool) :=
  let own := x.held.take need
  let s := returnFrames s (x.held.drop need)
  (reserveFrames s x.fn keep (need - own.length)).map (fun r => (r.1, own ++ r.2.1, r.2.2 || x.evicted))

/-- Park a slot on a page wait (09 R217); it holds no part of a reservation (R216). -/
def parkSlot (s : State) (x : Slot) (c : Cmd) : State :=
  let s := setSlot (returnFrames s x.held) { x with parked := true, parkStamp := ctrlStamp s, ready := false, held := [] }
  let c := { c with phase := .parked .page, warn := c.warn ||| warnPageWaited }
  progress (setCmd s c) c 0x0001 (slotHandle x) false

/- ### Building a step (11 R255 to R258) -/

/-- Ready slots of a model in the builder's order (11 R257). -/
def candidates (s : State) (fn : Fn) (model : Nat) : List Slot :=
  let l := s.work.slots.filter (fun x => x.fn == fn && x.model == model && x.ready && x.chunk == 0)
  sortOn (·.effCls) (sortOn (fun x => b2n (x.pending != 1)) (sortOn (·.readyStamp) (sortOn (·.num) l)))

/-- The command of a slot and its block, for a `KIND` 3 occupant. -/
def sameShapes (a b : Cmd) : Bool :=
  a.op == .graphRun && b.op == .graphRun && blk a 7 1 == 1 && blk b 7 1 == 1 && blk a 4 3 == blk b 4 3
  && (List.range (blk a 5 1 + blk a 6 1)).all (fun i =>
    let x := descAt a.pkt.block (64 + 64 * i)
    let y := descAt b.pkt.block (64 + 64 * i)
    x.format == y.format && x.rank == y.rank && x.dims == y.dims)

/-- Whether a slot may join the members chosen so far (11 R257). -/
def mayJoin (s : State) (members : List Member) (x : Slot) (c : Cmd) : Bool :=
  match members with
  | [] => true
  | m :: _ =>
    if x.kind = 3 ∨ m.kind = 3 then
      decide (x.kind = 3) && decide (m.kind = 3) && (match cmdOf s m.cmd with | some d => sameShapes c d | none => false)
    else true

/-- Positions that a slot would bring with `room` left (11 R257). -/
def slotPositions (m : Model) (p : StepPolicy) (x : Slot) (c : Cmd) (room : Nat) : Nat :=
  let n := min (min x.pending p.chunkMax) 512
  if x.kind = 2 then
    let w := wholeChunks c m.chunk c.cnt (min n room) 512
    if w = 0 then (scanChunk c m.chunk c.cnt).1 else w
  else if x.kind = 3 then 1
  else min n room

/-- Frames that a slot's positions need. -/
def slotFrames (s : State) (m : Model) (x : Slot) (c : Cmd) (n : Nat) (members : List Member) : Nat :=
  if x.kind = 1 then
    match seqOf s x.fn x.handle with
    | some q => framesFor s q n (members.filterMap (fun k => if k.kind = 1 then seqOf s x.fn k.handle else none))
    | none => 0
  else if c.op = .trainStep then scratchFrames m (blk c 8 4)
  else 0

/-- One turn of the builder: the state, the members and the positions so far. -/
def buildSlot (m : Model) (p : StepPolicy) (b : State × List Member × Nat) (x : Slot) : State × List Member × Nat :=
  let (s, members, tokens) := b
  match cmdOf s x.cmd with
  | none => b
  | some c =>
    let room := p.tokens - tokens
    let n := slotPositions m p x c room
    if 64 ≤ members.length || decide (room = 0) || !mayJoin s members x c || decide (n = 0) || decide (room < n) then b
    else
      match takeFrames s x m.id (slotFrames s m x c n members) with
      | none => (parkSlot s x c, members, tokens)
      | some (s, pfns, ev) =>
        let c := { c.warns ev warnEvicted with first := if x.kind = 2 then c.cnt else c.first }
        let s := setCmd (setSlot s { x with chunk := n, held := [], evicted := false }) c
        (s, members ++ [{ slot := x.num, kind := x.kind, handle := x.handle, cmd := c.id, n := n, frames := pfns }], tokens + n)

/- ### Pre-emption (11 R260, R261) -/

/-- `PREEMPT` of a step's model: whether running tile commands are discarded. -/
def preemptKills (s : State) (t : Step) : Bool :=
  match (policyOf s t.fn t.model).preempt with
  | 1 => false
  | 2 => true
  | _ => t.cls == 0

/-- Coppices of a step. -/
def Step.cops (t : Step) : List Nat := maskList t.coppices.toNat

/-- Suspend a lower step on the coppices of a new one; with KILL its running tile commands there are discarded. -/
def preemptStep (t : Step) (s : State) (x : Step) : State :=
  let here := s.work.admitted.filter (fun a => decide (a.cut.work = .step x.fn x.model) && t.cops.contains a.cut.coppice)
  if decide (x.cls ≤ t.cls) || x.fn != t.fn || here.isEmpty then s
  else
    let s := { s with work := { s.work with steps := s.work.steps.map (fun y => if y.fn = x.fn ∧ y.model = x.model then { y with suspended := true } else y) } }
    if preemptKills s t then
      let s : State := here.foldl (fun s a => discardTrace s a 4) s
      let s : State := x.members.foldl (fun s m => warnCmd s m.cmd warnRerun) s
      { s with work := { s.work with admitted := s.work.admitted.filter (fun a => !here.contains a) } }
    else s

/-- Ways of a coppice that nothing holds, seen by a step. -/
def waysFor (s : State) (t : Step) (cop : Nat) : Nat :=
  freeWays s cop - ((s.work.steps.filter (fun x => !(x.fn == t.fn && x.model == t.model) && x.cops.contains cop)).map (stepWays s)).sum

/-- Suspended steps whose ways a new step may take on a coppice: the lowest class first, the one released last first. -/
def victims (s : State) (t : Step) (cop : Nat) : List Step :=
  let l := s.work.steps.filter (fun x => x.suspended && x.cops.contains cop && !(x.fn == t.fn && x.model == t.model))
  (sortOn (·.cls) (sortOn (·.release) l)).reverse

/-- Discard suspended steps of a coppice until the new step's ways are free (11 R261). -/
def takeWays (t : Step) (s : State) (cop : Nat) : State :=
  (victims s t cop).foldl (fun s x =>
    if stepWays s t ≤ waysFor s t cop then s
    else discardStep (x.members.foldl (fun s m => warnCmd s m.cmd warnRerun) s) x) s

/-- Conditions of a release (11 R255). -/
def mayRelease (s : State) (fn : Fn) (m : Model) : Bool :=
  let p := policyOf s fn m.id
  laurelRuns s && !s.custody.quiescing && (stepOf s fn m.id).isNone && m.resident.isSome && !m.loading
    && (decide (p.period = 0) || decide (ctrlStamp s % p.period = p.phase)) && !(candidates s fn m.id).isEmpty

/-- Coppices of a built step: the command's own for `KIND` 3, else the policy's. -/
def builtCoppices (s : State) (fn : Fn) (model : Nat) (members : List Member) : List Nat :=
  let own := match members.head?.bind (fun m => if m.kind = 3 then cmdOf s m.cmd else none) with
    | some c => if c.op = .trainStep then blk c 7 1 else blk c 4 1
    | none => 0
  stepCoppices s fn model own

/-- Domains of a step: its tenant's memory, its coppices and every active tile of them (15 R358). -/
def stepDoms (s : State) (t : Step) : List Nat :=
  memDomsOf s t.fn ++ t.cops.map domCop ++ t.cops.flatMap (fun c => (List.range (activeTiles s c)).map (fun k => domTile (physTile s c k)))

/-- `STEP_RELEASE`: the next step of a model is built and released, pre-empting lower steps (11 R255 to R261). -/
def stepRelease (fn : Fn) (model : Nat) (s : State) : State :=
  match modelOf s fn model with
  | none => s
  | some m =>
    let p := policyOf s fn model
    if !mayRelease s fn m || (builtCoppices s fn model []).isEmpty then s
    else
      let b := (candidates s fn model).foldl (buildSlot m p) (s, [], 0)
      if b.2.1.isEmpty then b.1
      else
        let s := b.1
        let cops := builtCoppices s fn model b.2.1
        let cls := ((b.2.1.filterMap (fun k => (s.work.slots.find? (fun x => x.num == k.slot)).map (·.effCls))).min?).getD 3
        let t : Step := { fn := fn, model := model, release := ctrlStamp s, members := b.2.1, cls := cls,
                          coppices := BitVec.ofNat 4 (cops.map (2 ^ ·)).sum,
                          est := max 1 (Config.soloEstimate m.image b.2.1.length b.2.2 cops.length) }
        let lower := s.work.steps
        let s := { s with work := { s.work with steps := s.work.steps ++ [t] } }
        let s : State := lower.foldl (preemptStep t) s
        let s : State := cops.foldl (takeWays t) s
        let s := demandWork s fn (stepDoms s t)
        match fn with
        | .pf0 => traceEvent s domCtrl 0x10 0x03 0x10 0 0 0 (model + 2 ^ 16 * b.2.1.length + 2 ^ 32 * b.2.2)
        | .pf1 => s

/- ### Committing a step (11 R258; 09 R205, R207, R210) -/

/-- Copy the rows below `t1` of one page to another (09 R210). -/
def copyRows (s : State) (g : KvGeom) (src dst t1 : Nat) : State :=
  let eb := elemBytes g.fmt
  (List.range g.kvHeads).foldl (fun s h =>
    let o := pageByte g.tokens g.headDim eb h 0 0
    tierWrite s 2 (dst * 65536 + o) (tierRead s 2 (src * 65536 + o) (t1 * g.headDim * eb))) s

/-- An INT8 page's shift for a head: the smallest exponent at which every element that its first step writes fits −127 to 127 after rounding (09
R205); 31 for values beyond every shift. -/
def kvShift (vs : List U32) : Int :=
  (((List.range 64).map (fun i => (i : Int) - 32)).find? (fun e => vs.all (fun v => !(fpToInt v e (-127) 127).2))).getD 31

/-- What a member's commit builds: the state, the frames left, the sequence, whether a copy was made and whether an element saturated. -/
structure PageWork where
  s : State
  pool : List Nat
  q : Seqn
  cow : Bool
  sat : Bool := false

/-- K or V values of `n` tokens of one head, which the program makes. -/
def kvDraw (n tokens headDim : Nat) : List U32 := (List.range (tokens * headDim)).map (fun i => Config.freeBits (n + i))

/-- Write the rows of slots `[t0, t1)` of a page, one head after another; `first` says that the page takes its shifts from them. The answer holds the state, the
shifts and whether an element saturated at a stored shift (09 R205). -/
def writeRows (s : State) (g : KvGeom) (pfn t0 t1 : Nat) (first : Bool) (shifts : List Int) : State × List Int × Bool :=
  let eb := elemBytes g.fmt
  (List.range g.kvHeads).foldl (fun (x : State × List Int × Bool) h =>
    let vs := kvDraw x.1.freeCtr (t1 - t0) g.headDim
    let s := { x.1 with freeCtr := x.1.freeCtr + vs.length }
    let e := if first then kvShift vs else shifts.getD h 0
    let q := vs.map (fun v => fpToInt v e (if first then -127 else -128) 127)
    let bs := if g.fmt = 0x01 then q.flatMap (fun v => intLe 1 v.1) else vs.flatMap (fun v => natLe 2 (toBf16 v))
    (tierWrite s 2 (pfn * 65536 + pageByte g.tokens g.headDim eb h t0 0) bs, x.2.1 ++ (if g.fmt = 0x01 then [e] else []),
      x.2.2 || (g.fmt == 0x01 && !first && q.any (·.2)))) (s, [], false)

/-- Put an entry into a sequence's lists. -/
def setPage (q : Seqn) (p : Page) : Seqn :=
  { q with pages := q.pages.filter (fun x => !(x.layer == p.layer && x.isV == p.isV && x.index == p.index)) ++ [p] }

/-- Commit the positions `[a, b)` in page `i` of one list. -/
def commitPage (a b : Nat) (x : PageWork) (l : (Nat × Bool) × Nat) : PageWork :=
  let g := x.q.geom
  let lo := l.2 * g.tokens
  let full := decide (lo + g.tokens ≤ b)
  let t0 := a - lo
  let t1 := min b (lo + g.tokens) - lo
  match x.q.pages.find? (fun p => p.layer == l.1.1 && p.isV == l.1.2 && p.index == l.2) with
  | some p =>
    if 1 < frameRefs x.s p.pfn then
      match x.pool with
      | f :: rest =>
        let w := writeRows (raiseFrame (copyRows (lowerFrame x.s p.pfn) g p.pfn f t0) f) g f t0 t1 false p.shifts
        { s := w.1, pool := rest, q := setPage x.q { p with pfn := f, valid := true, shared := false, fullRo := full }, cow := true, sat := x.sat || w.2.2 }
      | [] => x
    else
      let w := writeRows x.s g p.pfn t0 t1 false p.shifts
      { x with s := w.1, q := setPage x.q { p with shared := false, fullRo := full }, sat := x.sat || w.2.2 }
  | none =>
    match x.pool with
    | f :: rest =>
      let w := writeRows (raiseFrame x.s f) g f t0 t1 true []
      { x with s := w.1, pool := rest,
               q := setPage x.q { layer := l.1.1, isV := l.1.2, index := l.2, pfn := f, valid := true, fullRo := full, shifts := w.2.1 } }
    | [] => x

/-- Book the step's times on a command and its step count (11 R278). -/
def bookStep (s : State) (c : Cmd) (t : Step) : Cmd :=
  { c with meas := c.meas + (ctrlStamp s - t.release), est := c.est + t.est, steps := c.steps + 1 }

/-- Write the statistics records of new positions `[a, b)` of a command, which stand at `pos` onward in the sequence (09 R224): of a row with no key as R226 has it,
of a row with one key with σ = 1 (R225), else *m* and *σ* are the program's and *L* follows from them. -/
def commitStats (s : State) (c : Cmd) (m : Model) (a b pos : Nat) : State :=
  let d := descAt c.pkt.block 192
  if !d.present then s
  else ((positionElems d a b).filter (· % 4 == 0)).foldl (fun s i =>
    let x := unravel d.used i
    let row := x.getD 1 0 - a
    let keys := ((imageAttn m.image (x.getD 3 0) pos (pos + (b - a))).keys row).length
    let mx := Config.freeBits s.freeCtr
    let sg := if keys = 1 then 0x3F800000 else Config.freeBits (s.freeCtr + 1)
    let bs := if keys = 0 then natLe 4 0xFF800000 ++ zeroBytes 4 ++ natLe 4 0xFF800000 ++ zeroBytes 4
      else natLe 4 mx.toNat ++ natLe 4 sg.toNat ++ natLe 4 (flogsum (s.freeCtr + 2) (clog2 keys + 1) mx sg).toNat ++ zeroBytes 4
    writeRecord { s with freeCtr := s.freeCtr + 3 } d i bs) s

/-- A member's command goes on or completes after its step (11 R258). -/
def afterStep (s : State) (c : Cmd) (last : Bool) : State :=
  let s := progress (setCmd s c) c 0x0006 c.steps true
  if last then finishCmd s c else setCmd s { c with phase := .parked .step }

/-- Commit a member that is a sequence, with the frames left in the step's pool. -/
def commitSeq (t : Step) (m : Member) (x : State × List Nat) : State × List Nat :=
  let (s, pool) := x
  match cmdOf s m.cmd, seqOf s t.fn m.handle, modelOf s t.fn t.model with
  | some c, some q, some md =>
    let a := q.length
    let b := a + m.n
    let lists := seqRanges s q
    let bad := fun u : State => (memberBad u c m).or (if rangesPoisoned u lists then some .poison else none)
    let s := strikeInputs t c (fun u => (memberBad u c m).isSome) s
    let s := strike (captureBy s c 0x54) lists (fun u => rangesPoisoned u lists) s
    match bad s with
    | some e => (endBadInput s t c e, pool)
    | none =>
      let g := q.geom
      let pages := (List.range (ceilDiv b g.tokens - a / g.tokens)).map (a / g.tokens + ·)
      let w := (g.lists.flatMap (fun l => pages.map (fun i => (l, i)))).foldl (commitPage a b) { s := s, pool := pool, q := q, cow := false }
      let s := setSeq w.s { w.q with length := b, lastRun := ctrlStamp s }
      let s := (memberOuts c m).foldl (fun s o => if o.1.present then commitOut s c 0 o.1 o.2 else s) s
      let s := commitStats s c md c.cnt (c.cnt + m.n) a
      let c : Cmd := bookStep s (c.warns (emptyRowsOf md.image g.layers a b != 0) warnEmptyRow) t
      let c : Cmd := { c with cnt := c.cnt + m.n, misc := [max (c.misc.headD 0) (b2n w.sat), max (c.misc.getD 1 0) (b2n w.cow)] }
      let c := { c with res := appendResult c b }
      (afterStep s c (decide (blk c 4 4 ≤ c.cnt)), w.pool)
  | _, _, _ => x

/-- Commit a member that is a stream: its scan chunks have committed one by one (10 R248). -/
def commitStream (t : Step) (m : Member) (s : State) : State :=
  match cmdOf s m.cmd, streamOf s t.fn m.handle with
  | some c, some q =>
    let s := setStream s { q with lastRun := ctrlStamp s }
    afterStep s (bookStep s c t) (decide (blk c 4 4 ≤ c.cnt))
  | _, _ => s

/-- The gradient of a `TRAIN_STEP` goes to `GRAD`: added to what stands there with `ACCUMULATE`, else in its place (09 R230, R231, Table 9.7). -/
def commitGrad (s : State) (c : Cmd) (grads : List (List (List (List U32)))) (image : List Byte) : State :=
  let d := descAt c.pkt.block 192
  let draw := s.freeCtr
  let vals := (List.range d.count).map (fun i =>
    let g := Config.adapterGrad image grads draw i
    if bit (blk c 6 1) 0 then fadd (d.fp s i) g else g)
  let n := elemBytes d.format
  let enc := fun (v : U32) => if d.format = 0x04 then natLe 2 (toBf16 v) else natLe 4 v.toNat
  let o : OutStage := { cmd := c.id, out := 0, done := List.range d.count,
                        staged := vals.zipIdx.foldl (fun m x => memWriteN m (n * x.2) (enc x.1)) [] }
  let s := bumpFree (invalidate s d)
  let s := if d.form = 1 then writeBlocks' s d o.staged [] o.done
    else vals.zipIdx.foldl (fun s x => tierWrite s d.tier (d.off + d.elemOff x.2) (enc x.1)) s
  { s with work := { s.work with outs := s.work.outs.filter (fun x => x.cmd != c.id) ++ [o] } }

/-- Commit a `TRAIN_STEP`: the backward passes of the layers, and the gradient in the adapter's layout; the loss is the program's (09 R230, R231). -/
def commitTrain (t : Step) (c : Cmd) (m : Model) (s : State) : State :=
  let n := blk c 8 4
  let pre := (trainPrefix s c).map (fun q => (q, c.aux))
  let g := m.kv.getD { kvHeads := 0, headDim := 0, fmt := 0x04, layers := 0 }
  let per := layerDraws m.image g n
  let grads := (List.range g.layers).map (fun l => layerBackward s m.image g pre l n (s.freeCtr + l * per))
  let s := commitGrad { s with freeCtr := s.freeCtr + g.layers * per } c grads m.image
  let rows := emptyRowsOf m.image g.layers c.aux (c.aux + n)
  let r := natLe 4 n ++ natLe 4 (Config.freeBits s.freeCtr).toNat ++ natLe 2 (min rows 65535) ++ natLe 2 (openFlags (s.freeCtr + 1))
  afterStep { s with freeCtr := s.freeCtr + 2 } { (bookStep s c t).warns (rows != 0) warnEmptyRow with res := r } true

/-- Commit a `GRAPH_RUN` or `TRAIN_STEP`: the outputs that no tile command has committed, gradients and result (notes/assumptions/39.md). -/
def commitGraph (t : Step) (m : Member) (s : State) : State :=
  match cmdOf s m.cmd with
  | none => s
  | some c =>
    let s := strikeInputs t c (fun u => (memberBad u c m).isSome) s
    match memberBad s c m, modelOf s t.fn t.model with
    | some e, _ => endBadInput s t c e
    | none, some md =>
      if c.op = .trainStep then commitTrain t c md s
      else
        let s := (memberOuts c m).zipIdx.foldl (fun s o => commitOut s c o.2 o.1.1 o.1.2) s
        afterStep (bumpFree s) { bookStep s c t with res := graphResult c t.tileCmds (openFlags s.freeCtr) } true
    | none, none => s

/-- Every member's work has committed: no tile command runs, and each stream's scan chunks are all in (11 R258). -/
def stepDone (s : State) (t : Step) : Bool :=
  s.work.admitted.all (fun a => decide (a.cut.work ≠ .step t.fn t.model))
    && t.members.all (fun m => decide (m.kind ≠ 2) || (match cmdOf s m.cmd with | some c => c.cnt == c.first + m.n | none => true))

/-- Slots of a step's members stand free for the next one. -/
def clearChunks (s : State) (t : Step) : State :=
  { s with work := { s.work with slots := s.work.slots.map (fun x => if t.members.any (fun m => m.slot == x.num) then { x with chunk := 0 } else x) } }

/-- `STEP_COMMIT` (11 R258): members commit in the order of their slots; frames left over return. -/
def stepCommit (fn : Fn) (model : Nat) (s : State) : State :=
  match stepOf s fn model with
  | none => s
  | some t =>
    if s.fault.integrity || s.custody.quiescing || !stepDone s t || !allOn s (t.cops.map domCop ++ memDomsOf s fn) then s
    else
      let slow := slowdown (ctrlStamp s - t.release) t.est
      let members := sortOn (·.slot) t.members
      let pool := t.freed ++ t.members.flatMap (fun m => m.frames)
      let s := clearChunks { s with work := { s.work with steps := s.work.steps.filter (fun x => !(x.fn == fn && x.model == model)) } } t
      let s := match modelOf s fn model with | some m => setModel s { m with lastUse := ctrlStamp s } | none => s
      let x := (members.filter (fun m => decide (m.kind = 1))).foldl (fun x m => commitSeq t m x) (s, pool)
      let s := returnFrames x.1 x.2
      let s : State := members.foldl (fun s m => if m.kind = 2 then commitStream t m s else if m.kind = 3 then commitGraph t m s else s) s
      let s := countUp s 0x0007 (match fn with | .pf0 => 0 | .pf1 => 1) 1
      match fn with
      | .pf0 => traceEvent s domCtrl 0x10 0x04 0x10 0 0 0 (model + 2 ^ 32 * slow)
      | .pf1 => s

/- ### Page waits and slots that end (09 R219, 11 R254) -/

/-- A parked slot takes its whole reservation, or none of it. -/
def servePage (s : State) (x : Slot) : State :=
  match cmdOf s x.cmd, modelOf s x.fn x.model with
  | some c, some m =>
    let p := policyOf s x.fn x.model
    match takeFrames s { x with held := [] } 0 (slotFrames s m x c (slotPositions m p { x with pending := slotPending s x } c p.tokens) []) with
    | none => s
    | some (s, pfns, ev) =>
      let s := setSlot s { x with parked := false, held := pfns, evicted := false }
      let c := { c.warns ev warnEvicted with phase := .parked .step }
      progress (setCmd s c) c 0x0002 (slotHandle x) false
  | _, _ => s

/-- `PAGE_WAIT_END`: the parked slots of a tenant are tried by class and park stamp. -/
def pageWaitEnd (fn : Fn) (s : State) : State :=
  if !laurelRuns s then s
  else (sortOn (·.effCls) (sortOn (·.parkStamp) (s.work.slots.filter (fun x => x.fn == fn && x.parked)))).foldl servePage s

/-- Class, kind, handle and model of a command that waits for a slot. -/
def slotWant (s : State) (c : Cmd) : Option (Nat × Nat × Nat × Nat) :=
  match c.op with
  | .seqAppend => (seqOf s c.fn (ctxHandle c.pkt)).map (fun q => (q.cls, 1, q.handle, q.model))
  | .streamChunk => (streamOf s c.fn (ctxHandle c.pkt)).map (fun q => (q.cls, 2, q.handle, q.model))
  | _ => some (c.cls, 3, 0, blk c 2 2)

/-- `SLOT_GRANT`: the first waiting command, by class and start order, is given a free slot. -/
def slotGrant (fn : Fn) (s : State) : State :=
  let l := s.cmds.filter (fun c => c.fn == fn && c.phase == .parked .slot)
  match (sortOn (fun c => ((slotWant s c).map (·.1)).getD 4) (sortOn (·.startStamp) l)).head? with
  | none => s
  | some c => match slotWant s c with
    | some (cls, kind, h, model) => enterTable s c kind h cls model
    | none => s

end Sys2Proof.Machine
end

