-- ==== Sys2Proof/Machine/Power.lean ====
section
/-! DEFINITION. Power domains (15): busy and idle edges, timers, entries, returns, `DOMAIN_POLICY`, `POWER_LIMIT` and `POWER_STATS`; and
the disabling of a unit that holds work (11 R270). -/

namespace Sys2Proof.Machine

/- ### Dependants and refusals (15 R354, Table 15.3) -/

/-- EDGE and TILE domains of a coppice. -/
def unitDoms (c : Nat) : List Nat := domEdge c :: (List.range 10).map (fun t => domTile (10 * c + t))

/-- Tenants that own a group of a MEM domain, or hold ranks on its spare channel. -/
def memTenants (s : State) (d : Nat) : List Fn :=
  let sp := if d = domMema then s.dram.spare0 else s.dram.spare1
  [Fn.pf0, Fn.pf1].filter (fun fn => (groupsOf s fn).any (fun g => memOfGroup g == d) || sp.owner == some fn)

/-- Dependants of a Laurel domain. -/
def dependants (s : State) (d : Nat) : List Nat :=
  let cops := unitList (coppicePresent s)
  let l := if d = domCtrl then [domMema, domMemb, domDma, domNand, domObs] ++ cops.flatMap (fun c => domCop c :: unitDoms c)
    else if memDoms.contains d then
      (if d = domMema then [domDma, domNand, domObs] else [domDma])
        ++ ((memTenants s d).flatMap (coppicesOf s)).flatMap (fun c => domCop c :: unitDoms c)
    else if 0x18 ≤ d ∧ d ≤ 0x1B then unitDoms (d - 0x18) else []
  l.filter (domPresent s.fuse.part)

/-- A dependant counts as ON. -/
def countsOn (x : Dom) : Bool := match x.state with | .on | .returning => true | .entering => !x.stopped | _ => false

/-- Waits of commands that hold nothing uncommitted. -/
def idleWait : Wait → Bool
  | .gateOpen | .frames | .sem | .paramsTarget | .policyHold | .credit | .join | .injection | .domain => true
  | _ => false

/-- A command holds uncommitted or queued work; one that only waits for its `NOT_BEFORE` holds a time check. -/
def holdsWork (c : Cmd) : Bool :=
  match c.phase with | .parked w => !idleWait w | .running => true | .waiting => c.nb.isNone

/-- Work of a tenant that uses memory is in flight. -/
def memWork (s : State) (fn : Fn) : Bool :=
  s.work.steps.any (fun t => t.fn == fn) || s.work.models.any (fun m => m.fn == fn && m.loading)
    || s.work.streams.any (fun x => x.fn == fn && x.prefetch)
    || s.work.jobs.any (fun j => match cmdOf s j.id with | some c => c.fn == fn | none => false)

/-- `WORK`: uncommitted or queued work, or a transfer in flight, in the domain. Enabled trace or watch holds OBS (17 R385), and a
group membership LINK and DMA (16 R372). -/
def workIn (s : State) (d : Nat) (own : Option Nat) : Bool :=
  let adm := s.work.admitted
  if 0x20 ≤ d ∧ d ≤ 0x47 then adm.any (fun a => !a.edge && cutUnit s a == d - 0x20)
  else if 0x1C ≤ d ∧ d ≤ 0x1F then adm.any (fun a => a.edge && a.cut.coppice == d - 0x1C)
  else if 0x18 ≤ d ∧ d ≤ 0x1B then adm.any (fun a => a.cut.coppice == d - 0x18) || s.work.steps.any (fun t => t.coppices.toNat.testBit (d - 0x18))
  else if memDoms.contains d then (memTenants s d).any (memWork s)
  else if d = domLink ∨ d = domDma then s.group.state != 0
  else if d = domNand then s.work.models.any (·.loading) || s.work.streams.any (·.prefetch)
  else if d = domObs then (match s.obs.snapAt with | some t => decide (s.stb ≤ t) | none => false) || !s.obs.snapWaiting.isEmpty || decide (s.obs.trace0.events ≠ 0) || decide (s.obs.trace1.events ≠ 0)
    || !s.obs.watches.isEmpty
  else if d = domCtrl then s.cmds.any (fun c => holdsWork c && some c.id != own) || s.rings.any (fetchable s) || !s.work.steps.isEmpty
    || s.custody.quiescing || memWork s .pf0 || memWork s .pf1
  else false

/-- `TIME`: a pending time check of CTRL (02 R35). -/
def timeIn (s : State) (d : Nat) (own : Option Nat) : Bool :=
  d == domCtrl && (s.cmds.any (fun c => (c.dl.isSome || (c.phase == .waiting && c.nb.isSome)) && some c.id != own)
    || s.work.slots.any (fun x => x.ready && !x.parked && !x.resWait))

/-- `OBJECTS` that an entry to OFF would lose. -/
def objectsIn (s : State) (d : Nat) : Bool :=
  let held := fun c : Nat => s.work.steps.any (fun t => t.suspended && t.coppices.toNat.testBit c)
  if 0x18 ≤ d ∧ d ≤ 0x1B then s.store.allocs.any (fun a => a.tier == 1 && a.base / copSize == d - 0x18) || held (d - 0x18)
  else if 0x20 ≤ d ∧ d ≤ 0x47 then held ((d - 0x20) / 10) else false

/-- `MAINTENANCE` of a memory domain. -/
def maintenanceIn (s : State) (d : Nat) : Bool :=
  if memDoms.contains d then
    s.dram.migrations.any (fun m => memOfGroup (m.ch / 8) == d || (m.spare == 0) == (d == domMema))
      || (if d = domMema then s.dram.spare0.retraining else s.dram.spare1.retraining)
  else d == domNand && s.nand.any (·.programming)

/-- `CANDIDATE`: a candidate or a gate of the sensor is open. -/
def candidateIn (s : State) (d : Nat) : Bool :=
  if audioDoms.contains d then s.listen.candidate.isSome || wakeUnderWay s
  else if d = domIsp then s.cam0.gateOpen || s.cam1.gateOpen
  else if d = domCam 0 then s.cam0.gateOpen else d == domCam 1 && s.cam1.gateOpen

/-- Why an entry is refused: refuser and reason. A disable is never refused for work (15 R365). -/
def refusalOf (s : State) (d target : Nat) (own : Option Nat) (disable : Bool) : Option (Nat × Nat) :=
  match (dependants s d).find? (fun x => countsOn (domOf s x)) with
  | some x => some (x, 3)
  | none =>
    if !disable && ((domOf s d).busy || workIn s d own) then some (d, 1)
    else if !disable && timeIn s d own then some (d, 2)
    else if target = 2 ∧ objectsIn s d then some (d, 4)
    else if maintenanceIn s d then some (d, 5)
    else if candidateIn s d then some (d, 6)
    else if d = domCtrl ∧ target = 2 ∧ (s.sess0.number ≠ 0 ∨ s.sess1.number ≠ 0) then some (d, 7)
    else if 0x10 ≤ d ∧ s.dlink.trained = false then some (d, 8)
    else if d = domLink ∧ s.pcie.link ≠ .l12 ∧ s.pcie.link ≠ .l2 ∧ s.pcie.link ≠ .down then some (0xFE, 9)
    else none

/- ### Entries (15 R353 to R356) -/

/-- Start an entry, or refuse it; `own` is the command that asks for it. -/
def startEntry (s : State) (d target : Nat) (own : Option Nat) (disable : Bool) : State :=
  match refusalOf s d target own disable with
  | some r => refuseEntry s d r.1 r.2
  | none => traceDomain (updDom s d (fun x => { x with
      fromRet := x.state == .ret, state := .entering, target := target, stopped := false, entryAt := s.stb, expiredAt := none, byHost := own,
      heldOff := x.heldOff || disable })) d

/-- The idle time that takes a domain to its next state: the target and the tick of expiry. -/
def timerOf (x : Dom) : Option (Nat × Nat) :=
  if x.state = .on ∧ x.retIdle ≠ 0 ∧ x.retTimer then some (1, x.idleAt + x.retIdle)
  else if (x.state = .on ∨ x.state = .ret) ∧ x.offIdle ≠ 0 ∧ x.offTimer then some (2, x.idleAt + x.offIdle)
  else none

/-- `IDLE_TIMER_EXPIRY`: a ceiling stops the entry, and nothing is counted. -/
def idleTimerExpiry (d : Nat) (s : State) : State :=
  let x := domOf s d
  match (if gorseRuns s && domPresent s.fuse.part d && !x.busy && x.expiredAt.isNone then timerOf x else none) with
  | some t => if t.2 ≤ s.stb ∧ t.1 ≤ x.ceiling then updDom s d (fun x => { x with expiredAt := some t.2 }) else s
  | none => s

/-- `ENTRY_START`, 8 tk after the expiry. Over an untrained link a Laurel domain starts none and counts the refusal. -/
def entryStart (d : Nat) (s : State) : State :=
  let x := domOf s d
  match x.expiredAt, timerOf x with
  | some e, some t =>
    if decide (s.stb < e + 8) || !gorseRuns s || s.fault.haltGorse then s
    else if 0x10 ≤ d ∧ s.dlink.trained = false then refuseEntry s d d 8
    else startEntry s d t.1 none false
  | _, _ => s

/-- Refuser and reason of a demand's kind (15 R356). -/
def demandOf : Demand → Nat × Nat
  | .work d => (d, 1)
  | .time d => (d, 2)
  | .dependant d => (d, 3)
  | .cascade => (0, 6)
  | .host => (0xFE, 9)

/-- `BUSY_EDGE`: a stamp at or before the expiry cancels it; an entry before its clock-stop point aborts. -/
def busyEdge (d stamp : Nat) (k : Demand) (s : State) : State :=
  if !gorseRuns s || !domPresent s.fuse.part d || decide (s.stb < stamp) || (decide (0x10 ≤ d) && !s.dlink.trained) then s
  else
    let s := updDom s d (fun x => { x with
      busy := true, expiredAt := match x.expiredAt with | some e => if stamp ≤ e then none else some e | none => none })
    demandDom s d (demandOf k).1 (demandOf k).2

/-- `IDLE_EDGE`: the timers count from its stamp. -/
def idleEdge (d stamp : Nat) (s : State) : State :=
  if !gorseRuns s || !domPresent s.fuse.part d || decide (s.stb < stamp) || (decide (0x10 ≤ d) && !s.dlink.trained) then s
  else updDom s d (fun x => { x with busy := false, idleAt := stamp, expiredAt := none })

/-- `CLOCK_STOP_POINT`, 8 tk after the start: the entry cannot abort any more, and CTRL's lease is relinquished by now. -/
def clockStopPoint (d : Nat) (s : State) : State :=
  let x := domOf s d
  if x.state ≠ .entering ∨ x.stopped = true ∨ s.stb < x.entryAt + 8 then s
  else
    let s := updDom s d (fun x => { x with stopped := true, frozenAt := s.stb })
    if d = domCtrl ∧ s.custody.state = .granted then relinquishLease s else s

/-- CTRL in OFF: Laurel is down, and its admin rings with it (01 R24). -/
def ctrlOff (s : State) : State :=
  let s := disableAdmin (disableAdmin (forgetAll s (s.cmds.map (·.id))) .pf0) .pf1
  { s with boot := { s.boot with laurelReleased := false, orderly := true }, custody := { s.custody with grantAsked := false } }

/-- What an entry does to a domain's contents. -/
def entered (s : State) (d target : Nat) : State :=
  if memDoms.contains d then memSelfRefresh s d
  else if target ≠ 2 then s
  else if d = domCtrl then ctrlOff s else loseDomain s d

/-- The result of a `DOMAIN_POLICY` (15 Table 15.6). -/
def policyResult (s : State) (d reason refuser : Nat) : List Byte :=
  let x := domOf s d
  let st := match x.state with | .ret => 1 | .off => 2 | .returning => x.target | _ => 0
  natLe 1 st ++ natLe 1 reason ++ natLe 1 refuser ++ natLe 1 x.ceiling ++ natLe 4 (if x.retTimer then x.retIdle else 2 ^ 32 - 1)
    ++ natLe 4 (if x.offTimer then x.offIdle else 2 ^ 32 - 1)

def policyDone (s : State) (c : Cmd) (reason refuser : Nat) : State := complete s c .ok (policyResult s (arg c 24 1) reason refuser)

/-- `ENTRY_COMPLETE`. A demand that came after the clock-stop point starts the return. -/
def entryComplete (d : Nat) (s : State) : State :=
  let x := domOf s d
  if x.state ≠ .entering ∨ x.stopped = false then s
  else
    let s := traceDomain (updDom s d (fun x =>
      { bookTime s x with state := if x.target = 2 then .off else .ret, entries := x.entries + 1, stopped := false, fromRet := false,
                          byHost := none })) d
    let s := entered s d x.target
    let s := match x.byHost.bind (cmdOf s) with
      | some c => if c.aux = 2 ∧ d ≠ domCtrl then s else policyDone s c 0 0xFF
      | none => s
    pumpReturns s

/- ### Returns (15 R358, 01 R14 to R16, 02 R36) -/

/-- The region of G0 that holds the retained firmware and the staged images (12 R281). -/
def retainedLine (l : Nat) : Bool := inside (l * 64) 64 (reserveBase 0) (96 * mib)

/-- The retained firmware fails its check: its digest is not the recorded one, or a line of its region is poisoned. It is loaded from NOR
within the longer delay (01 R16, 12 R297). -/
def badRetained (s : State) (x : Dom) : Bool :=
  x.id == domCtrl && x.target == 2 && s.power.fwRetained && (decide (s.power.fwKept ≠ s.power.fwDigest) || s.store.poison.any retainedLine)

/-- `LAUREL_CP` is loaded from NOR where DRAM holds no image that passed its check (01 R16). -/
def loadFromNor (s : State) : State :=
  if s.power.fwRetained then s
  else match s.fw.nor.find? (fun f => f.component == 3) with
    | some f => { s with fw := { s.fw with running := s.fw.running.filter (fun g => g.component != 3) ++ [f] } }
    | none => s

/-- What a domain's return does beyond its state. -/
def returned (s : State) (d target : Nat) : State :=
  if d = domCtrl then
    if target = 1 then { s with custody := { s.custody with grantAsked := true } } else loadFromNor s
  else if memDoms.contains d then
    let gs := (groupsOfMem d).filter (fun g => s.power.wantGroups.toNat.testBit g)
    let m := BitVec.ofNat 4 (maskOf gs)
    gs.foldl resumeRetire { s with power := { s.power with selfRefresh := s.power.selfRefresh &&& ~~~m, wantGroups := s.power.wantGroups &&& ~~~m } }
  else if d = domObs then
    if target = 2 then { s with obs := { s.obs with counters := s.obs.saved ++ s.obs.counters, saved := [] } } else s
  else if d = domCam 0 then camReturned s 0 (target == 2)
  else if d = domCam 1 then camReturned s 1 (target == 2)
  else if d = domLink then { s with pcie := { s.pcie with detect := s.pcie.detect || s.pins.perstN } }
  else if d = 0x04 then (if audioWant s d = .on then s else cascadeState s d (audioWant s d))
  else s

/-- `RETURN_COMPLETE`: the mirror loads the coarse value, and the next class starts. -/
def returnComplete (d : Nat) (s : State) : State :=
  let x := domOf s d
  if x.state ≠ .returning ∨ !gorseRuns s then s
  else if badRetained s x then
    updDom (raise { s with power := { s.power with fwRetained := false }
                           store := { s.store with poison := s.store.poison.filter (fun l => !retainedLine l) } } (capture s 0x27 0 0)) d (fun x => { x with entryAt := s.stb })
  else
    let coarse := x.entryAt + returnDelay s x
    let s := traceDomain (updDom s d (fun x => { bookTime s x with state := .on, target := 0, idleAt := s.stb, expiredAt := none })) d
    let s := if 0x10 ≤ d then setMirror s { dom := d, offset := (coarse : Int) - s.stb, uncertain := true } else s
    pumpReturns (returned (if d = domListen && s.listen.stage1 then startLookBack s else s) d x.target)

/- ### Disabling a unit that holds work (11 R270) -/

/-- An admitted cut is on the disabled unit. -/
def onUnit (s : State) (d : Nat) (a : Admitted) : Bool :=
  if 0x18 ≤ d ∧ d ≤ 0x1B then a.cut.coppice == d - 0x18
  else if 0x1C ≤ d ∧ d ≤ 0x1F then a.edge && a.cut.coppice == d - 0x1C
  else !a.edge && cutUnit s a == d - 0x20

/-- A command that names no unit that is not held OFF. -/
def noUnitLeft (s : State) (c : Cmd) : Bool :=
  match c.op with
  | .matmul | .conv2d | .pool2d | .attention =>
    c.phase == .parked .tiles && !someUnit s (cmdCoppices c) (blk c 5 1) (match jobOf s c.id with | some j => j.edge | none => false)
  | .graphRun | .trainStep =>
    let own := if c.op = .trainStep then blk c 7 1 else blk c 4 1
    c.phase != .waiting && own != 0 && !(maskList own).any (fun k => usable s (domCop k))
  | _ => false

/-- Discard what is admitted on the unit, with the steps that had it, and cancel the commands concerned. -/
def disableUnit (s : State) (d : Nat) : State :=
  let hit := s.work.admitted.filter (onUnit s d)
  let ids := hit.flatMap (fun a => workCmds s a.cut.work)
  let steps := s.work.steps.filter (fun t => hit.any (fun a => decide (a.cut.work = .step t.fn t.model)))
  let s : State := hit.foldl (fun s a => discardTrace s a 3) s
  let s : State := steps.foldl discardStep { s with work := { s.work with admitted := s.work.admitted.filter (fun a => !hit.contains a) } }
  let s := endAll s ids .cancelled
  endAll s ((s.cmds.filter (noUnitLeft s)).map (·.id)) .cancelled

/- ### DOMAIN_POLICY (15 R365, R366) -/

/-- A domain identifier of Table 15.1. -/
def domainId (d : Nat) : Bool := decide (d ≤ 0x08) || (decide (0x10 ≤ d) && decide (d ≤ 0x16)) || (decide (0x18 ≤ d) && decide (d ≤ 0x47))

/-- The domain, or a group of the retention set, is absent in the part (00 R3). -/
def policyUnitAbsent (s : State) (c : Cmd) : Bool :=
  if arg c 25 1 = 3 then (List.range 4).any (fun g => !groupPresent s g && decide (bits (arg c 40 8) (16 * g + 15) (16 * g) ≠ 0))
  else domainId (arg c 24 1) && !domPresent s.fuse.part (arg c 24 1)

/-- The default timers of Table 15.1, and whether a transition has one. -/
def defaultDom (d : Nat) : Dom := (resetDoms.find? (fun x => x.id == d)).getD { id := d }

/-- The timer a field asks for. -/
def askedTimer (v dflt : Nat) : Nat := if v = 2 ^ 32 - 1 then dflt else v

/-- Static conditions of `DOMAIN_POLICY`. -/
def paramsDomainPolicy (c : Cmd) : Bool :=
  let d := arg c 24 1
  let a := arg c 25 1
  let x := defaultDom d
  let ret := askedTimer (arg c 28 4) x.retIdle
  let off := askedTimer (arg c 32 4) x.offIdle
  decide (a ≤ 4) && argZero c 36 39 && restZero c 48 && (a == 3 || (domainId d && d != 0))
    && (a != 0 || (decide (arg c 26 1 ≤ 2) && !(d == domRoot && arg c 26 1 == 2) && (x.retTimer || arg c 28 4 == 2 ^ 32 - 1)
                    && (x.offTimer || arg c 32 4 == 2 ^ 32 - 1) && (off == 0 || !x.retTimer || !x.offTimer || decide (ret ≤ off))))
    && (a != 1 || (decide (1 ≤ arg c 27 1) && decide (arg c 27 1 ≤ 2) && !(d == domRoot && arg c 27 1 == 2)))

/-- The command names a unit of tenant 1 while its session is open. -/
def namesTenant1 (s : State) (c : Cmd) : Bool :=
  decide (s.sess1.number ≠ 0) &&
    (if arg c 25 1 = 3 then (List.range 4).any (fun g => t1Group s g && decide (bits (arg c 40 8) (16 * g + 15) (16 * g) ≠ 0))
     else t1Domain s (arg c 24 1))

/-- COP, EDGE and TILE domains, whose OFF is a disable. -/
def isUnit (d : Nat) : Bool := decide (0x18 ≤ d)

/-- Domains of a class of the power-down (15 R365), with its target. -/
def downClass (s : State) (i : Nat) : List Nat × Nat :=
  let all := (s.power.doms.map (·.id)).filter (domPresent s.fuse.part)
  let live := fun (l : List Nat) (t : Nat) => l.filter (fun d => let x := domOf s d
    !x.heldOff && (x.state == .on || (t == 2 && x.state == .ret) || x.state == .returning || x.state == .entering))
  match i with
  | 0 => (live (all.filter (0x1C ≤ ·)) 2, 2)
  | 1 => (live (all.filter (fun d => (decide (0x18 ≤ d) && decide (d ≤ 0x1B)) || [0x12, 0x15, 0x16].contains d)) 2, 2)
  | _ => (live (all.filter memDoms.contains) 1, 1)

/-- Start the entries of a class, up to the first refusal. -/
def downEntries (c : Cmd) (target : Nat) : List Nat → State → State × Option (Nat × Nat)
  | [], s => (s, none)
  | d :: ds, s =>
    match refusalOf s d target (some c.id) false with
    | some r => (refuseEntry s d r.1 r.2, some r)
    | none => downEntries c target ds (startEntry s d target (some c.id) false)

/-- One more class of the power-down; `cnt` counts the classes done. After the last, CTRL's own entry. -/
def powerDown (c : Cmd) (s : State) : Nat → State
  | 0 =>
    match refusalOf s domCtrl 2 (some c.id) false with
    | some r => policyDone (refuseEntry s domCtrl r.1 r.2) c r.2 r.1
    | none => setCmd (startEntry s domCtrl 2 (some c.id) false) { c with phase := .parked .domain, aux := 2, cnt := 3 }
  | k + 1 =>
    let cl := downClass s (2 - k)
    let r := downEntries c cl.2 cl.1 s
    match r.2 with
    | some e => policyDone r.1 c e.2 e.1
    | none => if cl.1.isEmpty then powerDown c s k else setCmd r.1 { c with phase := .parked .domain, aux := 2, cnt := 2 - k }

/-- `ACTION` 1: one entry attempt. -/
def enterNow (c : Cmd) (s : State) : State :=
  let d := arg c 24 1
  let x := domOf s d
  let t := arg c 27 1
  let disable := isUnit d && t == 2
  if x.state = .entering ∨ x.state = .returning then setCmd s { c with phase := .parked .domain, aux := 1 }
  else if x.state = .off ∨ (x.state = .ret ∧ t = 1) then
    policyDone (if disable then disableUnit (updDom s d (fun x => { x with heldOff := true, demand := false })) d else s) c 0 0xFF
  else if x.ceiling < t then policyDone (refuseEntry s d 0xFE 0x0A) c 0x0A 0xFE
  else if d = domCtrl ∧ t = 2 then powerDown c s 3
  else match refusalOf s d t (some c.id) disable with
    | some r => policyDone (refuseEntry s d r.1 r.2) c r.2 r.1
    | none =>
      let s := startEntry s d t (some c.id) disable
      let s := if disable then disableUnit s d else s
      setCmd s { c with phase := .parked .domain, aux := 3 }

/-- `ACTION` 2: release a hold and return to ON, with the coppice that a unit needs. The domain of a tile that is not mapped stays OFF (01 R11). -/
def returnNow (c : Cmd) (s : State) : State :=
  let d := arg c 24 1
  let cop := if 0x1C ≤ d ∧ d ≤ 0x1F then [domCop (d - 0x1C)] else if 0x20 ≤ d then [domCop ((d - 0x20) / 10)] else []
  if privForced s d then complete s c .privacyBlock
  else
    let s := updDom s d (fun x => { x with heldOff := false })
    let s := (cop ++ [d]).foldl (fun s d => demandDom s d 0xFE 0x09) s
    if domOn s d || tileUnmapped s d then policyDone s c 0 0xFF else setCmd s { c with phase := .parked .domain, aux := 4 }

/-- `DOMAIN_POLICY`. A command that names an audio domain waits for its frame boundary (03 R56). -/
def runDomainPolicy (c : Cmd) (s : State) : State :=
  let d := arg c 24 1
  let a := arg c 25 1
  if namesTenant1 s c then complete s c .badParam
  else if a ≠ 3 ∧ audioDoms.contains d ∧ c.aux = 0 then park s c .policyHold
  else match a with
    | 0 =>
      let x := defaultDom d
      let s := updDom s d (fun y => { y with ceiling := arg c 26 1, retIdle := askedTimer (arg c 28 4) x.retIdle,
                                             offIdle := askedTimer (arg c 32 4) x.offIdle, expiredAt := none })
      policyDone s c 0 0xFF
    | 1 => enterNow c s
    | 2 => returnNow c s
    | 3 => complete { s with power := { s.power with retain := BitVec.ofNat 64 (arg c 40 8) } } c .ok ([0, 0, 0xFF] : List Byte)
    | _ => policyDone s c 0 0xFF

/-- A parked `DOMAIN_POLICY`: 1 waits for a transition, 2 powers Laurel down, 3 waits for its own entry, 4 for a return. -/
def resumeDomainPolicy (c : Cmd) (s : State) : Option State :=
  let x := domOf s (arg c 24 1)
  let still := x.state == .entering || x.state == .returning
  match c.aux with
  | 1 => if still then none else some (enterNow c s)
  | 2 =>
    if s.power.doms.any (fun y => y.byHost == some c.id) then none
    else if c.cnt = 3 then some (policyDone s c 0 0xFF)
    else if (downClass s c.cnt).1.isEmpty then some (powerDown c s (2 - c.cnt)) else some (policyDone s c 0 0xFF)
  | 3 => if x.byHost == some c.id then none else some (policyDone s c 0 0xFF)
  | _ => if x.state = .on then some (policyDone s c 0 0xFF) else none

/- ### POWER_LIMIT and POWER_STATS (15 R361, R367, R368) -/

def paramsPowerLimit (c : Cmd) : Bool :=
  let n := arg c 24 4
  (n == 0 || (decide (8000 ≤ n) && decide (n ≤ 50000))) && restZero c 28

/-- A new limit waits for the next window of 30,720 tk. -/
def startWindow (s : State) : State :=
  match s.power.nextLimit with
  | some n => if s.stb % frameTicks = 0 then { s with power := { s.power with limit := n, nextLimit := none } } else s
  | none => s

def runPowerLimit (c : Cmd) (s : State) : State :=
  let n := arg c 24 4
  let base := Config.freeNat s.freeCtr
  let s := if n = 0 then s else { s with power := { s.power with nextLimit := some n } }
  let lim := s.power.nextLimit.getD s.power.limit
  complete (bumpFree s) c .ok (natLe 4 lim ++ natLe 4 (if s.power.cap then min lim 8000 else lim) ++ natLe 4 base)

def paramsPowerStats (c : Cmd) : Bool :=
  decide (arg c 24 1 < 2) && argZero c 25 31 && restZero c 44 && (c.fn == .pf0 || arg c 24 1 == 0)

/-- Domains of which a tenant reads the record. -/
def statDoms (s : State) (fn : Fn) : List Dom :=
  s.power.doms.filter (fun x => domPresent s.fuse.part x.id && (fn == .pf0 || t1Domain s x.id))

/-- One domain record (15 Table 15.10). -/
def domBytes (s : State) (x : Dom) : List Byte :=
  let y := bookTime s x
  natLe 1 x.id ++ natLe 1 (domCode x) ++ natLe 1 x.ceiling ++ natLe 1 x.forced ++ natLe 4 x.entries ++ natLe 8 y.tOn ++ natLe 8 y.tRet
    ++ natLe 8 y.tOff ++ natLe 4 x.refused ++ natLe 4 x.aborted
    ++ (List.range 4).flatMap (fun i => match x.refusers[i]? with | some e => natLe 1 e.1 ++ natLe 1 e.2.1 ++ natLe 2 e.2.2 | none => zeroBytes 4)
    ++ natLe 8 x.lastRefusal

/-- The header (15 Table 15.9): the energies and the average are the monitors' readings, which are free values. -/
def powerHeader (s : State) (fn : Fn) (n : Nat) : List Byte :=
  let f := fun (i : Nat) => Config.freeNat (s.freeCtr + i)
  let pf0 := fun (v : Nat) => if fn = .pf0 then v else 0
  natLe 2 1 ++ natLe 2 n ++ zeroBytes 4 ++ natLe 8 s.stb ++ natLe 8 (pf0 (f 0)) ++ natLe 8 (pf0 (f 1)) ++ natLe 8 (f 2) ++ natLe 4 s.power.limit
    ++ natLe 4 (effLimit s) ++ natLe 4 (pf0 (f 3)) ++ natLe 1 (b2n s.power.cap + 2 * b2n (s.power.deferrals.any (fun w => w + 1 == s.stb / frameTicks))) ++ zeroBytes 11

/-- Zero the refusal counts of every domain. -/
def clearRefusals (s : State) : State :=
  { s with power := { s.power with doms := s.power.doms.map (fun x => { x with refused := 0, aborted := 0, refusers := [] }) } }

def runPowerStats (c : Cmd) (s : State) : State :=
  let l := statDoms s c.fn
  let n := 64 + 64 * l.length
  if arg c 40 4 < destNeed c n then complete s c .badParam
  else
    let s := writeDest s c (arg c 32 8) (powerHeader s c.fn l.length ++ l.flatMap (domBytes s))
    let s := if arg c 24 1 = 1 then clearRefusals s else s
    complete { s with freeCtr := s.freeCtr + 4 } c .ok (natLe 2 l.length ++ zeroBytes 2 ++ natLe 4 n)

end Sys2Proof.Machine
end

