-- ==== Sys2Proof/Machine/Trust.lean ====
section
/-! DEFINITION. Tenants, identity and firmware (13): the partition, provisioning, `ATTEST`, `KEY_EXCHANGE` and the firmware commands. -/

namespace Sys2Proof.Machine

/- ### The partition (13 R306, R307) -/

/-- The written value is all zero or meets every condition of R306. -/
def partitionOk (s : State) (v : Nat) : Bool :=
  let share := fun (m : Nat) (present : Nat → Bool) =>
    decide (m ≠ 0) && (maskList m).all present && (unitList present).any (fun u => !m.testBit u)
  v == 0 || (share (bits v 3 0) (coppicePresent s) && share (bits v 7 4) (groupPresent s)
    && share (bits v 11 8) (fun n => nandPresent s n && (nandCh s n).inService) && !bit v 4 && decide (1 ≤ bits v 15 12) && decide (bits v 15 12 ≤ 14))

/-- Units whose tenant a value changes, placed as in `PARTITION`. -/
def movedUnits (s : State) (v : Nat) : Nat := (s.regs.partition.toNat ^^^ v) % 4096

/-- A write of `PARTITION` (13 R306, R307). The moved units are cleared before either admin ring can be enabled. -/
def writePartition (s : State) (fn : Fn) (v : U32) : State :=
  let n := v.toNat % 65536
  if fn = .pf1 || !adminsOff s || !s.boot.capsValid || !partitionOk s n then s
  else
    let m := movedUnits s n
    let s : State := (maskList (m % 16)).foldl (fun s c => disableUnit s (domCop c)) s
    { s with regs := { s.regs with partition := BitVec.ofNat 32 n, clearing := s.regs.clearing ||| BitVec.ofNat 32 m } }

/-- Drop the residency and the pins of models that lie in a range of a tier. -/
def dropResidents (s : State) (tier lo len : Nat) : State :=
  let hit := fun (a : Alloc) => a.tier == tier && overlap a.base a.size lo len
  let gone := s.store.allocs.filter hit
  let mark := fun (m : Model) =>
    if gone.any (fun a => a.fn == m.fn && a.owner == m.id && a.obj == 20) then { m with resident := none, wasEvicted := true, loading := false }
    else if gone.any (fun a => a.fn == m.fn && a.owner == m.id && a.obj == 21) then { m with pin1 := false } else m
  { s with work := { s.work with models := s.work.models.map mark }
           store := { s.store with allocs := s.store.allocs.filter (fun a => !hit a) } }

/-- Zero a moved coppice's tile buffers and coppice buffer. -/
def clearCoppice (s : State) (c : Nat) : State :=
  let s := dropResidents s 1 (c * copSize) copSize
  { s with store := { s.store with t1 := memClear s.store.t1 (c * copSize) copSize
                                   poison1 := s.store.poison1.filter (fun l => l * 64 / copSize != c) } }

/-- Zero-fill a moved channel group apart from its device reserve. -/
def clearGroup (s : State) (g : Nat) : State :=
  let lo := g * groupSize
  let len := reserveBase g - lo
  let s := dropResidents s 2 lo len
  { s with store := { s.store with dram := memClear s.store.dram lo len
                                   poison := s.store.poison.filter (fun l => !overlap (l * 64) 64 lo len) } }

/-- Discard the mapping of a NAND channel: every unit reads as zero, and what is installed on it is deleted. -/
def clearNand (s : State) (n : Nat) : State :=
  let lo := n * nandSize
  let gone := s.store.allocs.filter (fun a => a.tier == 3 && overlap a.base a.size lo nandSize)
  let keep := fun (m : Model) => !gone.any (fun a => a.fn == m.fn && a.owner == m.id && a.obj == 22)
  { s with
    work := { s.work with models := s.work.models.filter keep }
    store := { s.store with
      nand := memClear s.store.nand lo nandSize
      poisonUnits := s.store.poisonUnits.filter (fun u => !overlap (u * 4096) 4096 lo nandSize)
      allocs := s.store.allocs.filter (fun a => !(a.tier == 3 && overlap a.base a.size lo nandSize)
        && !((a.obj == 20 || a.obj == 21) && gone.any (fun b => b.fn == a.fn && b.owner == a.owner && b.obj == 22))) } }

/-- `PARTITION_CLEAR_DONE` (13 R307). -/
def partitionClearDone (s : State) : State :=
  let m := s.regs.clearing.toNat
  if m = 0 ∨ s.boot.inReset = true then s
  else
    let s : State := (maskList (m % 16)).foldl clearCoppice s
    let s : State := (maskList (bits m 7 4)).foldl clearGroup s
    let s : State := (maskList (bits m 11 8)).foldl clearNand s
    { s with regs := { s.regs with clearing := 0 } }

/-- Tenant 1's installed models, tier-3 allocations and tier-3 states go with its key (13 R318). -/
def discardTenant1 (s : State) : State := (unitList (t1Nand s)).foldl clearNand s

/- ### Provisioning (13 R310, R313, Table 13.6) -/

/-- The I3C target answers: Gorse is out of reset (19 Table 19.2). -/
def sidebandUp (s : State) : Bool := !s.boot.inReset && decide (1 ≤ s.boot.stage)

/-- End a provisioning operation with a result; `PROV_DATA` is cleared. -/
def provEnd (s : State) (r : Nat) : State :=
  { s with root := { s.root with provBusy := false, provResult := r, provData := [] } }

/-- Start an operation of `PROV_CTRL`, or refuse it with the first condition that fails. -/
def provision (op : Nat) (s : State) : State :=
  if !sidebandUp s || s.root.provBusy then s
  else if !s.pins.vpp then provEnd s 2
  else if s.regs.admin0.enable then provEnd s 4
  else if (op = 3 ∧ s.fuse.dbgOff = true) ∨ (op ≠ 3 ∧ s.fuse.oemLock = true) ∨ (op = 1 ∧ s.fuse.oemKeySet = true) then provEnd s 1
  else { s with root := { s.root with provOp := op, provBusy := true } }

/-- The fuses an operation blows. -/
def blow (s : State) : Fuses :=
  match s.root.provOp with
  | 1 => { s.fuse with oemKey := BitVec.ofNat 256 (leNat s.root.provData), oemKeySet := true }
  | 2 => { s.fuse with oemLock := true }
  | _ => { s.fuse with dbgOff := true }

/-- Observation without debug (13 R329). -/
def dropDebug (s : State) : State :=
  { s with obs := { s.obs with bins := [], overflow := none, watches := [], trace0 := {}, trace1 := {} }, pins := { s.pins with traceClk := false } }

/-- `PROVISIONING_DONE`: a blow counts once its read-back is right. -/
def provisioningDone (ok : Bool) (s : State) : State :=
  if !s.root.provBusy || s.boot.inReset then s
  else if !ok then provEnd s 3
  else
    let t := provEnd { s with fuse := blow s } 0
    if s.root.provOp = 3 then dropDebug t else t

/- ### ATTEST (13 R310, R314, R315) -/

/-- The marked fuses of 13 Table 13.4. -/
def fuseBytes (s : State) : List Byte :=
  let f := s.fuse
  natLe 8 f.gorseDieId.toNat ++ natLe 8 f.laurelDieId.toNat ++ natLe 4 (Config.partConfig (partBcd f.part)) ++ natLe 1 (b2n f.oemKeySet)
    ++ natLe 1 (b2n f.oemLock) ++ natLe 1 (b2n f.dbgOff) ++ natLe 1 f.fwKeyRevoke.toNat ++ natLe 8 (2 ^ f.antiRollback - 1)

/-- Bytes of a digest. -/
def digestBytes (d : U256) : List Byte := natLe 32 d.toNat
def sha3Bytes (bs : List Byte) : List Byte := digestBytes (Config.sha3 bs)

/-- Installed models of a tenant in ascending identifier order. -/
def installed (s : State) (fn : Fn) : List Model := sortOn (·.id) (s.work.models.filter (·.fn == fn))

/-- Model entry (13 Table 13.9). -/
def modelEntry (m : Model) : List Byte :=
  natLe 2 m.id ++ natLe 1 (b2n m.resident.isSome + 2 * b2n (pinned m)) ++ zeroBytes 5 ++ digestBytes m.imageDigest ++ digestBytes m.weightsDigest

/-- The running image of a component. -/
def runningOf (s : State) (i : Nat) : FwImage := (s.fw.running.find? (fun f => f.component == i)).getD { component := i, version := 0 }

/-- Components in the order of 13 Table 13.12. -/
def components : List Nat := [1, 2, 3, 4, 5, 6]

/-- Security version (13 Table 13.4). -/
def securityVersion (s : State) : Nat := s.fuse.antiRollback

/-- The report before its signature (13 Table 13.8). -/
def reportBody (s : State) (fn : Fn) (nonce : List Byte) (listed : List Model) (more : Bool) : List Byte :=
  let ms := installed s fn
  ascii "WYAR" ++ natLe 2 1 ++ natLe 1 (match fn with | .pf0 => 0 | .pf1 => 1)
    ++ natLe 1 (b2n more + 2 * b2n s.fuse.dbgOff + 4 * b2n s.fuse.oemKeySet + 8 * b2n s.fuse.oemLock + 16 * b2n s.fw.svnPending)
    ++ natLe 4 (4052 + 72 * listed.length) ++ natLe 2 listed.length ++ zeroBytes 2 ++ natLe 2 (partBcd s.fuse.part) ++ [0xB0, 0]
    ++ natLe 8 s.fuse.gorseDieId.toNat ++ natLe 8 s.fuse.laurelDieId.toNat ++ sha3Bytes (fuseBytes s) ++ natLe 4 (securityVersion s)
    ++ natLe 4 s.fw.romVersion.toNat ++ natLe 4 s.regs.partition.toNat ++ natLe 2 s.regs.ringSplit ++ natLe 2 (sessionOf s fn)
    ++ natLe 4 s.custody.epoch.toNat ++ natLe 8 (ctrlStamp s) ++ nonce
    ++ components.flatMap (fun i => digestBytes (runningOf s i).digest) ++ components.flatMap (fun i => natLe 4 (runningOf s i).version.toNat)
    ++ components.flatMap (fun i => natLe 1 (runningOf s i).svn) ++ zeroBytes 2 ++ sha3Bytes (ms.flatMap modelEntry) ++ natLe 4 ms.length
    ++ natLe 4 s.root.kemId ++ (if s.fw.certOk then sha3Bytes Config.certificates.2 else zeroBytes 32) ++ zeroBytes 24
    ++ Config.kemEk s.root.kemPair ++ listed.flatMap modelEntry

/-- Contexts of signatures (13 R311). -/
def attestLabel : List Byte := ascii "WYRUN ATTEST"
def firmwareLabel : List Byte := ascii "WYRUN FIRMWARE"

/-- The seed of the identity key (13 R311). -/
def identityKey (s : State) : U256 := Config.kmac256 s.fuse.identitySeed [] (ascii "WYRUN IDENTITY")

/-- Static conditions of `ATTEST` (13 Table 13.7). -/
def paramsAttest (c : Cmd) : Bool := decide (blk c 44 1 ≤ 1) && decide (blk c 45 1 ≤ 1) && blkZero c 46 63

/-- `ATTEST` (13 R314, R316). With an unreadable certificate area there is no chain to append. -/
def runAttest (c : Cmd) (s : State) : State :=
  let ms := installed s c.fn
  let listed := if blk c 44 1 = 1 then ms.take 256 else []
  let body := reportBody s c.fn (bytesAt c.pkt.block 0 32) listed (decide (blk c 44 1 = 1) && decide (256 < ms.length))
  let report := body ++ Config.mldsaSign (identityKey s) body attestLabel s.freeCtr
  let chain := if blk c 45 1 = 1 ∧ s.fw.certOk then Config.certificates.1 ++ Config.certificates.2 else []
  let out := 4052 + 72 * listed.length + (if blk c 45 1 = 1 ∧ s.fw.certOk then 2 * 3828 else 0)
  if blk c 40 4 < destNeed c out then complete s c .badParam
  else
    let s := writeDest (bumpFree s) c (blk c 32 8) (report ++ chain)
    let s := match c.fn with
      | .pf1 => { s with root := { s.root with reportDigest := some (Config.sha3 report), reportKem := s.root.kemId } }
      | .pf0 => s
    complete s c .ok (natLe 4 (4052 + 72 * listed.length) ++ natLe 4 out ++ natLe 2 listed.length ++ zeroBytes 2)

/- ### KEY_EXCHANGE (13 R316 to R318) -/

/-- Static conditions of `KEY_EXCHANGE` (13 Table 13.10): clear form. -/
def paramsKeyExchange (c : Cmd) : Bool := decide (blk c 0 2 = 1) && blkZero c 2 7 && blkZero c 40 63 && !c.isSealed

/-- `KEY_EXCHANGE`. What belongs to the key it replaces is discarded. -/
def runKeyExchange (c : Cmd) (s : State) : State :=
  let r := s.root
  let named := bytesAt c.pkt.block 8 32
  let ct := bytesAt c.pkt.block 64 1088
  if s.sess1.number ≠ 0 then complete s c .badParam
  else if r.reportDigest.map digestBytes ≠ some named ∨ r.reportKem ≠ r.kemId then complete s c .authFail
  else
    let k := Config.kmac256 (Config.kemDecaps r.kemPair ct) (named ++ sha3Bytes ct) (ascii "WYRUN TENANT KEY")
    let s := if r.k1.isSome then discardTenant1 s else s
    let s := { s with root := { r with k1 := some k, k1Gen := r.k1Gen + 1, kemId := r.kemId + 1, kemPair := s.freeCtr } }
    complete (bumpFree s) c .ok (natLe 4 r.kemId ++ natLe 4 (r.k1Gen + 1))

/- ### Firmware images (13 R323, Table 13.13, Table 13.14) -/

/-- Largest body of a component (13 Table 13.12). -/
def bodyMax (i : Nat) : Nat := if i = 2 ∨ i = 3 then 4 * mib else if i = 5 ∨ i = 6 then mib / 2 else mib

/-- Bit of a part in `PART_MASK`. -/
def partBit : Part → Nat | .wy6480 => 0 | .wy6472 => 1 | .wy6440 => 2

/-- The checks of 13 Table 13.14 on the bytes of an image, in order; 0 says that it passes. -/
def imageReason (s : State) (comp : Nat) (img : List Byte) : Nat :=
  let slot := field img 7 1
  let key := bytesAt img 96 1312
  if bytesAt img 0 4 ≠ ascii "WYFW" ∨ field img 4 2 ≠ 1 ∨ field img 6 1 ≠ comp ∨ bits (field img 13 1) 7 3 ≠ 0 ∨ zeroAt img 15 15 = false
    ∨ zeroAt img 20 63 = false ∨ zeroAt img 3828 4095 = false then 1
  else if bit (field img 13 1) (partBit s.fuse.part) = false ∨ field img 14 1 ≠ 0xB0 then 2
  else if bodyMax comp < field img 16 4 ∨ img.length ≠ 4096 + field img 16 4 then 3
  else if 3 < slot ∨ Config.sha3 key ≠ Config.romKeyDigest slot ∨ s.fuse.fwKeyRevoke.getLsbD slot then 4
  else if Config.mldsaVerify key (bytesAt img 0 96) firmwareLabel (bytesAt img 1408 2420) = false then 5
  else if sha3Bytes (img.drop 4096) ≠ bytesAt img 64 32 then 6
  else if field img 12 1 < securityVersion s then 7
  else 0

/-- What the model keeps of an image. -/
def imageOf (comp : Nat) (img : List Byte) : FwImage :=
  { component := comp, version := BitVec.ofNat 32 (field img 8 4), svn := field img 12 1, digest := Config.sha3 img }

/-- The staged image of a component. -/
def stagedOf (s : State) (i : Nat) : Option FwImage := s.fw.staged.find? (fun f => f.component == i)

/-- Result of the firmware commands. -/
def fwResult (reason : Nat) (v : U32) : List Byte := natLe 1 reason ++ zeroBytes 3 ++ natLe 4 v.toNat

/-- Static conditions of `FW_STAGE` and `FW_ACTIVATE` (13 Table 13.15). -/
def paramsFwStage (c : Cmd) : Bool := decide (1 ≤ arg c 24 1) && decide (arg c 24 1 ≤ 6) && argZero c 25 31 && restZero c 44
def paramsFwActivate (c : Cmd) : Bool := decide (1 ≤ arg c 24 1) && decide (arg c 24 1 ≤ 6) && restZero c 25

/-- `FW_STAGE` (13 R325). -/
def runFwStage (c : Cmd) (s : State) : State :=
  let i := arg c 24 1
  let img := memReadN s.store.host (arg c 32 8) (arg c 40 4)
  let r := imageReason s i img
  if r ≠ 0 then complete s c .fwReject (fwResult r 0)
  else
    let f := imageOf i img
    let s := { s with fw := { s.fw with staged := s.fw.staged.filter (fun g => g.component != i) ++ [f] } }
    complete s c .ok (fwResult 0 f.version)

/-- The quiescent point of a component is reached (13 Table 13.12); for components 1 and 2 it is the frame boundary that let the
command go. -/
def quiescent (s : State) (i : Nat) : Bool :=
  match i with
  | 3 => s.work.steps.all (·.suspended)
  | 4 => s.nand.all (fun n => !n.programming)
  | 5 => s.dram.migrations.isEmpty && !s.dram.spare0.retraining && !s.dram.spare1.retraining
  | 6 => !s.cam0.inFrame && !s.cam1.inFrame
  | _ => true

/-- Activations run one at a time, in fetch order, each after the NOR write of the one before it (13 R326). -/
def activationTurn (s : State) (c : Cmd) : Bool :=
  s.fw.activating.isNone && s.cmds.all (fun d => d.op != .fwActivate || decide (c.id ≤ d.id))

/-- The switch: the new image runs, and its NOR write starts (13 R326, R327). Stage 1 goes on from the ring under a new `GORSE_MAIN` (03 R52, R56). -/
def switchImage (s : State) (f : FwImage) : State :=
  let i := f.component
  let w := s.fw
  let s := { s with fw := { w with
    running := w.running.filter (fun g => g.component != i) ++ [f], staged := w.staged.filter (fun g => g.component != i)
    norState := w.norState.set (i - 1) 1, activating := some i } }
  let s := if i = 3 then { s with power := { s.power with fwKept := f.digest, fwDigest := f.digest } } else s
  let s := if i = 1 && s.listen.stage1 then startLookBack s else s
  if i = 6 then { s with cam0 := { s.cam0 with ispSwitched := true }, cam1 := { s.cam1 with ispSwitched := true } } else s

/-- Switch now, if it is the command's turn and the quiescent point. -/
def tryActivate (c : Cmd) (s : State) : Option State :=
  match stagedOf s (arg c 24 1) with
  | none => some (complete s c .badParam)
  | some f =>
    if f.svn < securityVersion s then some (complete s c .fwReject (fwResult 7 0))
    else if activationTurn s c && quiescent s (arg c 24 1) then some (complete (switchImage s f) c .ok (fwResult 0 f.version))
    else none

/-- `FW_ACTIVATE` (13 R326). Components 1 and 2 wait for a frame boundary (03 R56), and for the next one when it is not their turn. -/
def runFwActivate (c : Cmd) (s : State) : State :=
  let audio := decide (arg c 24 1 ≤ 2)
  let w : Wait := if audio then .policyHold else .quiescent
  match stagedOf s (arg c 24 1) with
  | none => complete s c .badParam
  | some f =>
    if f.svn < securityVersion s then complete s c .fwReject (fwResult 7 0)
    else if audio && c.aux == 0 then park s c w
    else (tryActivate c s).getD (park s { c with aux := 0 } w)

def resumeFwActivate (c : Cmd) (s : State) : Option State := tryActivate c s

/-- Blow the anti-rollback counter up to its target, or leave that pending (13 R324). -/
def raiseSvn (s : State) : State :=
  let target := (s.fw.nor.map (·.svn)).foldl min 64
  if target ≤ securityVersion s then { s with fw := { s.fw with svnPending := false } }
  else if s.pins.vpp then { s with fuse := { s.fuse with antiRollback := target }, fw := { s.fw with svnPending := false } }
  else { s with fw := { s.fw with svnPending := true } }

/-- `NOR_WRITE_DONE` (13 R327), whatever happens to Laurel. -/
def norWriteDone (ok : Bool) (s : State) : State :=
  match s.fw.activating with
  | none => s
  | some i =>
    if s.boot.inReset then s
    else
      let f := { runningOf s i with valid := ok }
      let s := { s with fw := { s.fw with
        activating := none, norState := s.fw.norState.set (i - 1) (if ok then 0 else 2)
        nor := s.fw.nor.map (fun g => if g.component = i then f else g) } }
      if ok then raiseSvn s else s

/-- Static conditions of `FW_QUERY`. -/
def paramsFwQuery (c : Cmd) : Bool := argZero c 24 31 && restZero c 40

/-- One component's entry in the record of 13 Table 13.16. -/
def queryEntry (s : State) (i : Nat) : List Byte :=
  let r := runningOf s i
  natLe 1 i ++ natLe 1 (s.fw.norState.getD (i - 1) 0) ++ natLe 1 (b2n (stagedOf s i).isSome) ++ natLe 1 r.svn ++ natLe 4 r.version.toNat
    ++ natLe 4 (match stagedOf s i with | some f => f.version.toNat | none => 0) ++ zeroBytes 4 ++ (digestBytes r.digest).take 16

/-- `FW_QUERY` (13 Table 13.16). -/
def runFwQuery (c : Cmd) (s : State) : State :=
  let rec_ := natLe 4 (securityVersion s) ++ natLe 1 (b2n s.fw.svnPending + 2 * b2n s.fuse.dbgOff) ++ zeroBytes 59 ++ components.flatMap (queryEntry s)
  complete (writeDest s c (arg c 32 8) rec_) c .ok (natLe 4 (securityVersion s))

end Sys2Proof.Machine
end

