-- ==== Sys2Proof/Machine/Boot.lean ====
section
/-! DEFINITION. Start-up and recovery (19), and the events of the PCIe link (05 R124 to R128). -/

namespace Sys2Proof.Machine

/- ### The Gorse power-on reset (19 R403, R404) -/

/-- Firmware that survives: the NOR images, of which one whose write was cut short fails its check (13 R327). -/
def bootFirmware (w : Firmware) : Firmware :=
  { running := [], nor := w.nor.map (fun f => if w.activating = some f.component then { f with valid := false } else f)
    svnPending := w.svnPending, trainValid := w.trainValid, romVersion := w.romVersion, certOk := w.certOk }

/-- Models that stay installed in the store; their residency and pins go with DRAM and the coppice buffers. -/
def storedModels (s : State) : List Model :=
  s.work.models.map (fun m => { m with resident := none, pin1 := false, pin2 := 0, loading := false, lastUse := 0, wasEvicted := false })

/-- Spares that stay taken: the spare maps are held with the training record (19 Table 19.2). A retraining is dropped. -/
def keptSpare (x : SpareCh) : SpareCh := if x.retraining then {} else x

/-- The whole device goes into reset. Fuses, NOR, NAND, the spare maps, host memory and the levels of the inputs stay. -/
def powerOnReset (cause : Nat) (s : State) : State :=
  let r : State := State.reset
  { r with
    fuse := s.fuse
    boot := { r.boot with cause := cause
                          orderly := if s.boot.inReset then s.boot.orderly else s.custody.state == .relinquished && (domOf s domNand).state == .off }
    pins := { r.pins with perstN := s.pins.perstN, privN := s.pins.privN, talkN := s.pins.talkN, vpp := s.pins.vpp }
    store := { r.store with host := s.store.host, nand := s.store.nand, poisonUnits := s.store.poisonUnits
                            allocs := s.store.allocs.filter (fun a => a.obj == 22) }
    dram := { r.dram with spare0 := keptSpare s.dram.spare0, spare1 := keptSpare s.dram.spare1
                          moved := s.dram.moved, degraded := s.dram.degraded }
    nand := s.nand.map (fun n => { n with inService := false, programming := false })
    work := { r.work with models := storedModels s, tiles := s.work.tiles }
    fw := bootFirmware s.fw
    freeCtr := s.freeCtr
    pending := s.pending }

/-- `GORSE_POWER_ON_RESET`. -/
def gorsePowerOnReset (cause : ResetCause) (s : State) : State :=
  powerOnReset (match cause with | .vddAon => 0 | .grstN => 1) s

/-- `GORSE_RESET_RELEASE`: STB 0, CLKREQ_N low, the first KEM pair; a low PRIV_N acts from here (19 R403, R405, R410; 13 R316). -/
def gorseResetRelease (s : State) : State :=
  if !s.boot.inReset then s
  else
    let s := { s with
      stb := 0, boot := { s.boot with inReset := false }
      pins := { s.pins with grstN := true, clkreqLow := true }
      root := { s.root with kemId := 1, kemPair := s.freeCtr } }
    let s := bumpFree s
    if s.pins.privN then s else privNLow s

/- ### The boot chain (19 R405 to R408) -/

/-- Components whose NOR image fails its checks. -/
def failedImages (s : State) : Nat :=
  (components.map (fun i =>
    if s.fw.nor.any (fun f => f.component == i && f.valid && decide (securityVersion s ≤ f.svn)) then 0 else 2 ^ (i - 1))).sum

/-- The recovery loader: CTRL, LINK and DMA alone are powered (19 R413). They are ON at once (notes/assumptions/29.md), so that their
transitions end on this tick: their mirrors load its STB as the coarse value (02 R36). -/
def enterRecovery (failed : Nat) (s : State) : State :=
  let s : State := [domCtrl, domLink, domDma].foldl (fun s d =>
    setMirror (updDom s d (fun x => { bookTime s x with state := .on })) { dom := d, uncertain := true }) s
  { s with boot := { s.boot with stage := 14, recovery := true, failed := BitVec.ofNat 6 failed }
           pcie := { s.pcie with detect := s.pins.perstN }, i3c := { s.i3c with enabled := true } }

/-- `ROM_CHECKS_DONE`: `GORSE_MAIN` runs and returns CTRL, or the ROM enters recovery. The anti-rollback blow is tried at each boot
(13 R324). -/
def romChecksDone (dirOk : Bool) (s : State) : State :=
  if s.boot.inReset || decide (s.boot.stage ≠ 0) then s
  else
    let failed := if dirOk then failedImages s else 63
    if failed ≠ 0 then enterRecovery failed s
    else
      let s := { s with boot := { s.boot with stage := 1 }, fw := { s.fw with running := s.fw.nor, norState := [0, 0, 0, 0, 0, 0] }
                        i3c := { s.i3c with enabled := true }, fault := { s.fault with aliveRun := true, kickGorse := s.stb } }
      demandDom (raiseSvn s) domCtrl 0x00 0x06

/-- The root engine finds the running `LAUREL_CP` good: its image passed its checks and is not below the security version (01 R17). -/
def laurelVerified (s : State) : Bool :=
  s.fw.running.any (fun f => f.component == 3 && f.valid && decide (securityVersion s ≤ f.svn))

/-- `LAUREL_RELEASE` once CTRL is ON and its firmware is verified (01 R17). The first release starts LINK and the MEM domains and
the counters (19 Table 19.2, 17 R387); a later one shows stage 0x4 at once. No flit fails here, so
the FATAL fault of a link that does not train within 8,192 tk of the release carries the direction 0 (DESIGN CHOICE, notes/assumptions/65.md). -/
def laurelRelease (s : State) : State :=
  if !gorseRuns s || s.boot.laurelReleased || s.boot.laurelHeld || s.custody.noReturn || s.fault.haltGorse || !domOn s domCtrl
    || !laurelVerified s then s
  else
    let first := !s.boot.capsValid
    let s := { s with
      boot := { s.boot with laurelReleased := true, stage := if first then 2 else 4 }
      dlink := { s.dlink with trained := false, limitAt := some (s.stb + 8192), limitDir := 0, replaysGL := 0, replaysLG := 0 }
      custody := { s.custody with grantAsked := true }
      sess0 := { s.sess0 with opened := 0 }
      sess1 := { s.sess1 with opened := 0 }
      fault := { s.fault with healthAt := s.stb, kickCp0 := s.stb, kickCp1 := s.stb } }
    let s := if first then [domLink, domMema, domMemb].foldl (fun s d => demandDom s d 0x00 0x06) { s with obs := { s.obs with restarted := false } } else s
    let d := (runningOf s 3).digest
    { s with power := { s.power with fwRetained := true, fwKept := d, fwDigest := d } }

/-- A channel that cannot be trained takes the next spare ranks; nothing is migrated. With none left its group is out of service
(19 R407). -/
def untrained (s : State) (ch : Nat) : State :=
  let s := raise s (capture s 0x12 ch 0)
  let one := fun (s : State) (rank : Nat) =>
    match nextSpare s (channelFn s ch) with
    | some (i, r) => let s := takeSpare s i r ch rank; { s with dram := { s.dram with moved := s.dram.moved ++ [(ch, rank, 2 * i + r)] } }
    | none => { s with dram := { s.dram with outGroups := s.dram.outGroups ||| BitVec.ofNat 4 (2 ^ (ch / 8)) } }
  one (one s 0) 1

/-- `TRAINING_DONE`: `full` says that all channels were trained in full, `failed` names those that cannot be trained (19 R406, R407).
The flash controller returns for its mount. -/
def trainingDone (full : Bool) (failed : List Nat) (s : State) : State :=
  let memUp := domOn s domMema && (!domPresent s.fuse.part domMemb || domOn s domMemb)
  if s.boot.stage ≠ 2 ∨ s.boot.inReset = true ∨ memUp = false then s
  else
    let bad := (failed.filter (fun ch => decide (ch / 8 < unitsOf s.fuse.part) && !s.dram.moved.any (fun m => m.1 == ch))).dedup
    let s : State := bad.foldl untrained s
    let s := { s with boot := { s.boot with trainFull := full || !s.fw.trainValid }, fw := { s.fw with trainValid := true } }
    if s.dram.outGroups.toNat.testBit 0 then { s with boot := { s.boot with stage := 15 } }
    else
      let up := (List.range 4).filter (groupPresent s)
      demandDom { s with boot := { s.boot with stage := 3 }, dram := { s.dram with groupsUp := BitVec.ofNat 4 (maskOf up) } }
        domNand 0x00 0x06

/-- Tenant 1's key is gone, so its installed models are discarded at the mount (13 R318). -/
def discardKeyless (s : State) : State :=
  if s.root.k1.isSome then s
  else
    let gone := s.store.allocs.filter (fun a => a.fn == .pf1 && a.tier == 3)
    let nand := gone.foldl (fun m a => memClear m a.base a.size) s.store.nand
    { s with work := { s.work with models := s.work.models.filter (fun m => m.fn == .pf0) }
             store := { s.store with nand := nand, allocs := s.store.allocs.filter (fun a => !(a.fn == .pf1 && a.tier == 3)) } }

/-- One channel of the mount. A channel whose root records cannot be read stays out of service. The share of spare blocks that a mount
finds on a channel mounted for the first time is a free value of at least 1 % (12 R301). -/
def mountChannel (failed : List Nat) (s : State) (n : Nat) : State :=
  if failed.contains n then raise s (capture s 0x14 n 1)
  else
    let spare := if (nandCh s n).sparePermille = 0 ∧ (nandCh s n).readOnly = false then 10 + Config.freeNat s.freeCtr % 991 else (nandCh s n).sparePermille
    updNand (bumpFree s) n (fun x => { x with inService := true, sparePermille := spare })

/-- `FTL_MOUNT_DONE`: the channels are mounted and the descriptor becomes valid (12 R301; 19 R408). -/
def ftlMountDone (failed : List Nat) (s : State) : State :=
  if s.boot.stage ≠ 3 ∨ s.boot.inReset = true ∨ domOn s domNand = false then s
  else
    let s := discardKeyless ((unitList (nandPresent s)).foldl (mountChannel failed) s)
    { s with boot := { s.boot with stage := 4, capsValid := true, mountReplay := !s.boot.orderly, mapGen := 0 } }

/- ### The recovery loader (19 R413, R414) -/

/-- A write of `RCV_CTRL`; with `GO` a load starts. While `BUSY` it is ignored. -/
def writeRcvCtrl (v : U64) (s : State) : State :=
  if !s.boot.recovery || s.boot.rcvBusy then s
  else
    let n := v.toNat
    { s with boot := { s.boot with rcvComponent := n % 8, rcvLen := bits n 54 32, rcvBusy := bit n 3 } }

/-- `REASON` of a load. -/
def loadReason (s : State) (hostOk norOk : Bool) : Nat :=
  let b := s.boot
  let img := memReadN s.store.host b.rcvSrc.toNat b.rcvLen
  if b.rcvComponent = 0 ∨ b.failed.toNat.testBit (b.rcvComponent - 1) = false then 9
  else if !hostOk then 8
  else if imageReason s b.rcvComponent img ≠ 0 then imageReason s b.rcvComponent img
  else if !norOk then 10 else 0

/-- `RECOVERY_LOAD_DONE`: `hostOk` and `norOk` say whether the host read and the NOR read-back succeeded. -/
def recoveryLoadDone (hostOk norOk : Bool) (s : State) : State :=
  let b := s.boot
  if !b.recovery || !b.rcvBusy then s
  else
    let r := loadReason s hostOk norOk
    if r ≠ 0 then { s with boot := { b with rcvBusy := false, rcvReason := r } }
    else
      let f := imageOf b.rcvComponent (memReadN s.store.host b.rcvSrc.toNat b.rcvLen)
      let failed := b.failed &&& ~~~(BitVec.ofNat 6 (2 ^ (b.rcvComponent - 1)))
      { s with
        fw := { s.fw with nor := s.fw.nor.filter (fun g => g.component != b.rcvComponent) ++ [f] }
        boot := { b with rcvBusy := false, rcvReason := 0, failed := failed, resetAt := if failed = 0 then some (s.stb + 3072) else none } }

/-- `RECOVERY_RESET`. -/
def recoveryReset (s : State) : State :=
  match s.boot.resetAt with
  | some t => if s.boot.recovery && decide (t ≤ s.stb) then powerOnReset 2 s else s
  | none => s

/- ### The PCIe function and link events (05 R124, R127, R128; 15 Table 15.1; 16 R376; 19 R410, R412) -/

/-- A function-level reset: the session ends without completions and the admin ring is disabled. -/
def resetFunction (s : State) (fn : Fn) : State := disableAdmin (dropSession s fn) fn

/-- `FUNCTION_LEVEL_RESET`. -/
def functionLevelReset (fn : Fn) (s : State) : State := if s.pcie.link = .down ∨ s.boot.inReset = true then s else resetFunction s fn

/-- LINK and, with it, DMA go toward OFF (15 Table 15.1). -/
def linkOff (s : State) : State :=
  [domDma, domLink].foldl (fun s d => if (domOf s d).state = .on ∨ (domOf s d).state = .ret then startEntry s d 2 none false else s) s

/-- `PERST_N_ASSERT`. -/
def perstNAssert (s : State) : State :=
  let s := { s with pins := { s.pins with perstN := false }, pcie := { s.pcie with link := .down, detect := false, perstRise := none, answer := .none } }
  if s.boot.inReset then s else linkOff (resetFunction (resetFunction s .pf0) .pf1)

/-- `PERST_N_RISE`: Detect begins once LINK is ON too. -/
def perstNRise (s : State) : State :=
  if s.pins.perstN then s
  else
    let s := { s with pins := { s.pins with perstN := true }
                      pcie := { s.pcie with perstRise := some s.stb, d0 := .d0, d1 := .d0, detect := domOn s domLink && !s.boot.inReset } }
    if s.boot.laurelReleased then demandDom s domLink 0xFE 0x09 else s

/-- Ticks from PERST_N's rise after which no request receives Retry Status. -/
def retryTicks : Nat := 2764800

/-- `CONFIG_REQUEST` (19 R412, R413): in recovery only PF0 answers, and never with Retry Status. -/
def configRequest (fn : Fn) (s : State) : State :=
  if s.pcie.link = .down ∨ s.boot.inReset = true ∨ (s.boot.recovery = true ∧ fn = .pf1) then s
  else
    let late := match s.pcie.perstRise with | some t => decide (t + retryTicks ≤ s.stb) | none => false
    { s with pcie := { s.pcie with answer := if s.boot.capsValid || s.boot.recovery || late then .normal else .retry } }

/-- The group is left with `ABORT` when PF0 loses D0 (16 R376). -/
def abortGroup (s : State) : State :=
  let ids := ((cmdsOf s .pf0).filter (fun c => (c.op == .peerSend && c.phase != .waiting) || (c.op == .groupJoin && c.phase != .waiting))).map (·.id)
  resetGroup (endAll s ids .cancelled) true

def setDState (s : State) (fn : Fn) (x : DState) : State :=
  match fn with
  | .pf0 => { s with pcie := { s.pcie with d0 := x } }
  | .pf1 => { s with pcie := { s.pcie with d1 := x } }

/-- `D3HOT_ENTRY`: completions are held from here on. -/
def d3hotEntry (fn : Fn) (s : State) : State :=
  if dState s fn ≠ .d0 ∨ s.pcie.link = .down then s
  else
    let s := match fn with | .pf0 => abortGroup s | .pf1 => s
    setDState s fn .d3hot

/-- `D3COLD_ENTRY`: both sessions end without completions. -/
def d3coldEntry (s : State) : State :=
  if s.boot.inReset then s
  else linkOff (resetFunction (resetFunction (setDState (setDState s .pf0 .d3cold) .pf1 .d3cold) .pf0) .pf1)

/-- PEWAKE_N is released once the link is in L0 and PF0 in D0 (05 R128). -/
def releasePewake (s : State) : State :=
  if s.pcie.link = .l0 ∧ s.pcie.d0 = .d0 then { s with pins := { s.pins with pewakeLow := false } } else s

/-- `D0_RETURN`. -/
def d0Return (fn : Fn) (s : State) : State :=
  if !s.pins.perstN || s.boot.inReset then s else flushHeld (releasePewake (setDState s fn .d0)) fn

/-- `LINK_STATE_CHANGE`: LINK follows L1.2, L0 lets held writes go, and CLKREQ_N is low but in the L1 substates. -/
def linkStateChange (lk : LinkState) (s : State) : State :=
  let up := lk != .down && lk != .l2
  if (up && (!s.pins.perstN || !(s.pcie.detect || s.boot.recovery))) || (lk == .l0 && !domOn s domLink) || s.boot.inReset then s
  else
    let s := { s with pcie := { s.pcie with link := lk, exitAsked := s.pcie.exitAsked && lk != .l0 }, pins := { s.pins with clkreqLow := lk != .l11 && lk != .l12 } }
    if lk = .l0 then flushHeld (flushHeld (releasePewake s) .pf0) .pf1
    else if lk = .l12 ∧ (domOf s domLink).state = .on then startEntry s domLink 1 none false
    else s

end Sys2Proof.Machine
end

