-- ==== Sys2Proof/Machine/Compress.lean ====
section
/-! DEFINITION. `TABLE_BUILD` and `COMPRESS` (07 R164 to R177). -/

namespace Sys2Proof.Machine

/- ### Prefix tables of a segment (07 R175) -/

/-- Occurrences of each symbol. -/
def histogram (bs : List Byte) : List Nat := (List.range 256).map (fun v => (bs.filter (fun b => b.toNat == v)).length)

/-- Join neighbours of a sorted list of (weight, symbols) packages. -/
def pairUp : List (Nat × List Nat) → List (Nat × List Nat)
  | a :: b :: t => (a.1 + b.1, a.2 ++ b.2) :: pairUp t
  | _ => []

/-- The packages after `k` merges with the coins. -/
def mergeLevels (coins : List (Nat × List Nat)) : Nat → List (Nat × List Nat)
  | 0 => coins
  | k + 1 => sortOn (·.1) (coins ++ pairUp (mergeLevels coins k))

/-- Code lengths of at most 12 bits with the least encoded size, by package merging. -/
def bestLens (hist : List Nat) : List Nat :=
  let used := (hist.zipIdx.filter (fun x => decide (0 < x.1))).map (fun x => (x.1, [x.2]))
  if used.length ≤ 1 then hist.map (fun n => if 0 < n then 1 else 0)
  else
    let picks := ((mergeLevels (sortOn (·.1) used) 11).take (2 * (used.length - 1))).flatMap (·.2)
    (List.range 256).map (fun v => (picks.filter (· == v)).length)

/-- Bits of a segment under a set of lengths. -/
def lensCost (hist lens : List Nat) : Nat := (hist.zipWith (· * ·) lens).sum

/-- Lengths that R175 allows: absent symbols have length 0, present ones 1 to 12, the sum of R168 holds, and the size is the
least. -/
def lensOptimal (hist lens : List Nat) : Bool :=
  lens.length == 256 && (hist.zip lens).all (fun x => if x.1 = 0 then x.2 == 0 else decide (1 ≤ x.2) && decide (x.2 ≤ 12))
    && decide (kraft lens ≤ 4096) && lensCost hist lens == lensCost hist (bestLens hist)

/-- The lengths of a segment. Which of several best sets is taken is not specified (07 R175): the free choice is taken where it
is one of them. -/
def segmentLens (raw : List Byte) : List Nat :=
  let h := histogram raw
  let free := Config.tableChoice h
  if lensOptimal h free then free else bestLens h

/-- A prefix table in memory (07 Table 7.4). -/
def tableBytes (lens : List Nat) : List Byte :=
  (List.range 128).map (fun j => BitVec.ofNat 8 (lens.getD (2 * j) 0 + 16 * lens.getD (2 * j + 1) 0))

/- ### Blocks (07 R165) -/

/-- Bytes of a block in the payload and whether it is stored; `enc` is its encoded data, if it can be encoded. -/
def packBlock (raw : List Byte) (enc : Option (List Byte)) : List Byte × Bool :=
  let stored := (raw ++ zeroBytes (roundUp raw.length 16 - raw.length), true)
  match enc with
  | none => stored
  | some e =>
    let b := e ++ natLe 4 (crc32c raw).toNat
    let b := b ++ zeroBytes (roundUp b.length 16 - b.length)
    if roundUp raw.length 16 ≤ b.length then stored else (b, false)

/-- Blocks of a raw form. -/
def rawBlocks (raw : List Byte) : List (List Byte) := (List.range (ceilDiv raw.length 4096)).map (fun j => bytesAt raw (4096 * j) 4096)

/-- The packed blocks of a raw form in ENTROPY form, with one table per segment. -/
def entropyBlocks (raw : List Byte) (segBlocks : Nat) (lens : Nat → List Nat) : List (List Byte × Bool) :=
  (rawBlocks raw).zipIdx.map (fun x => packBlock x.1 (encodeSyms (codesOf (lens (x.2 / max 1 segBlocks))) x.1))

/-- The packed blocks in ZMASK form. -/
def zmaskBlocks (d : Desc) (raw : List Byte) : List (List Byte × Bool) :=
  let n := elemBytes d.format
  (rawBlocks raw).map (fun b => packBlock b (some (zmaskEncode n (zeroValue d.format d.zp) (elemsOf n b) 65)))

/-- Index entries of packed blocks from payload offset `at0`. -/
def indexOf (at0 : Nat) : List (List Byte × Bool) → List Byte
  | [] => []
  | b :: t => natLe 4 (at0 + b2n b.2) ++ indexOf (at0 + b.1.length) t

/- ### TABLE_BUILD -/

/-- Segments of a source. -/
def segCount (d : Desc) (segBlocks : Nat) : Nat := ceilDiv d.blocks (max 1 segBlocks)

/-- Static conditions of `TABLE_BUILD` (07 Table 7.7). -/
def paramsTableBuild (s : State) (c : Cmd) : Bool :=
  let d := descAt c.pkt.block 64
  let v := blk c 8 8
  decide (blk c 0 2 = 1) && decide (1 ≤ blk c 2 2) && decide (blk c 2 2 ≤ 4096) && ownsCoppice s c.fn (blk c 4 1)
  && blkZero c 5 7 && blkZero c 16 63 && d.present && d.ok false && d.form == 0 && decide (d.rawSize ≤ 2 ^ 32)
  && (tierOf v == 1 || tierOf v == 2) && offOf v % 64 == 0

/-- A command ends `POISON` when its operand cannot be delivered; an undecodable block is a fault as well (07 R173). -/
def endOperand (s : State) (c : Cmd) (e : ReadError) : State :=
  let s := if e = .undecodable then raise s ((captureCmd s c 0x16 (blk c 4 1) 1).inRegion s (domCop (blk c 4 1))) else s
  complete s c .poison

/-- Armed injections strike a compression engine's read of a tensor. -/
def strikeTensor (s : State) (c : Cmd) (eng : Nat) (d : Desc) : State :=
  strike (captureBy s c (0x50 + eng)) [(d.tier, d.off, d.extent)] (fun t => match d.raw t with | .error e => e == .poison | .ok _ => false) s

/-- `TABLE_BUILD` (07 R175). `CODEBOOK_OFF` of a code format follows the tables (notes/assumptions/37.md). -/
def runTableBuild (c : Cmd) (s : State) : State :=
  let d := descAt c.pkt.block 64
  let v := blk c 8 8
  let sb := blk c 2 2
  let segs := segCount d sb
  let len := 64 + 128 * segs
  if !operandsPlaced s c || !ownsRange s c.fn (tierOf v) (offOf v) len then complete s c .badParam
  else if !usable s (domCop (blk c 4 1)) then complete s c .cancelled
  else
  let s := strikeTensor s c (blk c 4 1) d
  match d.raw s with
    | .error e => endOperand s c e
    | .ok raw =>
      let lens := fun g => segmentLens (bytesAt raw (4096 * sb * g) (4096 * sb))
      let est := ((entropyBlocks raw sb lens).map (fun b => b.1.length)).sum
      let hdr := natLe 2 1 ++ natLe 1 d.format ++ [0] ++ natLe 4 sb ++ natLe 4 segs ++ natLe 4 (if isCode d.format then len else 0)
        ++ natLe 8 d.rawSize ++ natLe 8 0 ++ zeroBytes 32
      let s := tierWrite s (tierOf v) (offOf v) (hdr ++ (List.range segs).flatMap (fun g => tableBytes (lens g)))
      complete s c .ok (natLe 4 segs ++ natLe 8 est)

/- ### COMPRESS -/

/-- `SRC` and `DST` agree (07 R176). -/
def sameTensor (a b : Desc) : Bool := a.format == b.format && a.rank == b.rank && a.dims == b.dims && a.zp == b.zp && a.e == b.e

/-- Static conditions of `COMPRESS`. -/
def paramsCompress (s : State) (c : Cmd) : Bool :=
  let a := descAt c.pkt.block 64
  let b := descAt c.pkt.block 128
  decide (blk c 0 2 = 1) && ownsCoppice s c.fn (blk c 2 1) && blkZero c 3 63
  && a.present && b.present && a.ok false && b.ok true && sameTensor a b && !a.overlaps b
  && ((a.form == 0 && b.form != 0) || (a.form != 0 && b.form == 0))

/-- Where a tensor's codebook records stand. -/
def Desc.recordsAt (d : Desc) (s : State) : Nat := d.off + (if d.form = 0 then d.aux else field (d.header s) 12 4)

/-- Copy codebook records for a code format. -/
def copyRecords (s : State) (a b : Desc) : State :=
  if isCode a.format then tierWrite s b.tier (b.recordsAt s) (a.records s) else s

/-- Write a compressed tensor (07 R177). -/
def writeCompressed (s : State) (a b : Desc) (blocks : List (List Byte × Bool)) : State :=
  let payload := blocks.flatMap (·.1)
  let s := copyRecords s a b
  let s := tierWrite s b.tier (b.off + b.payload) payload
  let s := tierWrite s b.tier (b.off + b.index) (indexOf 0 blocks)
  if b.form = 2 then tierWrite s b.tier (b.off + b.aux + 24) (natLe 8 payload.length) else s

/-- Write a tensor in form `NONE` from its raw form. -/
def writeRaw (s : State) (d : Desc) (raw : List Byte) : State :=
  if isCode d.format || d.dense then tierWrite s d.tier d.off raw
  else
    let n := elemBytes d.format
    (d.offsets.zipIdx).foldl (fun t x => tierWrite t d.tier (d.off + x.1) (bytesAt raw (n * x.2) n)) s

/-- `COMPRESS` starts (07 R176, R177): the index entries of a compressed `DST` become `INVALID`, and the rest follows with the commit. -/
def runCompress (c : Cmd) (s : State) : State :=
  let b := descAt c.pkt.block 128
  if !operandsPlaced s c then complete s c .badParam
  else if !usable s (domCop (blk c 2 1)) then complete s c .cancelled
  else
    let s := if b.form = 0 then s else invalidateOut s b
    setCmd s { c with phase := .parked .units, res := zeroBytes 12 }

/-- The codebook records of a compressed source of a code format stand on a poisoned line. -/
def Desc.recordsPoison (d : Desc) (s : State) : Bool := isCode d.format && (firstPoison s d.tier (d.recordsAt s) d.recordsLen).isSome

/-- The commit of a `COMPRESS`, or what ends it (07 R173, R177). -/
def commitCompress (c : Cmd) (s : State) : State :=
  let a := descAt c.pkt.block 64
  let b := descAt c.pkt.block 128
  let s := strikeTensor s c (blk c 2 1) a
  match (if a.recordsPoison s then .error .poison else a.raw s) with
  | .error e =>
    let s := if e = .undecodable then raise s ((captureCmd s c 0x16 (blk c 2 1) 1).inRegion s (domCop (blk c 2 1))) else s
    endCmd s c .poison
  | .ok raw =>
    if b.form = 0 then complete (writeRaw (copyRecords s a b) b raw) c .ok (natLe 8 raw.length ++ natLe 4 0)
    else
      let blocks := if b.form = 1 then zmaskBlocks b raw else entropyBlocks raw (field (b.header s) 4 4) (b.segLens s)
      complete (writeCompressed s a b blocks) c .ok
        (natLe 8 (blocks.map (fun x => x.1.length)).sum ++ natLe 4 (blocks.filter (·.2)).length)

end Sys2Proof.Machine
end

