-- ==== Sys2Proof/Machine/Observation.lean ====
section
/-! DEFINITION. Observation (17): snapshots and `COUNTER_READ`, `TRACE_CONFIG` and `WATCH_SET`. -/

namespace Sys2Proof.Machine

/- ### Counters (17 R385 to R390) -/

/-- A reader may see a counter (17 R390). After `DBG_OFF` only the aggregate counters remain (13 R329). -/
def counterShown (s : State) (fn : Fn) (r : CounterRec) : Bool :=
  let unit := fun c : Nat => decide (fn = .pf1) == t1Coppice s c
  let device := r.id == 0x20 || r.id == 0x21
  if device then fn == .pf0 && !s.fuse.dbgOff
  else if r.id = 0x01 ∨ r.id = 0x07 ∨ r.id = 0x14 ∨ r.id = 0x15 then decide (r.inst = if fn = .pf0 then 0 else 1)
  else if 2 ≤ r.id ∧ r.id ≤ 5 then unit (r.inst / 10)
  else if r.id = 6 then unit r.inst
  else if r.id = 0x10 ∨ r.id = 0x11 then decide (fn = .pf1) == t1Group s r.inst
  else decide (fn = .pf1) == t1Nand s r.inst

/-- A counter record (17 Table 17.3). -/
def counterBytes (r : CounterRec) : List Byte :=
  natLe 2 r.id ++ natLe 2 r.inst ++ natLe 1 r.dom ++ natLe 1 (b2n r.frozen + 2 * b2n r.uncertain) ++ zeroBytes 2 ++ natLe 8 r.arrival
    ++ natLe 8 r.value.toNat ++ zeroBytes 8

/-- A bin record (17 Table 17.4). -/
def binBytes (b : Bin) : List Byte :=
  natLe 2 b.layerId.toNat ++ natLe 2 b.opId.toNat ++ natLe 4 b.commands ++ (List.range 7).flatMap (fun i => natLe 8 (b.values.getD i 0).toNat)

/-- Bins from an index on, the overflow bin last. -/
def binsFrom (s : State) (i : Nat) : List Bin := (s.obs.bins ++ (match s.obs.overflow with | some b => [b] | none => [])).drop i

/-- Static conditions of `COUNTER_READ` (17 Table 17.2, R390). A halt snapshot holds no bins. -/
def paramsCounterRead (c : Cmd) : Bool :=
  decide (arg c 24 1 < 2) && decide (arg c 25 1 < 2) && decide (arg c 26 1 < 2) && argZero c 27 27 && argZero c 30 31 && restZero c 44
  && (arg c 25 1 == 0 || (c.fn == .pf0 && arg c 24 1 == 0 && decide (arg c 28 2 < 1024)))

/-- Records of `size` bytes that `DEST_LEN` holds, at most `n`. -/
def recordsThatFit (c : Cmd) (size n : Nat) : Nat :=
  if destNeed c (size * n) ≤ arg c 40 4 then n
  else ((List.range n).filter (fun k => decide (destNeed c (size * k) ≤ arg c 40 4))).foldl max 0

/-- Write records and complete: `snap` is the broadcast's tick. -/
def counterDone (s : State) (c : Cmd) (snap smear : Nat) (frozen : Bool) (recs : List (List Byte)) : State :=
  let n := recordsThatFit c ((recs.headD []).length) recs.length
  let s := if n = 0 then s else writeDest s c (arg c 32 8) (recs.take n).flatten
  let fl := b2n frozen + 2 * b2n s.obs.restarted + 4 * b2n s.obs.overflow.isSome + 8 * b2n (decide (n < recs.length))
  complete s c .ok (natLe 8 snap ++ natLe 2 n ++ natLe 1 smear ++ natLe 1 fl)

/-- Complete a `COUNTER_READ` from latched counters. -/
def counterRecords (s : State) (c : Cmd) (snap smear : Nat) (l : List CounterRec) : State :=
  let l := l.filter (counterShown s c.fn)
  counterDone s c snap smear (l.any (·.frozen)) (l.map counterBytes)

/-- `COUNTER_READ`: a halt snapshot is read at once, a new one at the next broadcast (17 R389, R390). -/
def runCounterRead (c : Cmd) (s : State) : State :=
  if arg c 24 1 = 0 then
    setCmd { s with obs := { s.obs with snapWaiting := s.obs.snapWaiting ++ [c.id] } } { c with phase := .parked .snapshot }
  else if s.obs.haltHeld then counterRecords s c s.obs.haltAt 0 s.obs.halt
  else complete s c .badParam

/-- Serve a waiting reader from a snapshot. -/
def serveSnapshot (snap smear : Nat) (l : List CounterRec) (s : State) (id : Nat) : State :=
  match cmdOf s id with
  | none => s
  | some c =>
    if arg c 25 1 = 0 then counterRecords s c snap smear l
    else
      let s := counterDone s c snap smear false ((binsFrom s (arg c 28 2)).map binBytes)
      if arg c 26 1 = 1 then { s with obs := { s.obs with bins := [], overflow := none } } else s

/-- `SNAPSHOT_BROADCAST`, not while an earlier one is on its way: each domain that is ON latches on its tick of arrival, at most 2 tk
later, as `arrivals` says (17 R388, R389). -/
def snapshotBroadcast (arrivals : List (Nat × Nat)) (s : State) : State :=
  let busy := match s.obs.snapAt with | some t => decide (s.stb ≤ t) | none => false
  if !laurelRuns s || !domOn s domObs || s.obs.snapWaiting.isEmpty || busy then s
  else
    let delay := fun d : Nat => min 2 (((arrivals.find? (fun a => a.1 == d)).map (·.2)).getD 0)
    let l := (catalogue s).map (latchCounter s (fun d => s.stb + delay d))
    let smear := (l.map (fun r => if r.frozen then 0 else delay r.dom)).foldl max 0
    let ids := s.obs.snapWaiting
    let s := { s with freeCtr := s.freeCtr + counterDraws, obs := { s.obs with snapAt := some (s.stb + smear), snapWaiting := [] } }
    ids.foldl (serveSnapshot s.stb smear l) s

/- ### Trace (17 R391 to R395) -/

/-- Static conditions of `TRACE_CONFIG` (17 Table 17.7). -/
def paramsTraceConfig (c : Cmd) : Bool :=
  let ring := bit (arg c 24 1) 0
  decide (1 ≤ arg c 24 1) && decide (arg c 24 1 ≤ 3) && (arg c 26 2 % 2 == 0) && decide (arg c 26 2 < 0x2000) && restZero c 48
  && (!ring || (decide (10 ≤ arg c 25 1) && decide (arg c 25 1 ≤ 20) && (arg c 32 8 % 4096 == 0) && (arg c 40 8 % 8 == 0)))

/-- Write what is still staged under the old setting of the host ring. -/
def flushTrace (s : State) : State :=
  let t := s.obs.trace0
  if t.staged.isEmpty then s
  else
    let s := (traceOrder t).foldl (fun s e => hostOut s .pf0 (t.base.toNat + 32 * (e.1.toNat % 2 ^ t.log2)) e.2) s
    hostOut s .pf0 t.countAddr.toNat (natLe 4 (traceSent t).tseq.toNat ++ natLe 4 t.dropped)

/-- `TRACE_CONFIG` (17 R395). The port keeps its numbering; the host ring starts again, with a count word of zeros. -/
def runTraceConfig (c : Cmd) (s : State) : State :=
  let cfg := fun (t : TraceDest) => { t with
    events := BitVec.ofNat 16 (arg c 26 2), filterLayer := BitVec.ofNat 16 (arg c 28 2), filterOp := BitVec.ofNat 16 (arg c 30 2) }
  let ring : TraceDest := { log2 := arg c 25 1, base := BitVec.ofNat 64 (arg c 32 8), countAddr := BitVec.ofNat 64 (arg c 40 8) }
  let s := if bit (arg c 24 1) 0 then
      let s := hostOut (flushTrace s) .pf0 (arg c 40 8) (zeroBytes 8)
      { s with obs := { s.obs with trace0 := cfg ring } }
    else s
  let s := if bit (arg c 24 1) 1 then
      let s := portDrain s
      { s with obs := { s.obs with trace1 := cfg s.obs.trace1 }, pins := { s.pins with traceClk := decide (arg c 26 2 ≠ 0) } }
    else s
  complete s c .ok (natLe 4 (if bit (arg c 24 1) 0 then 0 else s.obs.trace1.tseq.toNat))

/- ### Tensor watch (17 R396) -/

/-- The fields of `WATCH_SET` lie in Table 17.8. -/
def watchFields (c : Cmd) : Bool :=
  decide (arg c 24 1 < 2) && decide (arg c 25 1 < 8) && argZero c 27 27 && argZero c 36 39 && restZero c 52
  && (arg c 24 1 == 1 || (decide (arg c 26 1 ≤ 2) && decide (1 ≤ arg c 32 4) && decide (arg c 32 4 ≤ 65535) && decide (64 * arg c 32 4 ≤ arg c 48 4)))

/-- End a watch slot. -/
def endWatch (s : State) (n : Nat) : State := { s with obs := { s.obs with watches := s.obs.watches.filter (fun w => w.slot != n) } }

/-- `WATCH_SET`. A field outside its table ends the slot as well (17 R396). -/
def runWatchSet (c : Cmd) (s : State) : State :=
  let s := endWatch s (arg c 25 1)
  if !watchFields c then complete s c .badParam
  else
    let w : Watch := { slot := arg c 25 1, kind := arg c 26 1, layerId := BitVec.ofNat 16 (arg c 28 2), opId := BitVec.ofNat 16 (arg c 30 2),
                       left := arg c 32 4, written := 0, dest := BitVec.ofNat 64 (arg c 40 8) }
    let s := if arg c 24 1 = 0 then { s with obs := { s.obs with watches := s.obs.watches ++ [w] } } else s
    complete s c .ok (natLe 4 (ctrlStamp s))

end Sys2Proof.Machine
end

