-- ==== Sys2Proof/Machine/Registers.lean ====
section
/-! DEFINITION. The registers of BAR0 and of the I3C sideband as reads show them and as writes act (21 R429 to R437), the I3C target
(16 R370, R383), and the capability descriptor (21 R438 to R441). -/

namespace Sys2Proof.Machine

/- ### Register values -/

/-- `BOOT_STATUS` (19 Table 19.3). -/
def bootStatus (s : State) : Nat :=
  let b := s.boot
  b.stage % 16 + 16 * b2n b.capsValid + 32 * b2n b.trainFull + 64 * b2n b.mountReplay + 128 * b2n b.recovery + 256 * b.failed.toNat + 65536 * b.cause

/-- `PARTITION` (13 Table 13.2). -/
def partitionReg (s : State) : Nat := s.regs.partition.toNat % 65536 + 65536 * b2n (s.regs.clearing != 0)

/-- `RCV_CTRL` (19 Table 19.4). -/
def rcvCtrl (s : State) : Nat :=
  let b := s.boot
  b.rcvComponent + 16 * b2n b.rcvBusy + 256 * b.rcvReason + 2 ^ 32 * b.rcvLen

/-- `WAKE_STATUS` (21 Table 21.5). -/
def wakeStatus (s : State) : Nat :=
  let l := s.listen
  let stage := if wakeUnderWay s then 3 else if l.candidate.isSome then 2 else if l.stage1 then 1 else 0
  let src := match l.lastSource with | .none => 0 | .phrase => 1 | .talk => 2 | .manual => 3
  b2n l.gateOpen + 2 * b2n l.candidate.isSome + 4 * stage + 16 * src + 64 * b2n l.priv + 128 * b2n l.wakePending
    + 256 * ((if s.cam0.stage2 then s.cam0.attn else 0) % 4) + 1024 * ((if s.cam1.stage2 then s.cam1.attn else 0) % 4) + 65536 * l.wakeId.toNat

/-- `WAKE_COUNTS`. -/
def wakeCounts (s : State) : Nat := s.listen.extraWakes + 65536 * s.listen.privPresses

/-- `CUSTODY`. -/
def custodyReg (s : State) : Nat :=
  let c := s.custody
  let st := match c.state with | .none => 0 | .granted => 1 | .revoked => 2 | .relinquished => 3
  c.epoch.toNat + 2 ^ 32 * st + 2 ^ 34 * c.cause + 2 ^ 40 * c.revocations

/-- `FAULT_SUMMARY`. -/
def faultSummary (s : State) : Nat :=
  let f := s.fault
  b2n f.laurelFatal + 2 * b2n f.gorseFatal + 4 * b2n f.integrity + 8 * b2n (decide (0 < f.lost)) + 256 * f.firstSource + 65536 * f.log.length

/-- `ALIVE_CTRL`. -/
def aliveCtrl (s : State) : Nat :=
  let f := s.fault
  b2n f.level + 2 * b2n f.suppressed + 4 * f.aliveCause + 16 * b2n f.testStop + 65536 * f.edges.toNat

/-- `SECURITY`. -/
def securityReg (s : State) : Nat := securityVersion s + 256 * b2n s.fw.svnPending + 65536 * s.fuse.vlTarget.toNat

/- ### BAR0 reads (21 Table 21.1) -/

/-- The 64-bit register at an offset. -/
def bar0Wide (s : State) (fn : Fn) (off : Nat) : Option Nat :=
  let a := admin s fn
  if s.boot.recovery then
    if fn = .pf1 then none else if off = 0x100 then some s.boot.rcvSrc.toNat else if off = 0x108 then some (rcvCtrl s) else none
  else if off = 0x18 then some s.regs.memConfig.toNat
  else if off = 0x20 then some a.sqBase.toNat
  else if off = 0x28 then some a.cqBase.toNat
  else if off = 0x30 then some a.cwAddr.toNat
  else if off = 0x40 then some (stampOf s domLink)
  else if off = 0x100 ∨ off = 0x108 then some 0
  else if 0x100000 ≤ off ∧ off < 0x108000 ∧ off % 8 = 0 then some (ringStatus s fn ((off - 0x100000) / 8))
  else none

/-- The 32-bit register at an offset. -/
def bar0Narrow (s : State) (fn : Fn) (off : Nat) : Option Nat :=
  let a := admin s fn
  if off = 0 then some (bootStatus s)
  else if s.boot.recovery then none
  else if off = 0x08 then some s.regs.ringSplit
  else if off = 0x10 then some (partitionReg s)
  else if off = 0x38 then some a.log2
  else if off = 0x3C then some (b2n a.enable + 2 * b2n a.error)
  else none

/-- What a read of BAR0 by 4 or 8 bytes shows, the latch of halves apart (21 R429). -/
def bar0Read (s : State) (fn : Fn) (off size : Nat) : Nat :=
  let half := fun (o : Nat) =>
    match bar0Narrow s fn o, bar0Wide s fn (o / 8 * 8) with
    | some v, _ => v
    | none, some v => if o % 8 = 0 then v % 2 ^ 32 else v / 2 ^ 32
    | none, none => 0
  if s.fault.integrity then 2 ^ (8 * size) - 1
  else if off % size ≠ 0 then 0
  else if size = 4 then half off
  else if size = 8 then half off + 2 ^ 32 * half (off + 4)
  else 0

/- ### BAR0 writes (21 R429 to R431) -/

/-- A host access reaches BAR0: Gorse is out of reset, the link is up, and no INTEGRITY fault is in force (14 R336). -/
def barReached (s : State) : Bool := !s.boot.inReset && s.pcie.link != .down && s.pcie.link != .l2 && !s.fault.integrity

/-- The admin registers other than `ADMIN_ENABLE`; they are ignored while the ring is enabled, or on PF1 with no ring (05 R97). -/
def writeAdminReg (s : State) (fn : Fn) (f : Admin → Admin) : State :=
  if (admin s fn).enable || decide (4096 ≤ adminRing s fn) then s else setAdmin s fn (f (admin s fn))

/-- A whole write of a 64-bit register. -/
def writeWide (s : State) (fn : Fn) (off : Nat) (v : U64) : State :=
  if s.boot.recovery then
    if fn = .pf1 then s
    else if off = 0x100 then { s with boot := { s.boot with rcvSrc := BitVec.ofNat 64 (v.toNat / 8 * 8) } }
    else if off = 0x108 then writeRcvCtrl v s else s
  else if off = 0x18 then writeMemConfig s fn v
  else if off = 0x20 then writeAdminReg s fn (fun a => { a with sqBase := BitVec.ofNat 64 (v.toNat / 4096 * 4096) })
  else if off = 0x28 then writeAdminReg s fn (fun a => { a with cqBase := BitVec.ofNat 64 (v.toNat / 4096 * 4096) })
  else if off = 0x30 then writeAdminReg s fn (fun a => { a with cwAddr := BitVec.ofNat 64 (v.toNat / 8 * 8) })
  else if 0x100000 ≤ off ∧ off < 0x108000 then
    let rn := (off - 0x100000) / 8
    if ownsRing s fn rn && v.getLsbD 1 then setRing s { ringOf s rn with dbError := false } else s
  else s

/-- A write of a 32-bit register. -/
def writeNarrow (s : State) (fn : Fn) (off : Nat) (v : U32) : State :=
  if s.boot.recovery then s
  else if off = 0x08 then writeRingSplit s fn v
  else if off = 0x10 then writePartition s fn v
  else if off = 0x38 then writeAdminReg s fn (fun a => { a with log2 := v.toNat % 32 })
  else if off = 0x3C then writeAdminEnable s fn v
  else s

/-- 64-bit registers that are RW as a whole. -/
def wideRw (off : Nat) : Bool := [0x18, 0x20, 0x28, 0x30, 0x100, 0x108].contains off

/-- Key of a half-written register. -/
def halfKey (fn : Fn) (off : Nat) : Nat := off + (match fn with | .pf0 => 0 | .pf1 => 2 ^ 32)

/-- A 4-byte write. The lower half of a 64-bit RW register waits for its upper half; `DB_ERROR` lies in a lower half. -/
def writeHalf (s : State) (fn : Fn) (off : Nat) (v : U32) : State :=
  let base := off / 8 * 8
  if wideRw base then
    let rest := s.regs.writeLatch.filter (fun e => e.1 != halfKey fn base)
    if off % 8 = 0 then { s with regs := { s.regs with writeLatch := (halfKey fn base, v.toNat) :: rest } }
    else
      let low := match s.regs.writeLatch.find? (fun e => e.1 == halfKey fn base) with
        | some e => e.2 | none => ((bar0Wide s fn base).getD 0) % 2 ^ 32
      writeWide { s with regs := { s.regs with writeLatch := rest } } fn base (BitVec.ofNat 64 (low + 2 ^ 32 * v.toNat))
  else if 0x100000 ≤ off then (if off % 8 = 0 then writeWide s fn off (v.setWidth 64) else s)
  else writeNarrow s fn off v

/-- A write of BAR0 (21 R429). Whatever falls on a doorbell other than one whole write of it is ignored and counted (05 R100). -/
def bar0Write (s : State) (fn : Fn) (off : Nat) (data : List Byte) : State :=
  let n := data.length
  if !barReached s then s
  else if 0x800000 ≤ off ∧ off < 0x1000000 ∧ off % 2048 < 8 then
    (if s.boot.recovery then s
     else ringDoorbell s fn ((off - 0x800000) / 2048) (if off % 2048 = 0 then n else 0) (BitVec.ofNat 64 (leNat data)))
  else if (n != 4 && n != 8) || off % n != 0 then s
  else if n = 4 then writeHalf s fn off (BitVec.ofNat 32 (leNat data))
  else if wideRw off ∨ 0x100000 ≤ off then writeWide s fn off (BitVec.ofNat 64 (leNat data))
  else writeNarrow (writeNarrow s fn off (BitVec.ofNat 32 (field data 0 4))) fn (off + 4) (BitVec.ofNat 32 (field data 4 4))

/- ### The I3C sideband map (21 R434, Table 21.4) -/

/-- Registers with their offsets and bytes as reads show them. -/
def i3cRegs (s : State) : List (Nat × List Byte) :=
  [(0x00, [0x01]), (0x01, natLe 1 (8 * b2n s.root.provBusy + 16 * s.root.provResult)), (0x04, natLe 4 (bootStatus s)),
   (0x08, natLe 4 (wakeStatus s)), (0x0C, natLe 4 (wakeCounts s)), (0x10, natLe 8 (custodyReg s)), (0x18, natLe 4 (faultSummary s)),
   (0x1C, natLe 4 (aliveCtrl s)), (0x20, natLe 4 (securityReg s)), (0x24, natLe 4 (s.i3c.mark.toNat + 256 * b2n s.i3c.markValid)),
   (0x28, natLe 8 s.i3c.latch), (0x30, natLe 8 s.fuse.gorseDieId.toNat), (0x38, natLe 8 s.fuse.laurelDieId.toNat), (0x40, natLe 8 s.stb),
   (0x48, natLe 4 (partBcd s.fuse.part + 65536 * 0xB0))]

/-- The byte at an offset; in recovery offsets above 0x4B are not served. -/
def i3cByte (s : State) (off : Nat) : Byte :=
  match (i3cRegs s).find? (fun r => decide (r.1 ≤ off) && decide (off < r.1 + r.2.length)) with
  | some r => r.2.getD (off - r.1) 0
  | none => 0

/-- The target answers: it is enabled and, for a private or direct transfer, has an address (21 R435). -/
def i3cUp (s : State) : Bool := s.i3c.enabled && !s.boot.inReset
def i3cDirect (s : State) : Bool := i3cUp s && s.i3c.addr.isSome

/-- A write of 1 to `WAKE_PENDING` (21 R436). -/
def clearWakePending (v : Byte) (s : State) : State :=
  if i3cDirect s && v.getLsbD 7 then { s with listen := { s.listen with wakePending := false } } else s

/-- A read of `WAKE_COUNTS` (03 R63, R66). -/
def readWakeCounts (s : State) : State :=
  if !i3cDirect s then s
  else { answer s (natLe 4 (wakeCounts s)) with listen := { s.listen with extraWakes := 0, privPresses := 0 } }

/-- Ticks after which `TEST_STOP` clears itself (21 R437). -/
def testTicks : Nat := 12288

/-- A write of `TEST_STOP`. -/
def writeTestStop (v : Bool) (s : State) : State :=
  if !i3cDirect s || s.fuse.oemLock then s
  else { s with fault := { s.fault with testStop := v, testAt := if v then s.stb else s.fault.testAt } }

/-- `TEST_STOP_EXPIRY`. -/
def testStopExpiry (s : State) : State :=
  if s.fault.testStop && decide (s.fault.testAt + testTicks ≤ s.stb) then { s with fault := { s.fault with testStop := false } } else s

/-- A provisioning operation asked for over the sideband. -/
def askProvision (op : Nat) (s : State) : State := if i3cDirect s then provision op s else s

/-- The bytes of a private write that fall on a register, where its highest byte is among them: each with its place. -/
def i3cHit (off : Nat) (data : List Byte) (base len : Nat) : Option (List (Nat × Byte)) :=
  let hit := (data.zipIdx.map (fun e => (off + e.2, e.1))).filter (fun e => decide (base ≤ e.1) && decide (e.1 < base + len))
  if hit.any (fun e => e.1 == base + len - 1) then some (hit.map (fun e => (e.1 - base, e.2))) else none

/-- The byte a write brings to a place of a register. -/
def hitByte (l : List (Nat × Byte)) (i : Nat) : Option Byte := (l.find? (fun e => e.1 == i)).map (·.2)

/-- A private write from an offset upward (21 R434). -/
def i3cWrite (s : State) (off : Nat) (data : List Byte) : State :=
  if !i3cDirect s then s
  else
    let s := { s with i3c := { s.i3c with offset := off % 256 } }
    let s := match (i3cHit off data 0x01 1).bind (hitByte · 0) with
      | some b => if 1 ≤ b.toNat % 8 ∧ b.toNat % 8 ≤ 3 then provision (b.toNat % 8) s else s
      | none => s
    let s := match (i3cHit off data 0x08 4).bind (hitByte · 0) with | some b => clearWakePending b s | none => s
    let s := match (i3cHit off data 0x1C 4).bind (hitByte · 0) with | some b => writeTestStop (b.getLsbD 4) s | none => s
    match (if s.boot.recovery || s.root.provBusy then none else i3cHit off data 0x60 32) with
    | some l =>
      let old := s.root.provData
      { s with root := { s.root with provData := (List.range 32).map (fun i => (hitByte l i).getD (old.getD i 0)) } }
    | none => s

/-- `REGISTER_WRITE`. -/
def registerWrite (bus : Bus) (off : Nat) (data : List Byte) (s : State) : State :=
  match bus with
  | .bar0 fn => bar0Write s fn off data
  | .i3c => i3cWrite s off data

/- ### Common command codes (16 R370, R383; 21 R435) -/

def entdaa (a : BitVec 7) (s : State) : State := if i3cUp s && s.i3c.addr.isNone then { s with i3c := { s.i3c with addr := some a } } else s
def rstdaa (s : State) : State := if i3cUp s then { s with i3c := { s.i3c with addr := none } } else s
def setnewda (a : BitVec 7) (s : State) : State := if i3cDirect s then { s with i3c := { s.i3c with addr := some a } } else s

/-- The provisional identifier (16 Table 16.1). -/
def provisionalId (s : State) : Nat :=
  s.fuse.i3cMfr.toNat * 2 ^ 33 + partBcd s.fuse.part * 2 ^ 16 + s.fuse.i3cInstance.toNat

/-- The identifier goes out most significant byte first (notes/assumptions/51.md). -/
def getpid (s : State) : State := if i3cDirect s then answer s (natLe 6 (provisionalId s)).reverse else s
def getbcr (s : State) : State := if i3cDirect s then answer s [0x00] else s
def getdcr (s : State) : State := if i3cDirect s then answer s [0x00] else s

/-- Bit 5 of the lower byte is the protocol error, and the read clears it (notes/assumptions/51.md). -/
def getstatus (s : State) : State :=
  if i3cDirect s then { answer s [0x00, natLe 1 (32 * b2n s.i3c.protoErr) |>.getD 0 0] with i3c := { s.i3c with protoErr := false } } else s

/-- `SYNC_MARK`: the broadcast needs no dynamic address. -/
def syncMark (m : Byte) (s : State) : State :=
  if i3cUp s then { s with i3c := { s.i3c with mark := m, markValid := true, latch := s.stb } } else s

/- ### The capability descriptor (21 R438 to R441) -/

/-- Some rank of a channel is held on a spare for retraining. -/
def onRetraining (s : State) (ch : Nat) : Bool :=
  [s.dram.spare0, s.dram.spare1].any (fun x => x.retraining && (x.rank0 == some (ch, 0) || x.rank1 == some (ch, 1)))

/-- Byte of a channel in a group record. -/
def channelByte (s : State) (ch : Nat) : Nat :=
  let held := fun (r : Nat) => match s.dram.moved.find? (fun m => m.1 == ch && m.2.1 == r) with | some m => 1 + m.2.2 / 2 | none => 0
  held 0 + 4 * held 1 + 16 * b2n (s.dram.degraded.contains (ch, 0)) + 32 * b2n (s.dram.degraded.contains (ch, 1)) + 64 * b2n (onRetraining s ch)

/-- Whether the reader sees a unit's record whole (21 R441). -/
def seesUnit (fn : Fn) (t1 : Bool) : Bool := match fn with | .pf0 => true | .pf1 => t1

/-- Coppice record (21 Table 21.9). -/
def coppiceRecord (s : State) (fn : Fn) (c : Nat) : List Byte :=
  let x := copTiles s c
  let none_ := List.replicate 8 (0xFF : Byte)
  let st := fun (i : Nat) => let t := 10 * c + i; if x.retired.contains t then 3 else min 2 (x.rowsUsed.filter (· == t)).length
  if !coppicePresent s c then zeroBytes 4 ++ none_ ++ zeroBytes 4
  else if !seesUnit fn (t1Coppice s c) then [0, 0] ++ natLe 1 (b2n (t1Coppice s c)) ++ [0] ++ none_ ++ zeroBytes 4
  else natLe 1 x.logical.length ++ natLe 1 (spareTiles s c).length ++ natLe 1 (b2n (t1Coppice s c)) ++ [0]
    ++ (List.range 8).map (fun n => match x.logical[n]? with | some t => BitVec.ofNat 8 t | none => 0xFF)
    ++ natLe 3 ((List.range 10).map (fun i => st i * 4 ^ i)).sum ++ [0]

/-- Group record (21 Table 21.10). -/
def groupRecord (s : State) (fn : Fn) (g : Nat) : List Byte :=
  if !groupPresent s g then zeroBytes 16
  else if !seesUnit fn (t1Group s g) then [1] ++ natLe 1 (b2n (t1Group s g)) ++ zeroBytes 14
  else [1] ++ natLe 1 (b2n (t1Group s g)) ++ zeroBytes 2 ++ natLe 4 (if g = 0 then 15728 else 15824)
    ++ (List.range 8).flatMap (fun i => natLe 1 (channelByte s (8 * g + i)))

/-- Ranks left on a spare channel. -/
def ranksLeft (x : SpareCh) : Nat := b2n x.rank0.isNone + b2n x.rank1.isNone

/-- Spare record (21 Table 21.10). -/
def spareRecord (s : State) (fn : Fn) (i : Nat) : List Byte :=
  let x := spareOf s i
  let st := if x.retraining then 3 else if x.rank0.isSome || x.rank1.isSome then 2 else 1
  let own := match x.owner with | some .pf0 => 0 | some .pf1 => 1 | none => 0xFF
  if sparesOf s.fuse.part ≤ i then zeroBytes 8
  else natLe 1 st ++ natLe 1 own ++ natLe 1 (if seesUnit fn (x.owner == some .pf1) then ranksLeft x else 0) ++ zeroBytes 5

/-- NAND record (21 Table 21.10). -/
def nandRecord (s : State) (fn : Fn) (n : Nat) : List Byte :=
  let x := nandCh s n
  if !(nandPresent s n && x.inService) then zeroBytes 8
  else natLe 1 (if x.readOnly then 2 else 1) ++ natLe 1 (b2n (t1Nand s n))
    ++ (if seesUnit fn (t1Nand s n) then natLe 2 x.sparePermille ++ natLe 4 100 else zeroBytes 6)

/-- `PRESENT` (21 Table 21.8). -/
def presentBits (s : State) : Nat :=
  let p := s.fuse.part
  let dbg := !s.fuse.dbgOff
  let each := fun (lo : Nat) (f : Nat → Bool) => ((List.range 4).map (fun i => b2n (f i) * 2 ^ (lo + i))).sum
  b2n (portPresent p 0) + 2 * b2n (portPresent p 1) + 4 * b2n (domPresent p domIsp) + 8 * b2n (portPresent p 0) + each 4 (coppicePresent s)
    + each 8 (coppicePresent s) + each 12 (groupPresent s) + 2 ^ 16 * b2n (decide (0 < sparesOf p)) + 2 ^ 17 * b2n (decide (1 < sparesOf p))
    + each 18 (fun n => nandPresent s n && (nandCh s n).inService) + 2 ^ 22 * b2n (hasGroups p) + 2 ^ 23 * b2n dbg + 2 ^ 24 * b2n dbg
    + 2 ^ 25 * b2n dbg + 2 ^ 26

/-- The descriptor (21 Table 21.7). -/
def capsBytes (s : State) (fn : Fn) : List Byte :=
  let groups := (List.range 4).filter (groupPresent s)
  let nands := (List.range 4).filter (fun n => nandPresent s n && (nandCh s n).inService)
  let spares := ((List.range (sparesOf s.fuse.part)).map (fun i => ranksLeft (spareOf s i))).sum
  ascii "WYCP" ++ natLe 2 1 ++ natLe 2 512 ++ natLe 2 (partBcd s.fuse.part) ++ natLe 1 0xB0 ++ natLe 1 (match fn with | .pf0 => 0 | .pf1 => 1)
    ++ natLe 4 s.boot.mapGen ++ natLe 8 s.fuse.gorseDieId.toNat ++ natLe 8 s.fuse.laurelDieId.toNat ++ natLe 8 (presentBits s)
    ++ natLe 2 (128 * unitsOf s.fuse.part) ++ natLe 2 s.regs.ringSplit ++ natLe 4 (partitionReg s) ++ natLe 1 spares ++ natLe 1 (securityVersion s)
    ++ zeroBytes 2 ++ natLe 4 700 ++ natLe 4 (15872 * groups.length) ++ natLe 4 (100 * nands.length)
    ++ (List.range 4).flatMap (coppiceRecord s fn) ++ (List.range 4).flatMap (groupRecord s fn) ++ (List.range 2).flatMap (spareRecord s fn)
    ++ (List.range 4).flatMap (nandRecord s fn) ++ zeroBytes 272

/-- Static conditions of `CAPS_READ`. -/
def paramsCapsRead (c : Cmd) : Bool :=
  argZero c 24 31 && (arg c 32 8 % 8 == 0) && decide (destNeed c 512 ≤ arg c 40 4) && restZero c 44

/-- `CAPS_READ` (21 R438). -/
def runCapsRead (c : Cmd) (s : State) : State :=
  complete (writeDest s c (arg c 32 8) (capsBytes s c.fn)) c .ok (natLe 2 512 ++ zeroBytes 2 ++ natLe 4 s.boot.mapGen)

end Sys2Proof.Machine
end

