-- ==== Sys2Proof/Machine/Streams.lean ====
section
/-! DEFINITION. Streams and carried state: `STREAM_OPEN`, `STREAM_CHUNK`, `STATE_SWAP`, `STREAM_CLOSE`, scan-chunk commits,
prefetches and demotions (10 R242 to R252; 11 R265; 14 R340). -/

namespace Sys2Proof.Machine

/- ### Sizes, images and widths (10 R242, R244, Table 10.8) -/

/-- The header of a state image of a model. -/
def imageHeader (m : Model) : List Byte :=
  natLe 2 1 ++ natLe 2 (layersOf m.image).length ++ natLe 2 m.id ++ [0x05, 0] ++ natLe 8 (64 + wideSize m) ++ zeroBytes 48

/-- FP32 patterns of a state image's elements. -/
def imageValues (m : Model) (bs : List Byte) : List U32 :=
  (List.range (wideSize m / 4)).map (fun i => BitVec.ofNat 32 (field bs (64 + 4 * i) 4))

/-- An element in the narrow width, read back as FP32 (10 Table 10.3). -/
def narrowValue (m : Model) (i : Nat) (x : U32) : U32 :=
  if (m.tmplIn 0).format = 0x04 then BitVec.ofNat 32 (toBf16 x * 65536)
  else
    let e := Config.narrowE m.image i
    intToFp (fpToInt x e (-32768) 32767).1 e

/-- A state rounded to its width. -/
def storeState (m : Model) (narrow : Bool) (vs : List U32) : List U32 :=
  if narrow then vs.zipIdx.map (fun x => narrowValue m x.2 x.1) else vs

/-- Bytes of a state's home copy. -/
def Stream.size (x : Stream) : Nat := if x.narrow then x.wide / 2 else x.wide

/-- The place of a state is poisoned. -/
def statePoisoned (s : State) (x : Stream) : Bool :=
  match stateAlloc s x with
  | some a => (firstPoison s a.tier a.base a.size).isSome
  | none => false

/-- Armed injections strike a read of a state's place. -/
def strikeState (cap : Nat → Nat → Nat → Capture) (x : Stream) (s : State) : State :=
  strike cap ((stateAlloc s x).toList.map (fun a => (a.tier, a.base, a.size))) (fun t => statePoisoned t x) s

/-- Place a state in tier 2: wide where the quota has room, else narrow with `FALLBACK` (10 R243). -/
def placeState (s : State) (m : Model) (x : Stream) (wideOnly : Bool) : Option (State × Stream × Bool) :=
  let s0 := dropAllocs s x.fn [17] x.handle
  let put := fun (n : Nat) (narrow : Bool) =>
    (placeHinted s0 x.fn 6 n 17 x.handle false).map (fun r =>
      let y : Stream := { x with home := 2, narrow := narrow, prefetch := false, carried := storeState m narrow x.carried }
      (setStream r.1 y, y, r.2.2))
  if quotaFits s0 x.fn 2 0 (roundUp x.wide 4096) then put x.wide false
  else if x.fallback && !wideOnly then put (x.wide / 2) true
  else none

/-- Move a state to tier 3 in the width it has (10 R243, R251). -/
def stateToStore (s : State) (x : Stream) : Option State :=
  (placeObject (dropAllocs s x.fn [17] x.handle) x.fn 3 0 x.size 17 x.handle false).map (fun r => setStream r.1 { x with home := 3 })

/- ### STREAM_OPEN (10 R245, R246) -/

/-- Static conditions of `STREAM_OPEN`. -/
def paramsStreamOpen (c : Cmd) : Bool :=
  decide (arg c 26 1 ≤ 3) && decide (arg c 27 1 ≤ 1) && (arg c 28 1 == 2 || arg c 28 1 == 3) && argZero c 29 31
  && (arg c 32 8 != 0 || arg c 40 4 == 0) && restZero c 44 && !ctxValid c.pkt

/-- An image at a tier and offset agrees with a model: its values, or why it cannot be used. -/
def readImage (s : State) (c : Cmd) (m : Model) (v len : Nat) : State × Except Status (List U32) :=
  let n := 64 + wideSize m
  if len < n || !([1, 2, 3].contains (tierOf v)) || !ownsRange s c.fn (tierOf v) (offOf v) len then (s, .error .badParam)
  else
    let r := checkedRead s c 0x54 (tierOf v) (offOf v) n
    let bs := tierRead s (tierOf v) (offOf v) n
    if (r.2.map (fun p => decide (p < n))).getD false then (r.1, .error .poison)
    else if bs.take 64 ≠ imageHeader m then (r.1, .error .badParam)
    else (r.1, .ok (imageValues m bs))

/-- The state, the initial copy and the two context entries of a new stream, or nothing. -/
def newStream (s : State) (c : Cmd) (m : Model) (init : List U32) : Option (State × Stream × Bool) :=
  match newHandle s c.fn (handlesUsed s) with
  | none => none
  | some h =>
    match newHandle s c.fn (h :: handlesUsed s) with
    | none => none
    | some h2 =>
      if !entriesFit s c.fn 2 then none
      else
        let x : Stream := { handle := h, stateHandle := h2, fn := c.fn, session := sessionOf s c.fn, model := m.id, cls := arg c 26 1,
                            fallback := bit (arg c 27 1) 0, home := arg c 28 1, wide := wideSize m, init := init, carried := init }
        let s := { s with work := { s.work with streams := s.work.streams ++ [x] } }
        (placeObject s c.fn 2 0 x.wide 18 h false).bind (fun r =>
          if x.home = 2 then (placeState r.1 m x false).map (fun q => (q.1, q.2.1, r.2.2 || q.2.2))
          else (stateToStore r.1 x).map (fun q => (q, x, r.2.2)))

/-- `STREAM_OPEN`. -/
def runStreamOpen (c : Cmd) (s : State) : State :=
  match modelOf s c.fn (arg c 24 2) with
  | none => complete s c .badParam
  | some m =>
    if !m.recurrent then complete s c .badParam
    else
      let im := if arg c 32 8 = 0 then (s, Except.ok (List.replicate (wideSize m / 4) 0)) else readImage s c m (arg c 32 8) (arg c 40 4)
      match im.2 with
      | .error e => complete im.1 c e
      | .ok init => match newStream im.1 c m init with
        | none => complete im.1 c .quota
        | some (s, x, ev) =>
          complete s ((c.warns ev warnEvicted).warns x.narrow warnNarrow) .ok (natLe 4 x.handle ++ natLe 4 x.wide ++ natLe 1 (b2n x.narrow))

/- ### Stream order (10 R247) -/

/-- Commands that take a stream sequence number. -/
def takesSseq (op : Op) : Bool := op == .streamChunk || op == .stateSwap || op == .streamClose

/-- Open commands of the stream that a command names. A command whose stream was closed (`lost` 2) belongs to none. -/
def streamCmds (s : State) (c : Cmd) : List Cmd :=
  s.cmds.filter (fun d => d.fn == c.fn && takesSseq d.op && ctxHandle d.pkt == ctxHandle c.pkt && d.lost != 2)

/-- Result of `STREAM_CHUNK`; `misc` holds `DECAY_CLAMP`, `NARROWED` and `SPLIT`, `aux` the scan chunks. -/
def chunkResult (c : Cmd) : List Byte :=
  natLe 4 c.cnt ++ natLe 4 c.sseq ++ natLe 2 c.aux ++ natLe 2 (c.misc.getD 0 0 + 2 * c.misc.getD 1 0 + 4 * c.misc.getD 2 0)

/-- A fetched command that names an open stream takes the stream's next number (10 R247). -/
def assignSseq (s : State) (c : Cmd) : State × Cmd :=
  match (if takesSseq c.op then streamOf s c.fn (ctxHandle c.pkt) else none) with
  | none => (s, c)
  | some x =>
    let c : Cmd := { c with sseq := x.nextSseq, misc := [0, 0, 0] }
    let c : Cmd := { c with res := if c.op = .streamChunk then chunkResult c else natLe 4 c.sseq }
    (setStream s { x with nextSseq := x.nextSseq + 1 }, c)

/-- Every command of the stream with a lower number has completed. -/
def streamTurn (s : State) (c : Cmd) : Bool := (streamCmds s c).all (fun d => decide (c.sseq ≤ d.sseq))

/-- The open stream a command names. -/
def streamNamed (s : State) (c : Cmd) : Option Stream := if c.lost = 2 then none else streamOf s c.fn (ctxHandle c.pkt)

/- ### STREAM_CHUNK (10 Table 10.5, R248, R249) -/

/-- Strictly ascending. -/
def ascending : List Nat → Bool
  | a :: b :: t => decide (a < b) && ascending (b :: t)
  | _ => true

/-- Static conditions of `STREAM_CHUNK`. -/
def paramsStreamChunk (c : Cmd) : Bool :=
  let k := blk c 2 2
  let n := blk c 4 4
  let i := descAt c.pkt.block 64
  let o := descAt c.pkt.block 128
  decide (blk c 0 2 = 1) && decide (k ≤ 64) && decide (1 ≤ n) && decide (n ≤ 4096) && decide (blk c 8 1 ≤ 2) && blkZero c 9 63
  && ascending (marksOf c) && (marksOf c).all (fun x => decide (x < n)) && (decide (k = 64) || blkZero c (192 + 2 * k) 319)
  && ctxValid c.pkt && i.present && i.ok false && i.dim1 1 == n && (o.present == decide (blk c 8 1 ≠ 2))
  && (!o.present || (o.ok true && decide (o.form ≤ 1)))

/-- `STREAM_CHUNK` starts: it waits for its turn. -/
def runStreamChunk (c : Cmd) (s : State) : State := withContext c s (fun s =>
  match streamNamed s c with
  | none => complete s c .badParam
  | some x => match modelOf s c.fn x.model with
    | none => complete s c .badParam
    | some m =>
      let o := descAt c.pkt.block 128
      if agrees (m.tmplIn 0) (descAt c.pkt.block 64) (some (blk c 4 4)) && (!o.present || agrees (m.tmplOut 0) o none) && operandsPlaced s c
      then park s c .turn else endCmd s c .badParam)

/-- A chunk whose turn has come takes its slot. -/
def resumeStreamChunk (c : Cmd) (s : State) : Option State :=
  if c.phase ≠ .parked .turn then none
  else match streamNamed s c with
    | none => some (endCmd s c .badParam)
    | some x => if streamTurn s c then some (enterTable (matchWatch s c) c 2 x.handle x.cls x.model) else none

/-- The step that a command is a member of. -/
def stepWith (s : State) (id : Nat) : Option (Step × Member) :=
  s.work.steps.findSome? (fun t => (t.members.find? (fun m => m.cmd == id)).map (fun m => (t, m)))

/-- A scan compare fails: the scan chunk is re-run once, and a second mismatch ends the command (14 R340). -/
def scanMismatch (s : State) (c : Cmd) (cop : Nat) : State :=
  let s := raiseAt s 0x0A cop (captureCmd s c 0x0A cop 1)
  if c.lost = 1 then endCmd s { c with warn := c.warn ||| warnRerun } .poison
  else setCmd s { c with lost := 1, warn := c.warn ||| warnRerun }

/-- The commit of one scan chunk (10 R237 to R240, R248): the carried state, `DONE`, `DECAY_CLAMP` and the outputs of its positions. -/
def commitScan (s : State) (c : Cmd) (m : Model) (x : Stream) : State :=
  let (len, split) := scanChunk c m.chunk c.cnt
  let marks := ((marksOf c).filter (fun k => decide (c.cnt ≤ k) && decide (k < c.cnt + len))).map (· - c.cnt)
  let r := runScan m len marks x.carried x.init s.freeCtr
  let d := descAt c.pkt.block 128
  let s := setStream { s with freeCtr := r.draw } { x with carried := storeState m x.narrow r.carried }
  let idx := modeElems d (blk c 8 1) c.cnt (c.cnt + len) (blk c 4 4)
  let s := { s with work := { s.work with outs := s.work.outs.map (fun o =>
    if o.cmd = c.id ∧ o.out = 0 then { o with done := o.done.filter (fun i => !idx.contains i) } else o) } }
  let s := commitOutBy (fun k i => natLe (elemBytes d.format) (Config.programOut m.image r.ys k i).toNat) s c 0 d idx
  let c : Cmd := { c.warns x.narrow warnNarrow with
    cnt := c.cnt + len, aux := c.aux + 1, lost := 0,
    misc := [max (c.misc.getD 0 0) (b2n r.clamped), c.misc.getD 1 0, max (c.misc.getD 2 0) (b2n split)] }
  setCmd s { c with res := chunkResult c }

/-- `SCAN_CHUNK_COMMIT` (10 R248; 14 R332, R336, R340). -/
def scanChunkCommit (id : Nat) (compareOk : Bool) (s : State) : State :=
  match cmdOf s id, stepWith s id with
  | some c, some (t, mb) =>
    match streamOf s t.fn mb.handle, modelOf s t.fn t.model with
    | some x, some m =>
      if c.op ≠ .streamChunk || c.first + mb.n ≤ c.cnt || s.fault.integrity || s.custody.quiescing || !allOn s (t.cops.map domCop) then s
      else
      let inErr := fun t => inputErr t (descAt c.pkt.block 64) c.cnt (c.cnt + (scanChunk c m.chunk c.cnt).1)
      let bad := fun t => (inErr t).isSome || statePoisoned t x
      let s := strike (captureBy s c (0x4C + t.cops.headD 0)) (tensorRanges c ++ (stateAlloc s x).toList.map (fun a => (a.tier, a.base, a.size))) bad s
      if bad s then endBadInput s t c ((inErr s).getD .poison)
      else
        let hit := t.cops.find? (fun k => (armed s 0x0A k (fun _ => true)).isSome)
        if !compareOk || hit.isSome then scanMismatch s c (hit.getD (t.cops.headD 0)) else commitScan s c m x
    | _, _ => s
  | _, _ => s

/- ### Prefetches and demotions (10 R250, 11 R265) -/

/-- Streams whose state may be demoted: blocked or idle, not executed on and not named by a swap. -/
def demotable (s : State) (x : Stream) : Bool :=
  decide (x.home = 2) && !inStep s x.fn x.handle
  && s.cmds.all (fun d => !(d.fn == x.fn && takesSseq d.op && ctxHandle d.pkt == x.handle)
      || (d.op != .stateSwap && (d.phase == .waiting || d.phase == .parked .turn || d.phase == .parked .page)))

/-- Place a state for a runnable stream, demoting the state that ran longest ago until it fits. -/
def placeDemoting (s : State) (m : Model) (x : Stream) : Nat → Option (State × Stream × Bool)
  | 0 => none
  | k + 1 =>
    match placeState s m x false with
    | some r => some r
    | none =>
      match (sortOn (·.lastRun) (s.work.streams.filter (fun y => y.fn == x.fn && y.handle != x.handle && demotable s y))).head? with
      | none => none
      | some y => (stateToStore s y).bind (fun s => placeDemoting s m x k)

/-- The open chunk of a stream with the lowest number. -/
def frontChunk (s : State) (x : Stream) : Option Cmd :=
  (sortOn (·.sseq) (s.cmds.filter (fun d => d.fn == x.fn && d.op == .streamChunk && ctxHandle d.pkt == x.handle && d.lost != 2))).head?

/-- `PREFETCH_COMMIT` (10 R250): the state is placed under R243, where it has room. A poisoned store unit ends the waiting chunk
(12 R303). -/
def prefetchCommit (handle : Nat) (s : State) : State :=
  match s.work.streams.find? (fun x => x.handle == handle) with
  | none => s
  | some x =>
    if !x.prefetch || !laurelRuns s || s.custody.quiescing || !allOn s (domNand :: memDomsOf s x.fn) then s
    else match modelOf s x.fn x.model with
      | none => s
      | some m =>
        let front := frontChunk s x
        let s := strikeState (fun src inst cls => { capture s src inst cls with master := 0x54, device := false, tenant1 := x.fn == .pf1 }) x s
        if statePoisoned s x then
          let s := setStream s { x with prefetch := false }
          match front with
          | some c => endCmd s c .poison
          | none => s
        else
          match (if front.isSome then placeDemoting s m x (s.work.streams.length + 1) else placeState s m x false) with
          | none => s
          | some (s, y, ev) =>
            match front.bind (fun c => cmdOf s c.id) with
            | some c =>
              let c : Cmd := (c.warns ev warnEvicted).warns y.narrow warnNarrow
              let c : Cmd := { c with misc := [c.misc.getD 0 0, max (c.misc.getD 1 0) (b2n y.narrow), c.misc.getD 2 0] }
              setCmd s { c with res := chunkResult c }
            | none => s

/- ### STATE_SWAP (10 R251) -/

/-- Static conditions of `STATE_SWAP`. -/
def paramsStateSwap (c : Cmd) : Bool :=
  decide (arg c 24 1 ≤ 3) && (arg c 24 1 != 0 || arg c 25 1 == 2 || arg c 25 1 == 3) && decide (arg c 26 1 ≤ 1) && argZero c 27 27
  && restZero c 40 && ctxValid c.pkt

/-- `STATE_SWAP` and `STREAM_CLOSE` start: they wait for their turn. -/
def runStateSwap (c : Cmd) (s : State) : State := withContext c s (fun s =>
  match streamNamed s c with
  | none => complete s c .badParam
  | some x => match modelOf s c.fn x.model with
    | none => complete s c .badParam
    | some m =>
      let v := arg c 28 8
      let useImage := arg c 24 1 = 1 ∨ arg c 24 1 = 2
      if useImage ∧ (!([1, 2, 3].contains (tierOf v)) || !ownsRange s c.fn (tierOf v) (offOf v) (arg c 36 4) || decide (arg c 36 4 < 64 + wideSize m))
      then endCmd s c .badParam else park s c .turn)

/-- A swap commits with its stream as it now stands. -/
def swapDone (s : State) (c : Cmd) (x : Stream) (ev : Bool) : State :=
  complete s ((c.warns ev warnEvicted).warns x.narrow warnNarrow) .ok (natLe 4 c.sseq ++ natLe 1 x.home ++ natLe 1 (b2n x.narrow))

/-- A swap that waits for room in tier 2 writes `RESIDENCY_WAIT` once. -/
def swapWait (s : State) (c : Cmd) (x : Stream) : Option State := if c.resWaited then none else some (residencyWait s c x.handle)

/-- A placement of a swap: in tier 2, or a wait. -/
def swapPlace (s : State) (c : Cmd) (m : Model) (x : Stream) (wideOnly : Bool) : Option State :=
  match placeState s m x wideOnly with
  | none => swapWait s c x
  | some (s, y, ev) =>
    let s := if c.resWaited then progress s c 0x0004 x.handle false else s
    some (swapDone s c y ev)

/-- `STATE_SWAP` acts. -/
def swapAct (c : Cmd) (m : Model) (x : Stream) (s : State) : Option State :=
  let act := arg c 24 1
  let v := arg c 28 8
  let reads := act = 1 ∨ act = 0 ∧ (x.home ≠ arg c 25 1 ∨ arg c 25 1 = 2 ∧ (x.narrow && arg c 26 1 == 1) = true)
  let s := if reads then strikeState (captureBy s c 0x54) x s else s
  if act = 0 ∧ arg c 25 1 = 3 then
    if x.home = 3 then some (swapDone s c x false)
    else if statePoisoned s x then some (endCmd s c .poison)
    else match stateToStore s x with
      | none => some (endCmd s c .quota)
      | some s => some (swapDone s (c.warns x.narrow warnNarrow) { x with home := 3 } false)
  else if act = 0 then
    if x.home = 2 ∧ !(x.narrow && arg c 26 1 == 1) then some (swapDone s c x false)
    else if statePoisoned s x then some (endCmd s c .poison)
    else swapPlace s c m x (arg c 26 1 == 1)
  else if act = 1 then
    if statePoisoned s x then some (endCmd s c .poison)
    else
      let bs := imageHeader m ++ x.carried.flatMap (fun u => natLe 4 u.toNat)
      if tierOf v = 3 ∧ (nandCh s (offOf v / nandSize)).readOnly then some (endCmd s c .quota)
      else some (swapDone (tierWrite s (tierOf v) (offOf v) bs) c x false)
  else
    let im := if act = 2 then readImage s c m v (arg c 36 4) else (s, Except.ok x.init)
    match im.2 with
    | .error e => some (endCmd im.1 c e)
    | .ok vs =>
      let y : Stream := { x with carried := storeState m x.narrow vs }
      if act = 2 ∧ x.home = 2 then
        match placeState im.1 m { x with carried := vs } false with
        | some (s, y, ev) => some (swapDone s c y ev)
        | none => some (swapDone (setStream im.1 y) c y false)
      else some (swapDone (setStream im.1 y) c y false)

/-- A swap whose turn has come, and that finds no prefetch under way, acts. -/
def resumeStateSwap (c : Cmd) (s : State) : Option State :=
  match streamNamed s c with
  | none => some (endCmd s c .badParam)
  | some x => match modelOf s c.fn x.model with
    | none => some (endCmd s c .badParam)
    | some m => if !streamTurn s c || x.prefetch then none else swapAct c m x s

/- ### STREAM_CLOSE (10 R252) -/

/-- Static conditions of `STREAM_CLOSE`. -/
def paramsStreamClose (c : Cmd) : Bool := decide (arg c 24 1 ≤ 1) && restZero c 25 && ctxValid c.pkt

/-- `STREAM_CLOSE` starts: with `ABORT` it cancels the stream's lower commands, and then waits for its turn. -/
def runStreamClose (c : Cmd) (s : State) : State := withContext c s (fun s =>
  match streamNamed s c with
  | none => complete s c .badParam
  | some _ =>
    let s := park s c .turn
    if arg c 24 1 = 1 then
      endAll s (((streamCmds s c).filter (fun d => decide (d.sseq < c.sseq))).map (·.id)) .cancelled
    else s)

/-- The stream is freed; its later commands complete `BAD_PARAM` when their turn comes. -/
def resumeStreamClose (c : Cmd) (s : State) : Option State :=
  match streamNamed s c with
  | none => some (endCmd s c .badParam)
  | some x =>
    if !streamTurn s c then none
    else
      let later := ((streamCmds s c).filter (fun d => d.id != c.id)).map (·.id)
      let s := { s with cmds := s.cmds.map (fun d => if later.contains d.id then { d with lost := 2 } else d) }
      some (complete (freeStream s x) c .ok (natLe 4 c.sseq))

end Sys2Proof.Machine
end

