-- ==== Sys2Proof/Machine/Settle.lean ====
section
/-! DEFINITION. How packets run: the fetch of a packet and its checks in the order of 05 Table 5.11, the start and the resumption of
commands, and `settle`, which lets everything go on that an event has made possible. -/

namespace Sys2Proof.Machine

/- ### Units a command needs (05 Table 5.11 check 3, 00 R1) -/

/-- A placement names a unit that is absent: `COPPICE` names one where tier 1 is in the try order, and a bit of `GROUPS` a channel group
or a NAND channel where tier 2 or tier 3 is in it, AUTO included. A field that has no effect in the tiers tried (12 R285) names no unit:
that is the model's reading of "naming" in 00 Table 0.2 (DEDUCED, notes/assumptions/63.md). -/
def placeAbsent (s : State) (r : PlaceReq) : Bool :=
  (r.order.contains 1 && decide (r.coppice < 4) && !coppicePresent s r.coppice)
    || (r.order.contains 2 && (maskList r.groups).any (fun g => !groupPresent s g))
    || (r.order.contains 3 && (maskList r.groups).any (fun n => !(nandPresent s n && (nandCh s n).inService)))

/-- A coppice number of the family that the part lacks. -/
def lacksCoppice (s : State) (c : Nat) : Bool := decide (c < 4) && !coppicePresent s c

/-- A command names, or its work needs, a unit that is absent (00 R1, Table 0.2; 13 R329). -/
def unitAbsent (s : State) (c : Cmd) : Bool :=
  match c.op with
  | .alloc => placeAbsent s (allocReq c)
  | .placeHint => placeAbsent s (hintReq c)
  | .quotaSet => arg c 25 1 == 3 && lacksCoppice s (arg c 26 1)
  | .modelPin => arg c 26 1 == 2 && absentCoppice s (arg c 27 1)
  | .stepPolicy => arg c 24 1 == 0 && absentCoppice s (arg c 40 1)
  | .graphRun => absentCoppice s (blk c 4 1)
  | .trainStep => absentCoppice s (blk c 7 1)
  | .tableBuild => lacksCoppice s (blk c 4 1)
  | .compress => lacksCoppice s (blk c 2 1)
  | .matmul | .pool2d | .attention => absentCoppice s (blk c 4 1)
  | .conv2d => absentCoppice s (blk c 4 1)
    || (blk c 34 1 == 1 && (!portPresent s.fuse.part 0 || (decide (blk c 35 1 ≤ 1) && !portPresent s.fuse.part (blk c 35 1))))
  | .cameraConfig | .cameraParams | .frameRead => !portPresent s.fuse.part 0 || cameraAbsent s c
  | .listenPolicy => policyAbsent s c
  | .domainPolicy => policyUnitAbsent s c
  | .faultInject => injectRange c && !injectPresent s (arg c 24 1) (arg c 25 1) (arg c 28 8)
  | .groupJoin | .peerSend | .peerCredit | .groupLeave => !hasGroups s.fuse.part
  | .counterRead => arg c 24 1 == 1 && s.fuse.dbgOff
  | .traceConfig | .watchSet => s.fuse.dbgOff
  | _ => false

/-- Commands that PF1 may send while `PARTITION` is zero (13 R305). -/
def unpartitioned (op : Op) : Bool := op == .nop || op == .capsRead || op == .attest

/-- The function may send the opcode (05 Table 5.10; 13 R305, R317). -/
def opAllowed (s : State) (fn : Fn) (op : Op) : Bool :=
  match fn with
  | .pf0 => op != .keyExchange
  | .pf1 => !pf0Only op && (unpartitioned op || s.regs.partition != 0)

/- ### Parameters (05 Table 5.11 check 7) -/

/-- What a command's packet and the configuration decide at fetch: its fields lie in their ranges. -/
def paramsOk (s : State) (c : Cmd) : Bool :=
  match c.op with
  | .nop | .badOpcode | .sessionClose | .watchSet => true
  | .capsRead => paramsCapsRead c
  | .sessionOpen => paramsSessionOpen s c
  | .attest => paramsAttest c
  | .keyExchange => paramsKeyExchange c
  | .cancel => paramsCancel c
  | .ringCreate => paramsRingCreate s c
  | .ringDestroy => paramsRingDestroy s c
  | .semCreate => paramsSemCreate c
  | .semSignal | .semWait => paramsSemCount c
  | .fence => paramsFence c
  | .alloc => paramsAlloc c
  | .free => paramsFree c
  | .copy => paramsCopy c
  | .placeHint => paramsPlaceHint c
  | .quotaSet => paramsQuotaSet c
  | .tableBuild => paramsTableBuild s c
  | .compress => paramsCompress s c
  | .modelLoad => paramsModelLoad c
  | .modelPin => paramsModelPin s c
  | .modelEvict => paramsModelEvict c
  | .modelInfo => paramsModelInfo c
  | .seqCreate => paramsSeqCreate c
  | .seqFree => paramsCtxOnly c
  | .seqAppend => paramsSeqAppend c
  | .seqFork => paramsSeqFork c
  | .streamOpen => paramsStreamOpen c
  | .streamChunk => paramsStreamChunk c
  | .streamClose => paramsStreamClose c
  | .stateSwap => paramsStateSwap c
  | .graphRun => paramsGraphRun s c
  | .stepPolicy => paramsStepPolicy s c
  | .matmul => paramsMatmul s c
  | .conv2d => paramsConv2d s c
  | .pool2d => paramsPool2d s c
  | .attention => paramsAttention s c
  | .trainStep => paramsTrainStep s c
  | .listenPolicy => paramsListenPolicy s c
  | .wakeArm => paramsWakeArm c
  | .audioRead => paramsAudioRead c
  | .cameraConfig => paramsCameraConfig s c
  | .cameraParams => paramsCameraParams c
  | .frameRead => paramsFrameRead c
  | .domainPolicy => paramsDomainPolicy c
  | .powerLimit => paramsPowerLimit c
  | .powerStats => paramsPowerStats c
  | .fwStage => paramsFwStage c
  | .fwActivate => paramsFwActivate c
  | .fwQuery => paramsFwQuery c
  | .faultRead => paramsFaultRead c
  | .faultClear => paramsFaultClear c
  | .faultInject => paramsFaultInject c
  | .counterRead => paramsCounterRead c
  | .traceConfig => paramsTraceConfig c
  | .timeSync => paramsTimeSync c
  | .groupJoin => paramsGroupJoin c
  | .peerSend => paramsPeerSend c
  | .peerCredit => paramsPeerCredit c
  | .groupLeave => paramsGroupLeave c

/- ### Start and resumption -/

/-- A command's body, once it has started. -/
def runCmd (c : Cmd) (s : State) : State :=
  match c.op with
  | .nop => runNop c s
  | .badOpcode => complete s c .badOpcode
  | .capsRead => runCapsRead c s
  | .sessionOpen => runSessionOpen c s
  | .sessionClose => runSessionClose c s
  | .attest => runAttest c s
  | .keyExchange => runKeyExchange c s
  | .cancel => runCancel c s
  | .ringCreate => runRingCreate c s
  | .ringDestroy => runRingDestroy c s
  | .semCreate => runSemCreate c s
  | .semSignal => runSemSignal c s
  | .semWait => runSemWait c s
  | .fence => runFence c s
  | .alloc => runAlloc c s
  | .free => runFree c s
  | .copy => runCopy c s
  | .placeHint => runPlaceHint c s
  | .quotaSet => runQuotaSet c s
  | .tableBuild => runTableBuild c s
  | .compress => runCompress c s
  | .modelLoad => runModelLoad c s
  | .modelPin => runModelPin c s
  | .modelEvict => runModelEvict c s
  | .modelInfo => runModelInfo c s
  | .seqCreate => runSeqCreate c s
  | .seqFree => runSeqFree c s
  | .seqAppend => runSeqAppend c s
  | .seqFork => runSeqFork c s
  | .streamOpen => runStreamOpen c s
  | .streamChunk => runStreamChunk c s
  | .streamClose => runStreamClose c s
  | .stateSwap => runStateSwap c s
  | .graphRun => runGraphRun c s
  | .stepPolicy => runStepPolicy c s
  | .matmul => runMatmul c s
  | .conv2d => runConv2d c s
  | .pool2d => runPool2d c s
  | .attention => runAttention c s
  | .trainStep => runTrainStep c s
  | .listenPolicy => runListenPolicy c s
  | .wakeArm => runWakeArm c s
  | .audioRead => runAudioRead c s
  | .cameraConfig => runCameraConfig c s
  | .cameraParams => runCameraParams c s
  | .frameRead => runFrameRead c s
  | .domainPolicy => runDomainPolicy c s
  | .powerLimit => runPowerLimit c s
  | .powerStats => runPowerStats c s
  | .fwStage => runFwStage c s
  | .fwActivate => runFwActivate c s
  | .fwQuery => runFwQuery c s
  | .faultRead => runFaultRead c s
  | .faultClear => runFaultClear c s
  | .faultInject => runFaultInject c s
  | .counterRead => runCounterRead c s
  | .traceConfig => runTraceConfig c s
  | .watchSet => runWatchSet c s
  | .timeSync => runTimeSync c s
  | .groupJoin => runGroupJoin c s
  | .peerSend => runPeerSend c s
  | .peerCredit => runPeerCredit c s
  | .groupLeave => runGroupLeave c s

/-- A parked command goes on where what it waits for has come; the waits that an event of their own ends answer nothing here. -/
def resumeCmd (c : Cmd) (s : State) : Option State :=
  match c.op with
  | .audioRead => resumeAudioRead c s
  | .domainPolicy => if c.phase = .parked .policyHold then (if c.aux = 1 then some (runDomainPolicy c s) else none) else resumeDomainPolicy c s
  | .fence => resumeFence c s
  | .frameRead => resumeFrameRead c s
  | .free => resumeFree c s
  | .fwActivate => if c.phase = .parked .policyHold then (if c.aux = 1 then some (runFwActivate c s) else none) else resumeFwActivate c s
  | .groupJoin => resumeGroupJoin c s
  | .groupLeave => resumeGroupLeave c s
  | .modelEvict => tryEvict c s
  | .modelLoad => resumeModelLoad c s
  | .modelPin => resumeModelPin c s
  | .peerSend => resumePeerSend c s
  | .semWait => resumeSemWait c s
  | .seqAppend => resumeSeqAppend c s
  | .seqCreate => resumeSeqCreate c s
  | .seqFork => tryFork c s
  | .stateSwap => resumeStateSwap c s
  | .streamChunk => resumeStreamChunk c s
  | .streamClose => resumeStreamClose c s
  | _ => none

/-- The tier of the places a command's inline operands name. -/
def namesTier (c : Cmd) (t : Nat) : Bool := tierOf (arg c 24 8) == t || tierOf (arg c 32 8) == t

/-- Domains a command's own work needs before it starts (15 R358). Operators and steps ask for theirs as they go. -/
def cmdDoms (s : State) (c : Cmd) : List Nat :=
  let mem := memDomsOf s c.fn
  let cops := (coppicesOf s c.fn).map domCop
  match c.op with
  | .sessionOpen | .attest | .keyExchange => [domRoot, domDma]
  | .fwStage | .fwActivate => [domRoot, domMema, domDma]
  | .capsRead | .audioRead | .cameraConfig | .powerStats | .fwQuery | .faultRead | .modelInfo => [domDma]
  | .frameRead => mem ++ [domDma]
  | .counterRead | .traceConfig | .watchSet => [domObs, domDma]
  | .copy => (if namesTier c 1 then cops else []) ++ (if namesTier c 2 then mem else []) ++ (if namesTier c 3 then domNand :: mem else []) ++ [domDma]
  | .tableBuild => mem ++ [domCop (blk c 4 1)]
  | .compress => mem ++ [domCop (blk c 2 1)]
  | .modelLoad | .modelEvict => mem ++ [domNand, domDma]
  | .modelPin => mem ++ (if arg c 26 1 = 2 then (maskList (arg c 27 1)).map domCop else [])
  | .seqCreate | .seqFork | .seqFree => mem
  | .streamOpen | .stateSwap => mem ++ [domNand]
  | .peerSend => mem ++ (if tierOf (arg c 28 8) = 1 then cops else []) ++ [domDma]
  | _ => []

/-- Commands that Gorse serves over the die link: power, sensors, identity, firmware and the master log (01 R6, R9). -/
def viaLink : Op → Bool
  | .sessionOpen | .attest | .keyExchange | .listenPolicy | .wakeArm | .audioRead | .cameraConfig | .cameraParams | .frameRead | .domainPolicy
  | .powerLimit | .powerStats | .fwStage | .fwActivate | .fwQuery | .faultRead | .faultClear => true
  | _ => false

/-- Commands whose own effect is on session state or ring bindings, or that the DMA reads host memory for (01 R7). -/
def hostFacing (c : Cmd) : Bool :=
  match c.op with
  | .sessionOpen | .sessionClose | .ringCreate | .ringDestroy | .fwStage | .groupJoin => true
  | .copy => tierOf (arg c 24 8) == 8
  | .modelLoad => arg c 24 1 != 1
  | .stateSwap => true
  | _ => false

/-- What a command needs beside its domains: the die link where Gorse serves it, which carries nothing while it retrains (01 R9), and
the lease where it acts on the host-facing state (01 R7; notes/assumptions/64.md). -/
def pathOpen (s : State) (c : Cmd) : Bool := (!viaLink c.op || s.dlink.trained) && (!hostFacing c || leaseHeld s)

/-- A command that may start, or commit its next unit, as soon as its domains are ON. -/
def startable (s : State) (c : Cmd) : Bool := ((c.phase == .waiting && mayStart s c) || c.phase == .parked .units) && pathOpen s c

/-- Demand domains for a tenant's work, unless all of them are ON. -/
def demandFor (fn : Fn) (ds : List Nat) (s : State) : State := if allOn s ds then s else demandWork s fn ds

/-- Demand what a residency works in, unless it is there: its domains, and of the channel groups only those it fills (01 R15, 15 R359). -/
def demandResidency (s : State) (m : Model) : State :=
  let gs := residencyGroups s m
  if allOn s (residencyDoms s m) && gs.all (fun g => !s.power.selfRefresh.toNat.testBit g) then s
  else demandGroups s (residencyDoms s m) gs

/-- Demand the domains of every command that waits for them only, of every operator and step in flight, of every residency under way and
of every prefetch (15 R358). -/
def demandAll (s : State) : State :=
  let s := (s.cmds.filter (startable s)).foldl (fun s c => demandFor c.fn (cmdDoms s c) s) s
  let s := s.work.jobs.foldl (fun s j => match cmdOf s j.id with | some c => demandFor c.fn (jobDoms s c j) s | none => s) s
  let s := s.work.steps.foldl (fun s x => demandFor x.fn (stepDoms s x) s) s
  let s := (s.work.models.filter (·.loading)).foldl demandResidency s
  (s.work.streams.filter (·.prefetch)).foldl (fun s x => demandFor x.fn (domNand :: memDomsOf s x.fn) s) s

/-- Start a command (05 R113, Table 5.9). -/
def startCmd (s : State) (c : Cmd) : State :=
  let c := { c with phase := .running, startStamp := ctrlStamp s }
  runCmd c (progress (setCmd s c) c 0x0005 0 true)

/-- What a command can do now, if anything. -/
def tryCmd (s : State) (c : Cmd) : Option State :=
  match c.phase with
  | .waiting => if mayStart s c && pathOpen s c && !overdue s c && allOn s (cmdDoms s c) then some (startCmd s c) else none
  | .running => none
  | .parked _ => if pathOpen s c && !overdue s c then resumeCmd c s else none

/-- What follows at once from any change: prefetches, residencies and the sequence table (10 R250; 11 R256, R271), and boosts (R268). -/
def tidy (s : State) : State := refreshSlots (boostAll (serveSlots (startPrefetches s)))

/-- Let commands start and go on, one at a time in fetch order, until none can. -/
def settleLoop : Nat → State → State
  | 0, s => s
  | n + 1, s =>
    match s.cmds.findSome? (tryCmd s) with
    | some t => settleLoop n (tidy t)
    | none => s

/-- CTRL is ON again although it had given the lease up: Gorse grants the next epoch (01 R25). -/
def regrant (s : State) : State :=
  if s.custody.state = .relinquished ∧ domOn s domCtrl = true ∧ s.boot.laurelReleased = true ∧ s.custody.grantAsked = false
    ∧ s.custody.noReturn = false ∧ s.dlink.trained = true ∧ gorseRuns s = true then grantLease s else s

/-- Held writes of a function in D0 make the device leave L1.2 (05 R127). -/
def wakeLink (s : State) : State :=
  if s.heldOut.any (fun h => dState s h.fn == .d0) && s.pcie.link == .l12 then demandDom (leaveLink (leaveLink s .pf0) .pf1) domLink domCtrl 0x01 else s

/-- Retirements wait only for the end of their group's self refresh (12 R295). -/
def resumeRetires (s : State) : State :=
  (List.range 4).foldl (fun s g =>
    if s.dram.pendingRetire.any (fun x => x.1 / 8 == g) && !s.power.selfRefresh.toNat.testBit g && domOn s (memOfGroup g)
    then resumeRetire s g else s) s

/-- More steps than any settling takes: each command starts once and goes on a bounded number of times. -/
def settleFuel : Nat := 1000000

/-- Everything that an event has made possible happens, on the tick of the event. Last, the boosts of 11 R268 are those of the
wait-for edges that stand. -/
def settle (s : State) : State :=
  let s := resumeRetires (regrant s)
  let s := if laurelRuns s then demandAll (settleLoop settleFuel (tidy s)) else s
  boostAll (wakeLink s)

/-- End the convolutions that a closed gate killed, at stamps that `due` names (08 R201), and then the commands of which `late` says that their
deadline has passed (02 R43), while the command processors run. -/
def sweepBy (due : State → Nat → Bool) (late : State → Cmd → Bool) (s : State) : State :=
  if !laurelRuns s then s
  else
    let s := endImages (due s) s
    (s.cmds.filter (late s)).foldl (fun s c => match cmdOf s c.id with | some d => endCmd s d (deadlineStatus d.phase) | none => s) s

/-- Commands whose deadline has passed end first (02 R43, R45). -/
def sweep (s : State) : State := sweepBy (fun _ _ => true) overdue s

/-- Commands whose deadline passed before this tick end. -/
def sweepOld (s : State) : State := sweepBy (fun s t => decide (t < ctrlStamp s)) longOverdue s

/-- An event of the device or its surroundings: overdue commands end, the event happens, and what follows from it. -/
def during (f : State → State) (s : State) : State := settle (f (sweep s))

/-- What a fetch or a loss of a peer makes possible, and then the ends of the commands whose deadline passes on this very tick, over which
`CANCELLED` and `GROUP_ABSENT` rank (02 R45, 16 R380). -/
def settleLate (s : State) : State := settle (sweep (settle s))

/-- An event whose ends rank before the deadlines of its own tick. -/
def duringEnd (f : State → State) (s : State) : State := settleLate (f (sweepOld s))

/- ### Fetch (05 R104, R112) -/

/-- A list of bytes cut or filled with zeros to a length. -/
def fitBytes (n : Nat) (bs : List Byte) : List Byte := (bs ++ zeroBytes n).take n

/-- Parameter bytes of a packet. -/
def bodyLen : Fn → Nat | .pf0 => 40 | .pf1 => 88

/-- A packet's parameter block as plaintext, or why it cannot be used (05 R104; 13 R320 to R322). -/
def openBlock (s : State) (isSealed : Bool) (p : Packet) : Except Status (List Byte) :=
  if !indirect p then .ok []
  else if !isSealed then .ok (fitBytes p.plen p.block)
  else if field p.block 8 8 ≠ p.plen then .error .badParam
  else
    let r := unsealBuffer (s.sess1.keys.getD 2 0) p.block
    if r.2 then .ok r.1 else .error .authFail

/-- `NOT_BEFORE` and `DEADLINE` expanded at the fetch, where they are in force (02 R30, R42, R43). -/
def expandedNb (s : State) (p : Packet) : Option Int := if flag p 0 then some (expand32 p.notBefore (ctrlStamp s)) else none
def expandedDl (s : State) (p : Packet) : Option Int := if flag p 1 then some (expand32 p.deadline (ctrlStamp s)) else none

/-- The command a packet becomes; `auth` says that check 1 passes, and `body` is its plaintext. -/
def cmdOfPacket (s : State) (op : Op) (p : Packet) (auth : Bool) (body block : List Byte) : Cmd :=
  let fn := fnOfRing s p.ring
  let r := ringOf s p.ring
  { id := s.nextCmd, fn := fn, op := op, pkt := { p with body := body, block := block }, pos := r.fetched, session := r.session,
    cls := r.cls, isSealed := fn == .pf1 && (flag p 5 || !auth), fetchStamp := ctrlStamp s,
    nb := (expandedNb s p).map Int.toNat, dl := (expandedDl s p).map Int.toNat }

/-- The packet is taken: `FETCHED` passes it, a sealed packet that authenticates advances the expected `SEQ`, and the completion word
shows it (05 R102, R104, R106; 17 Table 17.6). -/
def takePacket (s : State) (c : Cmd) (opc : Nat) (auth : Bool) : State :=
  let s := takeTurn s c.fn c.pkt.ring
  let r := ringOf s c.pkt.ring
  let s := setRing s { r with fetched := r.fetched + 1, expSeq := if auth && c.isSealed then r.expSeq + 1 else r.expSeq }
  let s := { s with nextCmd := s.nextCmd + 1, cmds := s.cmds ++ [c],
                    fetchedLog := s.fetchedLog ++ [{ id := c.id, ring := c.pkt.ring, pos := c.pos, seq := c.pkt.seq }] }
  traceCmd (writeWord s c.pkt.ring) c 0x01 (c.pkt.ring + 65536 * opc)

/-- Checks 2 to 7 of 05 Table 5.11, in their order, on a packet that authenticates: the status of the first that fails. A block that
cannot be read fails with the parameters (13 R321, R322). -/
def fetchStatus (s : State) (c : Cmd) (blockErr : Option Status) : Option Status :=
  let p := c.pkt
  if c.op = .badOpcode then some .badOpcode
  else if !opAllowed s c.fn c.op || unitAbsent s c then some .notPresent
  else if !sessionFree c.op && c.session == 0 then some .noSession
  else if !check5 c.fn c.op p p.body (expandedNb s p) (expandedDl s p) then some .badParam
  else if (match expandedDl s p with | some d => decide (d < (ctrlStamp s : Int)) | none => false) then some .deadlineMissed
  else if blockErr.isSome then blockErr
  else if !paramsOk s c then some .badParam
  else if privBlocked c.op && s.listen.priv then some .privacyBlock
  else none

/-- Fetch a packet (05 R104, R112): one that fails a check completes at once with no effect; the others wait for their start. -/
def fetchPacket (op : Op) (opc : Nat) (p : Packet) (s : State) : State :=
  let fn := fnOfRing s p.ring
  let p := { p with body := fitBytes (bodyLen fn) p.body }
  match authenticate s fn op opc p with
  | none =>
    let c := cmdOfPacket s op p false p.body []
    complete (takePacket s c opc false) c .authFail
  | some body =>
    let b := openBlock s (fn == .pf1 && flag p 5) { p with body := body }
    let c := cmdOfPacket s op p true body (match b with | .ok l => l | .error _ => [])
    match fetchStatus s c (match b with | .ok _ => none | .error e => some e) with
    | some st => complete (takePacket s c opc true) c st (if st = .privacyBlock then blockedResult s c else [])
    | none =>
      let r := assignSseq (takePacket s c opc true) c
      setCmd r.1 r.2

/-- A packet's row: the device fetches it, where the ring gives it one to fetch now. -/
def fetchRow (op : Op) (opc : Nat) (p : Packet) (s : State) : State :=
  if canFetch s p.ring then duringEnd (fetchPacket op opc p) s else s

/- ### Time -/

/-- Which audio clocks rise on a tick: PDM_CLK_B at 3.072 MHz on every tick, PDM_CLK_A on every tick or, at 768 kHz, on multiples of 4, and
VIB_FS for one bit clock of 3 ticks from each multiple of 192 (02 R28; 03 R48). -/
def tickPins (p : Pins) (t : Nat) : Pins :=
  { p with pdmARose := decide (p.pdmClkA ≠ 0) && (decide (p.pdmClkA ≠ 768) || t % 4 == 0), pdmBRose := decide (p.pdmClkB ≠ 0),
           vibFs := decide (p.vibBclk ≠ 0) && decide (t % 192 < 3) }

/-- A command that goes on tick by tick commits its next unit: `COPY` 64 KiB, `COMPRESS` its result, `PEER_SEND` a wire unit (12 R289, 07 R177, 16 R378; notes/assumptions/16.md). -/
def workUnit (s : State) (id : Nat) : State :=
  match cmdOf s id with
  | some c =>
    if c.phase != .parked .units || !pathOpen s c || overdue s c || !allOn s (cmdDoms s c) then s
    else if c.op = .copy then copyUnit c s
    else if c.op = .compress then commitCompress c s
    else if c.op = .peerSend then sendUnit c s
    else s
  | none => s
def workUnits (s : State) : State :=
  if !laurelRuns s || s.custody.quiescing || s.fault.integrity then s else (s.cmds.map (·.id)).foldl workUnit s

/-- What a tick brings by itself: units of moves commit, the events staged on the tick before are written (17 R391 to R394), and a new power limit starts with its
window (15 R367). -/
def tickWork (s : State) : State := workUnits (sweepOld (tickCams (portDrain (traceDrain (startWindow { s with stb := s.stb + 1, pins := tickPins s.pins (s.stb + 1) })))))

/-- One tick of the STB, which counts from the release of the Gorse reset (02 R27), and what follows from it. It is what a step does on an
empty queue (notes/assumptions/13.md). -/
def stbTick (s : State) : State := if s.boot.inReset then s else settle (tickWork s)

end Sys2Proof.Machine
end

