-- ==== Sys2Proof/Machine/EventRows.lean ====
section
/-! DEFINITION. The rows of the opcode table that are accesses to registers, events at pins and the device's own events: one meaning per
row, over the operations of the family files. -/

namespace Sys2Proof.Machine

/- ### Register accesses of the host, where BAR0 is reached (21 R429; 19 R414) -/

/-- A doorbell write; the recovery loader has no doorbells. -/
def doorbellWrite (fn : Fn) (ring size : Nat) (v : U64) (s : State) : State :=
  if barReached s && !s.boot.recovery then ringDoorbell s fn ring size v else s

def adminEnableWrite (fn : Fn) (v : U32) (s : State) : State :=
  if barReached s && !s.boot.recovery then writeAdminEnable s fn v else s

def ringSplitWrite (fn : Fn) (v : U32) (s : State) : State := if barReached s then writeRingSplit s fn v else s
def partitionWrite (fn : Fn) (v : U32) (s : State) : State := if barReached s then writePartition s fn v else s
def memConfigWrite (fn : Fn) (v : U64) (s : State) : State := if barReached s then writeMemConfig s fn v else s
def rcvCtrlWrite (v : U64) (s : State) : State := if barReached s then writeRcvCtrl v s else s

/-- A read of `RING_STATUS`; after an INTEGRITY fault it answers all ones (14 R336). -/
def ringStatusAccess (fn : Fn) (ring : Nat) (half : Option Bool) (s : State) : State :=
  if barReached s || (s.fault.integrity && !s.boot.inReset) then readRingStatus s fn ring half else s

/- ### Time checks of packets (02 R42, R43) -/

/-- A held packet's `NOT_BEFORE` has come. -/
def nbReached (s : State) (id : Nat) : Bool :=
  s.cmds.any (fun c => c.id == id && c.phase == .waiting && (c.nb.map (fun t => decide (t ≤ ctrlStamp s))).getD false)

/-- A deadline has passed without the command's commit. -/
def deadlinePassed (id : Nat) (s : State) : State :=
  match cmdOf s id with
  | some c => if laurelRuns s && overdue s c then endCmd s c (deadlineStatus c.phase) else s
  | none => s

/- ### The rows -/

/-- `NOT_BEFORE_REACHED` (R42). A held packet's NOT_BEFORE target tick arrives and the packet may start. -/
def execNotBeforeReached (id : Nat) (s : State) : Host.Outcome State Fault Refusal :=
  .next (if nbReached s id then during (fun s => s) s else s)

/-- `DEADLINE_PASSED` (R43). A command's deadline passes uncommitted; its uncommitted work is killed and it completes with the R43 status. -/
def execDeadlinePassed (id : Nat) (s : State) : Host.Outcome State Fault Refusal :=
  .next (settle (deadlinePassed id s))

/-- `DOORBELL` (R101). An 8-byte doorbell write publishes SQ_TAIL and CQ_HEAD, or is refused with DB_ERROR. -/
def execDoorbell (fn : Fn) (ring : Nat) (size : Nat) (v : U64) (s : State) : Host.Outcome State Fault Refusal :=
  .next (during (doorbellWrite fn ring size v) s)

/-- `ADMIN_ENABLE` (R431). A write to ADMIN_ENABLE enables the admin ring (zeroing its completion word) or disables it, or is refused with ADMIN_ERROR. -/
def execAdminEnable (fn : Fn) (v : U32) (s : State) : Host.Outcome State Fault Refusal :=
  .next (during (adminEnableWrite fn v) s)

/-- `RING_SPLIT` (R97). A write sets how many rings PF1 owns, accepted only while both admin rings are disabled. -/
def execRingSplit (fn : Fn) (v : U32) (s : State) : Host.Outcome State Fault Refusal :=
  .next (during (ringSplitWrite fn v) s)

/-- `PARTITION` (R306). A write sets the tenant partition and starts clearing of the moved units. -/
def execPartition (fn : Fn) (v : U32) (s : State) : Host.Outcome State Fault Refusal :=
  .next (during (partitionWrite fn v) s)

/-- `MEM_CONFIG` (R290). A write sets grains, disturbance threshold and NAND read limit; a grain change evicts pool models and empties frame stores. -/
def execMemConfig (fn : Fn) (v : U64) (s : State) : Host.Outcome State Fault Refusal :=
  .next (during (memConfigWrite fn v) s)

/-- `RING_STATUS_READ` (R430). A read of RING_STATUS returns the ring state and clears DB_IGNORED. -/
def execRingStatusRead (fn : Fn) (ring : Nat) (half : Option Bool) (s : State) : Host.Outcome State Fault Refusal :=
  .next (during (ringStatusAccess fn ring half) s)

/-- `REGISTER_WRITE` (R429). A write to a BAR0 or I3C register that has no row of its own updates its writable fields. -/
def execRegisterWrite (bus : Bus) (offset : Nat) (data : List Byte) (s : State) : Host.Outcome State Fault Refusal :=
  .next (during (registerWrite bus offset data) s)

/-- `PROGRAM_OEM_KEY` (R313). PROV_OP 1 programs OEM_KEY from PROV_DATA and blows OEM_KEY_SET, subject to the provisioning conditions. -/
def execProgramOemKey (s : State) : Host.Outcome State Fault Refusal :=
  .next (askProvision 1 s)

/-- `BLOW_OEM_LOCK` (R313). PROV_OP 2 blows OEM_LOCK, subject to the provisioning conditions. -/
def execBlowOemLock (s : State) : Host.Outcome State Fault Refusal :=
  .next (askProvision 2 s)

/-- `BLOW_DBG_OFF` (R329). PROV_OP 3 blows DBG_OFF, removing trace, watch and binned counters. -/
def execBlowDbgOff (s : State) : Host.Outcome State Fault Refusal :=
  .next (askProvision 3 s)

/-- `WAKE_PENDING` (R436). A write of 1 to WAKE_PENDING clears the flag. -/
def execWakePending (v : Byte) (s : State) : Host.Outcome State Fault Refusal :=
  .next (clearWakePending v s)

/-- `WAKE_COUNTS_READ` (R63). A read of WAKE_COUNTS returns and clears the extra-wake and privacy-press counts. -/
def execWakeCountsRead (s : State) : Host.Outcome State Fault Refusal :=
  .next (readWakeCounts s)

/-- `TEST_STOP` (R437). A write to TEST_STOP starts or ends the suppression of ALIVE edges. -/
def execTestStop (v : Bool) (s : State) : Host.Outcome State Fault Refusal :=
  .next (writeTestStop v s)

/-- `TEST_STOP_EXPIRY` (R437). 12,288 tk after the write, TEST_STOP clears itself and ALIVE edges resume. -/
def execTestStopExpiry (s : State) : Host.Outcome State Fault Refusal :=
  .next (testStopExpiry s)

/-- `RCV_CTRL_GO` (R414). A write of GO starts fetching, checking and writing a recovery image. -/
def execRcvCtrlGo (v : U64) (s : State) : Host.Outcome State Fault Refusal :=
  .next (rcvCtrlWrite v s)

/-- `RECOVERY_LOAD_DONE` (R414). A recovery load ends, writing REASON and clearing the component's FAILED bit if the image was accepted. -/
def execRecoveryLoadDone (hostOk : Bool) (norOk : Bool) (s : State) : Host.Outcome State Fault Refusal :=
  .next (during (recoveryLoadDone hostOk norOk) s)

/-- `RECOVERY_RESET` (R414). 3,072 tk after FAILED becomes 0, the loader performs a Gorse power-on reset with BOOT_CAUSE 2. -/
def execRecoveryReset (s : State) : Host.Outcome State Fault Refusal :=
  .next (during recoveryReset s)

/-- `ENTDAA` (R370). The I3C target takes part in dynamic address assignment. -/
def execEntdaa (addr : BitVec 7) (s : State) : Host.Outcome State Fault Refusal :=
  .next (entdaa addr s)

/-- `RSTDAA` (R370). The I3C target drops its dynamic address. -/
def execRstdaa (s : State) : Host.Outcome State Fault Refusal :=
  .next (rstdaa s)

/-- `SETNEWDA` (R435). The I3C target takes a new dynamic address. -/
def execSetnewda (addr : BitVec 7) (s : State) : Host.Outcome State Fault Refusal :=
  .next (setnewda addr s)

/-- `GETPID` (R370). The I3C target returns its 48-bit provisional ID. -/
def execGetpid (s : State) : Host.Outcome State Fault Refusal :=
  .next (getpid s)

/-- `GETBCR` (R370). The I3C target returns BCR 0x00. -/
def execGetbcr (s : State) : Host.Outcome State Fault Refusal :=
  .next (getbcr s)

/-- `GETDCR` (R370). The I3C target returns DCR 0x00. -/
def execGetdcr (s : State) : Host.Outcome State Fault Refusal :=
  .next (getdcr s)

/-- `GETSTATUS` (R435). The I3C target returns its protocol-error bit and zeros elsewhere. -/
def execGetstatus (s : State) : Host.Outcome State Fault Refusal :=
  .next (getstatus s)

/-- `SYNC_MARK` (R383). On the broadcast vendor CCC 0x7B, the unit latches its STB and the mark number. -/
def execSyncMark (mark : Byte) (s : State) : Host.Outcome State Fault Refusal :=
  .next (syncMark mark s)

/-- `GORSE_POWER_ON_RESET` (R403). GRST_N low or a low Gorse rail puts Gorse, and with it the whole device, in reset. -/
def execGorsePowerOnReset (cause : ResetCause) (s : State) : Host.Outcome State Fault Refusal :=
  .next (during (gorsePowerOnReset cause) s)

/-- `GORSE_RESET_RELEASE` (R403). 8,192 tk after the reset conditions end, the reset releases, the STB starts at 0 and the boot chain begins. -/
def execGorseResetRelease (s : State) : Host.Outcome State Fault Refusal :=
  .next (during gorseResetRelease s)

/-- `ROM_CHECKS_DONE` (R405). The mask ROM finishes checking the six NOR images and starts GORSE_MAIN or enters recovery. -/
def execRomChecksDone (dirOk : Bool) (s : State) : Host.Outcome State Fault Refusal :=
  .next (during (romChecksDone dirOk) s)

/-- `LAUREL_RELEASE` (R17). After its firmware is verified, Laurel is released from reset and asks for the custody lease. -/
def execLaurelRelease (s : State) : Host.Outcome State Fault Refusal :=
  .next (during laurelRelease s)

/-- `TRAINING_DONE` (R406). DRAM training finishes, with spares applied and the training record written; the FTL mount starts. -/
def execTrainingDone (full : Bool) (failedCh : List Nat) (s : State) : Host.Outcome State Fault Refusal :=
  .next (during (trainingDone full failedCh) s)

/-- `FTL_MOUNT_DONE` (R301). The FTL mount of the NAND channels ends, CAPS_VALID is set and the boot reaches stage 0x4. -/
def execFtlMountDone (failedNand : List Nat) (s : State) : Host.Outcome State Fault Refusal :=
  .next (during (ftlMountDone failedNand) s)

/-- `PERST_N_ASSERT` (R124). PERST_N assertion acts as a function-level reset of both functions. -/
def execPerstNAssert (s : State) : Host.Outcome State Fault Refusal :=
  .next (during perstNAssert s)

/-- `PERST_N_RISE` (R410). PERST_N rises and LTSSM Detect begins once LINK is ON. -/
def execPerstNRise (s : State) : Host.Outcome State Fault Refusal :=
  .next (during perstNRise s)

/-- `CONFIG_REQUEST` (R412). A PCIe configuration request receives Retry Status until CAPS_VALID or 900 ms, then completes normally. -/
def execConfigRequest (fn : Fn) (s : State) : Host.Outcome State Fault Refusal :=
  .next (configRequest fn s)

/-- `FUNCTION_LEVEL_RESET` (R124). A function-level reset closes the function's session without completions and disables its admin ring. -/
def execFunctionLevelReset (fn : Fn) (s : State) : Host.Outcome State Fault Refusal :=
  .next (during (functionLevelReset fn) s)

/-- `D3COLD_ENTRY` (R124). Entry to D3cold closes both sessions and stops fetch and host writes. -/
def execD3coldEntry (s : State) : Host.Outcome State Fault Refusal :=
  .next (during d3coldEntry s)

/-- `D3HOT_ENTRY` (R127). Entry to D3hot stops fetch and host writes; completions are held. -/
def execD3hotEntry (fn : Fn) (s : State) : Host.Outcome State Fault Refusal :=
  .next (during (d3hotEntry fn) s)

/-- `D0_RETURN` (R127). When the function is back in D0 with the link in L0, held completions are written in order and PEWAKE_N is released. -/
def execD0Return (fn : Fn) (s : State) : Host.Outcome State Fault Refusal :=
  .next (during (d0Return fn) s)

/-- `PRIV_N_LOW` (R65). PRIV_N low forces mic, vibration and camera domains OFF, closes the gates and wipes the ring. -/
def execPrivNLow (s : State) : Host.Outcome State Fault Refusal :=
  .next (during privNLow s)

/-- `PRIV_N_RELEASE` (R67). After PRIV_N has read high for 20 ms, Gorse returns the forced domains with an empty ring. -/
def execPrivNRelease (s : State) : Host.Outcome State Fault Refusal :=
  .next (during privNRelease s)

/-- `TALK_N_PRESS` (R59). A TALK_N falling edge that passes the 5 ms debounce is a wake source with its release point. -/
def execTalkNPress (edge : Nat) (s : State) : Host.Outcome State Fault Refusal :=
  .next (during (talkNPress edge) s)

/-- `TALK_N_RELEASE` (R63). A debounced TALK_N release while the gate is open sets END_OF_TURN in the frame. -/
def execTalkNRelease (edge : Nat) (s : State) : Host.Outcome State Fault Refusal :=
  .next (during (talkNRelease edge) s)

/-- `VOLTAGE_MONITOR_TRIP` (R421). A rail more than 6 % below nominal for 1 µs raises a FATAL or INTEGRITY fault. -/
def execVoltageMonitorTrip (rail : Rail) (s : State) : Host.Outcome State Fault Refusal :=
  .next (during (voltageTrip rail) s)

/-- `CLOCK_MONITOR_TRIP` (R426). A crystal or clock out of range or stopped raises the clock-monitor fault. -/
def execClockMonitorTrip (clk : ClockMon) (s : State) : Host.Outcome State Fault Refusal :=
  .next (during (clockTrip clk) s)

/-- `THERMAL_CAP` (R364). The junction crossing 100 °C or falling below 95 °C sets or clears the 8 W cap of the effective limit. -/
def execThermalCap (temp : Int) (s : State) : Host.Outcome State Fault Refusal :=
  if s.boot.inReset then .next s
  else if junctionOk s temp then .next (thermalCap temp s)
  else .fault .junctionOutOfRange

/-- `AUDIO_FRAME_BOUNDARY` (R51). At each 30,720-tk boundary the frame is recorded, stage 0 tests it and frame-boundary changes take effect. -/
def execAudioFrameBoundary (a : AudioIn) (s : State) : Host.Outcome State Fault Refusal :=
  .next (during (audioFrameBoundary a) s)

/-- `CANDIDATE_OPEN` (R53). A keyword score at or above S1_THRESHOLD opens a candidate and starts MICB. -/
def execCandidateOpen (score : Nat) (s : State) : Host.Outcome State Fault Refusal :=
  .next (during (candidateOpen score) s)

/-- `STAGE_2_DECISION` (R54). Stage 2 accepts or rejects the candidate; an acceptance is a wake decision that fixes the release point and requests stage 3. -/
def execStage2Decision (ver : Nat) (spk : Nat) (phraseEnd : Nat) (dir : Option Nat) (s : State) : Host.Outcome State Fault Refusal :=
  .next (during (stage2Decision ver spk phraseEnd dir) s)

/-- `CANDIDATE_TIMEOUT` (R55). A candidate still undecided 2 s after opening is rejected. -/
def execCandidateTimeout (s : State) : Host.Outcome State Fault Refusal :=
  .next (during candidateTimeout s)

/-- `GATE_OPEN` (R60). After older frames are invalidated and zero-filled, the privet gate opens for the wake. -/
def execGateOpen (s : State) : Host.Outcome State Fault Refusal :=
  .next (during gateOpen s)

/-- `RELEASE_MAX_ELAPSED` (R62). RELEASE_MAX after the release point, the gate is due to close at the next frame boundary. -/
def execReleaseMaxElapsed (s : State) : Host.Outcome State Fault Refusal :=
  .next (during releaseMaxElapsed s)

/-- `CSI2_PACKET` (R74). A CSI-2 packet arrives at a camera receiver and is used, corrected, repaired or discarded and counted. -/
def execCsi2Packet (port : Nat) (k : CsiPacket) (s : State) : Host.Outcome State Fault Refusal :=
  .next (during (csi2Packet port k) s)

/-- `FRAME_START` (R90). A frame start arrives: settings writes begin, the image gate may open or close, and CAMERA_PARAMS complete. -/
def execFrameStart (port : Nat) (h : FrameStart) (s : State) : Host.Outcome State Fault Refusal :=
  .next (during (frameStartEvent port h.vc h.ecc) s)

/-- `FRAME_END` (R88). A frame ends; the ISP finishes the frame, statistics and motion, and vision stage 1 may fire. -/
def execFrameEnd (port : Nat) (ecc : HeaderEcc) (s : State) : Host.Outcome State Fault Refusal :=
  .next (during (frameEnd port ecc) s)

/-- `STREAM_STALL` (R88). No frame start for 4 frame periods logs a CORRECTED fault. -/
def execStreamStall (port : Nat) (s : State) : Host.Outcome State Fault Refusal :=
  .next (during (streamStall port) s)

/-- `CAMERA_TRIGGER` (R41). On a tick congruent to SYNC_PHASE, CAMn_SYNC pulses in trigger mode. -/
def execCameraTrigger (port : Nat) (s : State) : Host.Outcome State Fault Refusal :=
  .next (during (cameraTrigger port) s)

/-- `INIT_WAIT` (R78). After INIT_WAIT on camera power-up, the initialisation list is written and the receiver arms. -/
def execInitWait (port : Nat) (s : State) : Host.Outcome State Fault Refusal :=
  .next (during (initWait port) s)

/-- `I2C_TRANSFER_DONE` (R77). A camera I2C write ends, with success, late completion, or retry and failure after three attempts. -/
def execI2cTransferDone (port : Nat) (ok : Bool) (late : Bool) (s : State) : Host.Outcome State Fault Refusal :=
  .next (during (i2cTransferDone port ok late) s)

/-- `PRESENCE_SCORE` (R93). Vision stage 1 scores a presence frame every 1,536,000 tk; stage 2 may fire. -/
def execPresenceScore (port : Nat) (score : Nat) (att : Nat) (faces : Nat) (s : State) : Host.Outcome State Fault Refusal :=
  .next (during (presenceScore port score att faces) s)

/-- `ABSENT_HOLD` (R91). Presence or motion below threshold for ABSENT_HOLD closes a stage-2 image gate or stops stage 1. -/
def execAbsentHold (port : Nat) (s : State) : Host.Outcome State Fault Refusal :=
  .next (during (absentHold port) s)

/-- `RENEWAL_DUE` (R18). Every 2,048 tk by its mirror, Laurel sends a custody renewal carrying the epoch. -/
def execRenewalDue (s : State) : Host.Outcome State Fault Refusal :=
  .next (renewalDue s)

/-- `RENEWAL` (R18). Gorse receives a renewal, acknowledges a valid one and moves the expiry, or revokes on an epoch mismatch. -/
def execRenewal (epoch : U32) (s : State) : Host.Outcome State Fault Refusal :=
  .next (during (renewalAt epoch) s)

/-- `ACKNOWLEDGEMENT` (R19). Laurel receives a renewal acknowledgement and keeps the lease. -/
def execAcknowledgement (expiry : Nat) (s : State) : Host.Outcome State Fault Refusal :=
  .next (during (acknowledgement expiry) s)

/-- `LEASE_GUARD` (R19). Laurel's mirror reaches the expiry less 16 tk and Laurel stops fetch and non-contest writes. -/
def execLeaseGuard (s : State) : Host.Outcome State Fault Refusal :=
  .next (during leaseGuard s)

/-- `LEASE_EXPIRY` (R20). Gorse's expiry passes unacknowledged: state REVOKED, cause MISSED_RENEWAL, custody line low. -/
def execLeaseExpiry (s : State) : Host.Outcome State Fault Refusal :=
  .next (during leaseExpiry s)

/-- `REVOKE` (R20). Laurel receives the revoke message, latches ring tails, kills uncommitted work and writes CONTESTED completions. -/
def execRevoke (s : State) : Host.Outcome State Fault Refusal :=
  .next (during revokeSeen s)

/-- `QUIET` (R21). Gorse receives Laurel's quiet report and grants the next epoch, or resets Laurel after a FATAL. -/
def execQuiet (s : State) : Host.Outcome State Fault Refusal :=
  .next (during quietReport s)

/-- `QUIET_TIMEOUT` (R21). 4,096 tk after a revoke with no quiet report, Gorse resets the Laurel domains. -/
def execQuietTimeout (s : State) : Host.Outcome State Fault Refusal :=
  .next (during quietTimeout s)

/-- `GRANT` (R25). Gorse receives Laurel's grant request after release or CTRL return and grants the next epoch. -/
def execGrant (s : State) : Host.Outcome State Fault Refusal :=
  .next (during grantEvent s)

/-- `RELINQUISH` (R24). Gorse receives a relinquish message and sets RELINQUISHED with no cause. -/
def execRelinquish (epoch : U32) (s : State) : Host.Outcome State Fault Refusal :=
  .next (during (relinquishEvent epoch) s)

/-- `FLIT_RECEIVED` (R9). A die-link flit arrives; a bad CRC is refused and replayed, and the replay limit starts retraining. -/
def execFlitReceived (dir : Nat) (f : Flit) (s : State) : Host.Outcome State Fault Refusal :=
  .next (during (flitReceived dir f.crcOk f.msg) s)

/-- `RETRAINING_ATTEMPT` (R9). A die-link retraining attempt ends; success resumes the link, failure repeats it. -/
def execRetrainingAttempt (ok : Bool) (s : State) : Host.Outcome State Fault Refusal :=
  .next (during (retrainingAttempt ok) s)

/-- `RETRAIN_LIMIT` (R9). The link not trained within 8,192 tk of the replay limit raises FATAL source 0x10. -/
def execRetrainLimit (s : State) : Host.Outcome State Fault Refusal :=
  .next (during retrainLimit s)

/-- `CHECK_MESSAGE` (R32). A mirror compares itself with Gorse's STB check value and logs a fault and reloads on a mismatch. -/
def execCheckMessage (dom : Nat) (v : Nat) (s : State) : Host.Outcome State Fault Refusal :=
  .next (during (checkMessage dom v) s)

/-- `EXACT_RELOAD` (R36). A region's mirror loads the exact STB value, ending its uncertainty window. -/
def execExactReload (dom : Nat) (v : Nat) (s : State) : Host.Outcome State Fault Refusal :=
  .next (during (exactReload dom v) s)

/-- `STROBE_LOST` (R34). A running region that registers no strobe edge for 1 µs raises a FATAL fault. -/
def execStrobeLost (dom : Nat) (s : State) : Host.Outcome State Fault Refusal :=
  .next (during (strobeLost dom) s)

/-- `HEALTH_MESSAGE` (R350). Every 1,024 tk the Laurel collector sends a health message to the master. -/
def execHealthMessage (s : State) : Host.Outcome State Fault Refusal :=
  .next (healthMessage s)

/-- `HEALTH_LOST` (R350). 3,072 tk with no Laurel health message raises FATAL source 0x1E. -/
def execHealthLost (s : State) : Host.Outcome State Fault Refusal :=
  .next (during healthLost s)

/-- `WATCHDOG_EXPIRY` (R350). A Gorse or CP watchdog expires without a kick and raises FATAL. -/
def execWatchdogExpiry (which : Watchdog) (s : State) : Host.Outcome State Fault Refusal :=
  .next (during (watchdogExpiry which) s)

/-- `ALIVE_EDGE` (R349). On each multiple of 1,536 tk, ALIVE toggles unless a fault, watchdog or missing health message suppresses it. -/
def execAliveEdge (s : State) : Host.Outcome State Fault Refusal :=
  .next (aliveEdge s)

/-- `CAPTURE_FORWARD` (R330). The master collector receives a forwarded Laurel capture and logs it. -/
def execCaptureForward (s : State) : Host.Outcome State Fault Refusal :=
  .next (during captureForward s)

/-- `LAUREL_FATAL` (R332). A Laurel FATAL halts Laurel engines at commit boundaries and makes Gorse revoke with FATAL_LAUREL. -/
def execLaurelFatal (src : Nat) (inst : Nat) (s : State) : Host.Outcome State Fault Refusal :=
  .next (during (laurelFatalEvent src inst) s)

/-- `GORSE_FATAL` (R335). A Gorse FATAL halts the Gorse controller and listen core and revokes Laurel, which is not returned. -/
def execGorseFatal (src : Nat) (inst : Nat) (s : State) : Host.Outcome State Fault Refusal :=
  .next (during (gorseFatalEvent src inst) s)

/-- `INTEGRITY_FAULT` (R336). An INTEGRITY fault closes the gates, stops all release and holds Laurel in reset. -/
def execIntegrityFault (src : Nat) (inst : Nat) (s : State) : Host.Outcome State Fault Refusal :=
  .next (during (integrityEvent src inst) s)

/-- `TILE_RETIREMENT` (R12). Gorse firmware retires a failed tile or row and maps a spare at the next tile-command boundary. -/
def execTileRetirement (tile : Nat) (row : Bool) (s : State) : Host.Outcome State Fault Refusal :=
  .next (during (tileRetirement tile row) s)

/-- `SRAM_SCRUB` (R338). The periodic SRAM scrub checks lines and corrects or classes errors. -/
def execSramScrub (reg : SramRegion) (unit : Nat) (bits : Nat) (addr : Nat) (s : State) : Host.Outcome State Fault Refusal :=
  .next (during (sramScrub reg unit bits addr) s)

/-- `STEP_RELEASE` (R255). A model's next batch step is built and released, pre-empting lower-class steps. -/
def execStepRelease (fn : Fn) (model : Nat) (s : State) : Host.Outcome State Fault Refusal :=
  .next (during (stepRelease fn model) s)

/-- `TILE_COMMAND_ADMIT` (R362). At a tile-command boundary a coppice admits a tile or edge command in class order under the power limit. -/
def execTileCommandAdmit (t : WorkCut) (measured : Energies) (s : State) : Host.Outcome State Fault Refusal :=
  .next (during (admitEvent t measured) s)

/-- `TILE_COMMAND_COMMIT` (R155). A tile command ends, its checksum comparisons pass or fail, and its outputs commit or are discarded and re-run. -/
def execTileCommandCommit (t : WorkCut) (upset : Option Upset) (s : State) : Host.Outcome State Fault Refusal :=
  .next (during (tileCommitEvent t upset) s)

/-- `EDGE_COMMAND_COMMIT` (R339). An edge command ends, its check lane is compared and its outputs commit or are re-run. -/
def execEdgeCommandCommit (t : WorkCut) (upset : Option Upset) (s : State) : Host.Outcome State Fault Refusal :=
  .next (during (edgeCommitEvent t upset) s)

/-- `SCAN_CHUNK_COMMIT` (R248). The scan unit combines a scan chunk and commits the carried state, DONE and the chunk's outputs. -/
def execScanChunkCommit (id : Nat) (compareOk : Bool) (s : State) : Host.Outcome State Fault Refusal :=
  .next (during (scanChunkCommit id compareOk) s)

/-- `STEP_COMMIT` (R258). A batch step commits lengths, KV pages, statistics and states, and completes finished member commands. -/
def execStepCommit (fn : Fn) (model : Nat) (s : State) : Host.Outcome State Fault Refusal :=
  .next (during (stepCommit fn model) s)

/-- `PAGE_WAIT_END` (R219). Frames become available and parked sequences are tried in class and park order and served. -/
def execPageWaitEnd (fn : Fn) (s : State) : Host.Outcome State Fault Refusal :=
  .next (during (pageWaitEnd fn) s)

/-- `SLOT_GRANT` (R254). A command waiting for a sequence-table slot is given one in class and start order. -/
def execSlotGrant (fn : Fn) (s : State) : Host.Outcome State Fault Refusal :=
  .next (during (slotGrant fn) s)

/-- `PREFETCH_COMMIT` (R250). A stream-state prefetch to tier 2 commits and the waiting chunk writes RESIDENCY_END. -/
def execPrefetchCommit (stream : Nat) (s : State) : Host.Outcome State Fault Refusal :=
  .next (during (prefetchCommit stream) s)

/-- `MODEL_RESIDENT` (R271). A model finishes becoming resident in tier 2 and waiting commands resume. -/
def execModelResident (fn : Fn) (model : Nat) (s : State) : Host.Outcome State Fault Refusal :=
  .next (during (modelResident fn model) s)

/-- `NOR_WRITE_DONE` (R327). Gorse's NOR write of an activated image ends and its read-back sets NOR_STATE 0 or 2; the anti-rollback target is updated. -/
def execNorWriteDone (readbackOk : Bool) (s : State) : Host.Outcome State Fault Refusal :=
  .next (during (norWriteDone readbackOk) s)

/-- `PATROL_SCRUB` (R294). The patrol scrub reads a line, rewrites a corrected one and poisons an uncorrectable one. -/
def execPatrolScrub (line : Nat) (r : LineResult) (s : State) : Host.Outcome State Fault Refusal :=
  .next (during (patrolScrub line r) s)

/-- `MIGRATION_UNIT` (R296). One 64 KiB unit of a rank migration is copied; after the last, the spare takes the rank's addresses. -/
def execMigrationUnit (ch : Nat) (rank : Nat) (badLines : List Nat) (s : State) : Host.Outcome State Fault Refusal :=
  .next (during (migrationUnit ch rank badLines) s)

/-- `TRAINING_CHECK` (R295). The 100 ms per-channel training check may start retirement or retraining. -/
def execTrainingCheck (ch : Nat) (badRank : Option Nat) (drift : Bool) (s : State) : Host.Outcome State Fault Refusal :=
  .next (during (trainingCheck ch badRank drift) s)

/-- `RETRAINING_DONE` (R299). A channel's online retraining ends and its data returns from the spare. -/
def execRetrainingDone (ch : Nat) (s : State) : Host.Outcome State Fault Refusal :=
  .next (during (retrainingDone ch) s)

/-- `DISTURB_WINDOW` (R293). At each 32 ms window boundary the per-bank activate tables are cleared. -/
def execDisturbWindow (ch : Nat) (bank : Nat) (s : State) : Host.Outcome State Fault Refusal :=
  .next (disturbWindow ch bank s)

/-- `READ_REFRESH` (R302). A NAND block that reaches the read limit is relocated in the background. -/
def execReadRefresh (ch : Nat) (block : Nat) (s : State) : Host.Outcome State Fault Refusal :=
  .next (readRefresh ch block s)

/-- `PROGRAM_FAILURE` (R302). A NAND program or erase fails; the block is retired and the channel may become read-only. -/
def execProgramFailure (ch : Nat) (block : Nat) (s : State) : Host.Outcome State Fault Refusal :=
  .next (during (programFailure ch block) s)

/-- `PARTITION_CLEAR_DONE` (R307). Clearing of moved units ends and PART_BUSY clears. -/
def execPartitionClearDone (s : State) : Host.Outcome State Fault Refusal :=
  .next (during partitionClearDone s)

/-- `BUSY_EDGE` (R41). The PMU receives a stamped busy edge for a domain, which may abort an entry. -/
def execBusyEdge (dom : Nat) (stamp : Nat) (d : Demand) (s : State) : Host.Outcome State Fault Refusal :=
  .next (during (busyEdge dom stamp d) s)

/-- `IDLE_EDGE` (R353). The PMU receives a stamped idle edge and starts the domain's idle timers. -/
def execIdleEdge (dom : Nat) (stamp : Nat) (s : State) : Host.Outcome State Fault Refusal :=
  .next (during (idleEdge dom stamp) s)

/-- `IDLE_TIMER_EXPIRY` (R353). A domain's RET or OFF idle timer expires. -/
def execIdleTimerExpiry (dom : Nat) (s : State) : Host.Outcome State Fault Refusal :=
  .next (during (idleTimerExpiry dom) s)

/-- `ENTRY_START` (R355). 8 tk after expiry the PMU sends the entry request, opening the refusal window. -/
def execEntryStart (dom : Nat) (s : State) : Host.Outcome State Fault Refusal :=
  .next (during (entryStart dom) s)

/-- `CLOCK_STOP_POINT` (R355). An entry passes its clock-stop point unrefused; CTRL relinquishes the lease at this point. -/
def execClockStopPoint (dom : Nat) (s : State) : Host.Outcome State Fault Refusal :=
  .next (during (clockStopPoint dom) s)

/-- `ENTRY_COMPLETE` (R355). A domain's entry to RET or OFF completes. -/
def execEntryComplete (dom : Nat) (s : State) : Host.Outcome State Fault Refusal :=
  .next (during (entryComplete dom) s)

/-- `RETURN_COMPLETE` (R358). A domain is ON after a return; its mirror loads coarse time and the next class starts. -/
def execReturnComplete (dom : Nat) (s : State) : Host.Outcome State Fault Refusal :=
  .next (during (returnComplete dom) s)

/-- `CONTROL_BLOCK_WRITE` (R372). A joined unit writes its control block to every peer at least every 1,536 tk. -/
def execControlBlockWrite (s : State) : Host.Outcome State Fault Refusal :=
  .next (during controlBlockWrite s)

/-- `CONTROL_BLOCK` (R373). A peer's control block arrives, updating presence, credits and pair state. -/
def execControlBlock (w : Nat) (c : ControlBlock) (s : State) : Host.Outcome State Fault Refusal :=
  .next (duringEnd (controlBlock w c) s)

/-- `SLOT_HEADER` (R379). A slot header arrives; the receiver checks and decodes the unit and signals RX_SEM, or breaks the pair. -/
def execSlotHeader (w : Nat) (h : SlotHeader) (wire : List Byte) (s : State) : Host.Outcome State Fault Refusal :=
  .next (duringEnd (slotHeader w h wire) s)

/-- `PEER_ABSENT` (R373). 9,216 tk with no control block makes a peer absent. -/
def execPeerAbsent (w : Nat) (s : State) : Host.Outcome State Fault Refusal :=
  .next (duringEnd (peerAbsent w) s)

/-- `SNAPSHOT_BROADCAST` (R388). OBS issues a snapshot broadcast and each ON domain latches its counters. -/
def execSnapshotBroadcast (arrivals : List (Nat × Nat)) (s : State) : Host.Outcome State Fault Refusal :=
  .next (during (snapshotBroadcast arrivals) s)

/-- `GROUP_JOIN_TIMEOUT` (R374). 3,072,000 tk after a GROUP_JOIN starts with DL_EN clear, peers still absent make it complete GROUP_ABSENT and the unit leaves as with ABORT. -/
def execGroupJoinTimeout (s : State) : Host.Outcome State Fault Refusal :=
  .next (during groupJoinTimeout s)

/-- `LINK_STATE_CHANGE` (R127). The PCIe link reaches L0 or enters L1, L1.1, L1.2 or L2, which changes the LINK domain state, allows held writes and releases a PEWAKE_N assertion made for L1.2. -/
def execLinkStateChange (lk : LinkState) (s : State) : Host.Outcome State Fault Refusal :=
  .next (during (linkStateChange lk) s)

/-- `PROVISIONING_DONE` (R313). A fuse provisioning operation ends after its blow is read back, writing PROV_RESULT and clearing PROV_BUSY. -/
def execProvisioningDone (readbackOk : Bool) (s : State) : Host.Outcome State Fault Refusal :=
  .next (during (provisioningDone readbackOk) s)

end Sys2Proof.Machine
end

