-- ==== Sys2Proof/Machine/PacketRows.lean ====
section
/-! DEFINITION. The packet rows of the opcode table: one meaning per row, the step in which the device fetches that packet (05 R112);
what the command then does is its `run` in its family's file. -/

namespace Sys2Proof.Machine

/-- `NOP` (R112). Fetched NOP passes the fetch checks and completes OK, echoing parameter bytes 24-35. -/
def execNop (p : Packet) (s : State) : Host.Outcome State Fault Refusal :=
  .next (fetchRow .nop 0x00 p s)

/-- `BAD_OPCODE` (R112). A packet with a reserved opcode fails fetch check 2 and completes BAD_OPCODE with no effect. -/
def execBadOpcode (opc : Byte) (p : Packet) (s : State) : Host.Outcome State Fault Refusal :=
  .next (if definedOpcodes.contains opc.toNat then s else fetchRow .badOpcode opc.toNat p s)

/-- `CAPS_READ` (R438). Writes the 512-byte capability descriptor, as it stands at the command's single commit. -/
def execCapsRead (p : Packet) (s : State) : Host.Outcome State Fault Refusal :=
  .next (fetchRow .capsRead 0x01 p s)

/-- `SESSION_OPEN` (R121). Phase 0 issues a nonce challenge; phase 1 checks the KMAC proof, opens the session and binds the admin ring. -/
def execSessionOpen (p : Packet) (s : State) : Host.Outcome State Fault Refusal :=
  .next (fetchRow .sessionOpen 0x02 p s)

/-- `SESSION_CLOSE` (R123). Cancels the session's packets, destroys its rings, frees its objects, drops its pins and unbinds the admin ring. -/
def execSessionClose (p : Packet) (s : State) : Host.Outcome State Fault Refusal :=
  .next (fetchRow .sessionClose 0x03 p s)

/-- `ATTEST` (R314). Forms and signs the attestation report for the function's tenant, optionally followed by the certificate chain. -/
def execAttest (p : Packet) (s : State) : Host.Outcome State Fault Refusal :=
  .next (fetchRow .attest 0x04 p s)

/-- `KEY_EXCHANGE` (R317). Decapsulates the ML-KEM ciphertext, derives the tenant-1 key K1 and draws a new KEM pair. -/
def execKeyExchange (p : Packet) (s : State) : Host.Outcome State Fault Refusal :=
  .next (fetchRow .keyExchange 0x05 p s)

/-- `CANCEL` (R118). Matches earlier-fetched packets on a ring by scope and ends each one CANCELLED at its next commit point. -/
def execCancel (p : Packet) (s : State) : Host.Outcome State Fault Refusal :=
  .next (fetchRow .cancel 0x06 p s)

/-- `RING_CREATE` (R120). Creates a ring pair, binds it to the session and assigns its ring generation. -/
def execRingCreate (p : Packet) (s : State) : Host.Outcome State Fault Refusal :=
  .next (fetchRow .ringCreate 0x10 p s)

/-- `RING_DESTROY` (R120). Cancels every packet fetched from the ring, writes their completions and removes the ring. -/
def execRingDestroy (p : Packet) (s : State) : Host.Outcome State Fault Refusal :=
  .next (fetchRow .ringDestroy 0x11 p s)

/-- `SEM_CREATE` (R266). Creates a semaphore with an owner and initial count, or destroys one and cancels its waiters. -/
def execSemCreate (p : Packet) (s : State) : Host.Outcome State Fault Refusal :=
  .next (fetchRow .semCreate 0x12 p s)

/-- `SEM_SIGNAL` (R267). Adds COUNT to the semaphore, completes waiters that can now proceed and ends wait-for edges. -/
def execSemSignal (p : Packet) (s : State) : Host.Outcome State Fault Refusal :=
  .next (fetchRow .semSignal 0x13 p s)

/-- `SEM_WAIT` (R267). Parks until it is the first waiter and the count suffices, then subtracts the count; boosts the owner meanwhile. -/
def execSemWait (p : Packet) (s : State) : Host.Outcome State Fault Refusal :=
  .next (fetchRow .semWait 0x14 p s)

/-- `FENCE` (R119). Completes once every packet fetched earlier on the named rings has completed. -/
def execFence (p : Packet) (s : State) : Host.Outcome State Fault Refusal :=
  .next (fetchRow .fence 0x15 p s)

/-- `ALLOC` (R285). Places an allocation in the tiers of the try order under quota and pool rules, or completes QUOTA. -/
def execAlloc (p : Packet) (s : State) : Host.Outcome State Fault Refusal :=
  .next (fetchRow .alloc 0x20 p s)

/-- `FREE` (R288). Waits for earlier commands that use the allocation, then releases its range and charge. -/
def execFree (p : Packet) (s : State) : Host.Outcome State Fault Refusal :=
  .next (fetchRow .free 0x21 p s)

/-- `COPY` (R289). Moves bytes unchanged, committing each 64 KiB of destination in address order. -/
def execCopy (p : Packet) (s : State) : Host.Outcome State Fault Refusal :=
  .next (fetchRow .copy 0x22 p s)

/-- `PLACE_HINT` (R287). Sets a session placement hint for AUTO allocations, KV frames, carried states or pool models. -/
def execPlaceHint (p : Packet) (s : State) : Host.Outcome State Fault Refusal :=
  .next (fetchRow .placeHint 0x23 p s)

/-- `QUOTA_SET` (R282). Sets or reads a quota limit; a raise serves parked and waiting charges. -/
def execQuotaSet (p : Packet) (s : State) : Host.Outcome State Fault Refusal :=
  .next (fetchRow .quotaSet 0x24 p s)

/-- `TABLE_BUILD` (R175). Histograms each segment of a tensor and writes the compression header and prefix tables. -/
def execTableBuild (p : Packet) (s : State) : Host.Outcome State Fault Refusal :=
  .next (fetchRow .tableBuild 0x25 p s)

/-- `COMPRESS` (R176). Compresses a tensor to ZMASK or ENTROPY, or expands one to NONE, in the order of R177. -/
def execCompress (p : Packet) (s : State) : Host.Outcome State Fault Refusal :=
  .next (fetchRow .compress 0x26 p s)

/-- `MODEL_LOAD` (R274). Installs a model package into the store and/or makes a model resident in tier 2. -/
def execModelLoad (p : Packet) (s : State) : Host.Outcome State Fault Refusal :=
  .next (fetchRow .modelLoad 0x30 p s)

/-- `MODEL_PIN` (R273). Pins a model in tier 2 or places copies in coppice buffers, or drops its pins. -/
def execModelPin (p : Packet) (s : State) : Host.Outcome State Fault Refusal :=
  .next (fetchRow .modelPin 0x31 p s)

/-- `MODEL_EVICT` (R274). Evicts a model from tiers 1 and 2 and optionally deletes it from the store. -/
def execModelEvict (p : Packet) (s : State) : Host.Outcome State Fault Refusal :=
  .next (fetchRow .modelEvict 0x32 p s)

/-- `MODEL_INFO` (R446). Reports a model's tiers and last use, and optionally writes its info record. -/
def execModelInfo (p : Packet) (s : State) : Host.Outcome State Fault Refusal :=
  .next (fetchRow .modelInfo 0x33 p s)

/-- `SEQ_CREATE` (R275). Creates a sequence or conversation, charging its directory and page lists to the KV quota. -/
def execSeqCreate (p : Packet) (s : State) : Host.Outcome State Fault Refusal :=
  .next (fetchRow .seqCreate 0x40 p s)

/-- `SEQ_FREE` (R275). Cancels the sequence's appends and forks, then frees its directory, lists and entries and lowers frame counts. -/
def execSeqFree (p : Packet) (s : State) : Host.Outcome State Fault Refusal :=
  .next (fetchRow .seqFree 0x43 p s)

/-- `SEQ_APPEND` (R214). Feeds positions into a sequence through batch steps, writing KV pages and outputs. -/
def execSeqAppend (p : Packet) (s : State) : Host.Outcome State Fault Refusal :=
  .next (fetchRow .seqAppend 0x41 p s)

/-- `SEQ_FORK` (R209). Creates a child sequence that shares the parent's pages up to position AT. -/
def execSeqFork (p : Packet) (s : State) : Host.Outcome State Fault Refusal :=
  .next (fetchRow .seqFork 0x42 p s)

/-- `STREAM_OPEN` (R246). Opens a stream bound to a recurrence model, with its initial state and carried state. -/
def execStreamOpen (p : Packet) (s : State) : Host.Outcome State Fault Refusal :=
  .next (fetchRow .streamOpen 0x44 p s)

/-- `STREAM_CHUNK` (R248). Runs positions of a stream in whole scan chunks, committing the carried state at each chunk end. -/
def execStreamChunk (p : Packet) (s : State) : Host.Outcome State Fault Refusal :=
  .next (fetchRow .streamChunk 0x45 p s)

/-- `STREAM_CLOSE` (R252). Optionally cancels lower-SSEQ commands, waits its turn and frees the stream. -/
def execStreamClose (p : Packet) (s : State) : Host.Outcome State Fault Refusal :=
  .next (fetchRow .streamClose 0x46 p s)

/-- `STATE_SWAP` (R251). Moves, saves, loads or resets a stream's carried state in one commit. -/
def execStateSwap (p : Packet) (s : State) : Host.Outcome State Fault Refusal :=
  .next (fetchRow .stateSwap 0x47 p s)

/-- `GRAPH_RUN` (R276). Runs one forward pass of a model graph as a batch step member. -/
def execGraphRun (p : Packet) (s : State) : Host.Outcome State Fault Refusal :=
  .next (fetchRow .graphRun 0x50 p s)

/-- `STEP_POLICY` (R277). Sets or reads a model's step policy, or reads a sequence-table slot or context entry. -/
def execStepPolicy (p : Packet) (s : State) : Host.Outcome State Fault Refusal :=
  .next (fetchRow .stepPolicy 0x52 p s)

/-- `MATMUL` (R159). OP_RUN matrix product with gate-pipeline stages, cut into tile commands. -/
def execMatmul (p : Packet) (s : State) : Host.Outcome State Fault Refusal :=
  .next (fetchRow .matmul 0x51 p s)

/-- `CONV2D` (R193). OP_RUN convolution on tiles or edge engines, with stripes and tap decomposition. -/
def execConv2d (p : Packet) (s : State) : Host.Outcome State Fault Refusal :=
  .next (fetchRow .conv2d 0x51 p s)

/-- `POOL2D` (R196). OP_RUN max or average pooling through the gate-pipeline reduction adder. -/
def execPool2d (p : Packet) (s : State) : Host.Outcome State Fault Refusal :=
  .next (fetchRow .pool2d 0x51 p s)

/-- `ATTENTION` (R228). OP_RUN forward attention over sequence pages or tensor keys, with online softmax. -/
def execAttention (p : Packet) (s : State) : Host.Outcome State Fault Refusal :=
  .next (fetchRow .attention 0x51 p s)

/-- `TRAIN_STEP` (R231). Runs forward and backward passes of a base model with an adapter and writes gradients. -/
def execTrainStep (p : Packet) (s : State) : Host.Outcome State Fault Refusal :=
  .next (fetchRow .trainStep 0x53 p s)

/-- `LISTEN_POLICY` (R69). Sets the listening mode, armed sources, thresholds and stage-3 wake resources at a frame boundary. -/
def execListenPolicy (p : Packet) (s : State) : Host.Outcome State Fault Refusal :=
  .next (fetchRow .listenPolicy 0x60 p s)

/-- `WAKE_ARM` (R70). Sets the armed wake sources, or makes a manual wake now. -/
def execWakeArm (p : Packet) (s : State) : Host.Outcome State Fault Refusal :=
  .next (fetchRow .wakeArm 0x61 p s)

/-- `AUDIO_READ` (R72). Reads released audio frames at or after the release point, parking for frames or a wake when WAIT is set. -/
def execAudioRead (p : Packet) (s : State) : Host.Outcome State Fault Refusal :=
  .next (fetchRow .audioRead 0x62 p s)

/-- `CAMERA_CONFIG` (R75). Configures a camera port, opens or closes its image gate, or disables it. -/
def execCameraConfig (p : Packet) (s : State) : Host.Outcome State Fault Refusal :=
  .next (fetchRow .cameraConfig 0x63 p s)

/-- `CAMERA_PARAMS` (R84). Schedules exposure, gain and white-balance writes so that they take effect on one target frame. -/
def execCameraParams (p : Packet) (s : State) : Host.Outcome State Fault Refusal :=
  .next (fetchRow .cameraParams 0x64 p s)

/-- `FRAME_READ` (R96). Reads stored frame records, statistics or embedded data while the image gate is open. -/
def execFrameRead (p : Packet) (s : State) : Host.Outcome State Fault Refusal :=
  .next (fetchRow .frameRead 0x65 p s)

/-- `DOMAIN_POLICY` (R365). Sets a domain's timers and ceiling, requests an entry or return, sets the retention set, or reads a domain. -/
def execDomainPolicy (p : Packet) (s : State) : Host.Outcome State Fault Refusal :=
  .next (fetchRow .domainPolicy 0x70 p s)

/-- `POWER_LIMIT` (R367). Sets or reads the package power limit. -/
def execPowerLimit (p : Packet) (s : State) : Host.Outcome State Fault Refusal :=
  .next (fetchRow .powerLimit 0x71 p s)

/-- `POWER_STATS` (R368). Writes the power header and domain records, optionally clearing the refusal counts. -/
def execPowerStats (p : Packet) (s : State) : Host.Outcome State Fault Refusal :=
  .next (fetchRow .powerStats 0x72 p s)

/-- `FW_STAGE` (R325). Copies a firmware image into the G0 staging region and checks it. -/
def execFwStage (p : Packet) (s : State) : Host.Outcome State Fault Refusal :=
  .next (fetchRow .fwStage 0x80 p s)

/-- `FW_ACTIVATE` (R326). Re-checks the staged image, waits for the component's quiescent point and switches to it. -/
def execFwActivate (p : Packet) (s : State) : Host.Outcome State Fault Refusal :=
  .next (fetchRow .fwActivate 0x81 p s)

/-- `FW_QUERY` (R327). Writes the firmware record with versions, NOR state and staged images. -/
def execFwQuery (p : Packet) (s : State) : Host.Outcome State Fault Refusal :=
  .next (fetchRow .fwQuery 0x82 p s)

/-- `FAULT_READ` (R345). Writes the fault records the tenant may read, in log order. -/
def execFaultRead (p : Packet) (s : State) : Host.Outcome State Fault Refusal :=
  .next (fetchRow .faultRead 0x90 p s)

/-- `FAULT_CLEAR` (R346). Removes the named fault records and re-arms their source instances. -/
def execFaultClear (p : Packet) (s : State) : Host.Outcome State Fault Refusal :=
  .next (fetchRow .faultClear 0x91 p s)

/-- `FAULT_INJECT` (R347). Arms a checker to receive inverted check bits on its next operation. -/
def execFaultInject (p : Packet) (s : State) : Host.Outcome State Fault Refusal :=
  .next (fetchRow .faultInject 0x92 p s)

/-- `COUNTER_READ` (R390). Takes or returns a counter snapshot and writes counter or bin records. -/
def execCounterRead (p : Packet) (s : State) : Host.Outcome State Fault Refusal :=
  .next (fetchRow .counterRead 0xA0 p s)

/-- `TRACE_CONFIG` (R395). Replaces the trace settings of the named destinations. -/
def execTraceConfig (p : Packet) (s : State) : Host.Outcome State Fault Refusal :=
  .next (fetchRow .traceConfig 0xA1 p s)

/-- `WATCH_SET` (R396). Arms or disarms a tensor-watch slot. -/
def execWatchSet (p : Packet) (s : State) : Host.Outcome State Fault Refusal :=
  .next (fetchRow .watchSet 0xA2 p s)

/-- `TIME_SYNC` (R384). Sets how peer-record stamps relate to the time bases of other units. -/
def execTimeSync (p : Packet) (s : State) : Host.Outcome State Fault Refusal :=
  .next (fetchRow .timeSync 0xA3 p s)

/-- `GROUP_JOIN` (R374). Joins a Kraotas group and completes once every peer is present. -/
def execGroupJoin (p : Packet) (s : State) : Host.Outcome State Fault Refusal :=
  .next (fetchRow .groupJoin 0xB0 p s)

/-- `PEER_SEND` (R377). Cuts a source into wire units and sends each, under credit, to a peer's staging slot. -/
def execPeerSend (p : Packet) (s : State) : Host.Outcome State Fault Refusal :=
  .next (fetchRow .peerSend 0xB1 p s)

/-- `PEER_CREDIT` (R381). Returns credits to a peer and writes the control block. -/
def execPeerCredit (p : Packet) (s : State) : Host.Outcome State Fault Refusal :=
  .next (fetchRow .peerCredit 0xB2 p s)

/-- `GROUP_LEAVE` (R376). Waits for or cancels peer sends, writes PSTATE 2 to peers and leaves the group. -/
def execGroupLeave (p : Packet) (s : State) : Host.Outcome State Fault Refusal :=
  .next (fetchRow .groupLeave 0xB3 p s)

end Sys2Proof.Machine
end

