-- ==== Sys2Proof/Machine/Dispatch.lean ====
section
/-! DEFINITION. The dispatch of commands: one arm per constructor of `Instr`, each one direct call of its meaning. -/

namespace Sys2Proof.Machine

/-- The effect of a command on everything but the queue. -/
def exec (i : Instr) (s : State) : Host.Outcome State Fault Refusal :=
  match i with
  | .nop p => Sys2Proof.Machine.execNop p s
  | .badOpcode opc p => Sys2Proof.Machine.execBadOpcode opc p s
  | .capsRead p => Sys2Proof.Machine.execCapsRead p s
  | .sessionOpen p => Sys2Proof.Machine.execSessionOpen p s
  | .sessionClose p => Sys2Proof.Machine.execSessionClose p s
  | .attest p => Sys2Proof.Machine.execAttest p s
  | .keyExchange p => Sys2Proof.Machine.execKeyExchange p s
  | .cancel p => Sys2Proof.Machine.execCancel p s
  | .ringCreate p => Sys2Proof.Machine.execRingCreate p s
  | .ringDestroy p => Sys2Proof.Machine.execRingDestroy p s
  | .semCreate p => Sys2Proof.Machine.execSemCreate p s
  | .semSignal p => Sys2Proof.Machine.execSemSignal p s
  | .semWait p => Sys2Proof.Machine.execSemWait p s
  | .fence p => Sys2Proof.Machine.execFence p s
  | .alloc p => Sys2Proof.Machine.execAlloc p s
  | .free p => Sys2Proof.Machine.execFree p s
  | .copy p => Sys2Proof.Machine.execCopy p s
  | .placeHint p => Sys2Proof.Machine.execPlaceHint p s
  | .quotaSet p => Sys2Proof.Machine.execQuotaSet p s
  | .tableBuild p => Sys2Proof.Machine.execTableBuild p s
  | .compress p => Sys2Proof.Machine.execCompress p s
  | .modelLoad p => Sys2Proof.Machine.execModelLoad p s
  | .modelPin p => Sys2Proof.Machine.execModelPin p s
  | .modelEvict p => Sys2Proof.Machine.execModelEvict p s
  | .modelInfo p => Sys2Proof.Machine.execModelInfo p s
  | .seqCreate p => Sys2Proof.Machine.execSeqCreate p s
  | .seqFree p => Sys2Proof.Machine.execSeqFree p s
  | .seqAppend p => Sys2Proof.Machine.execSeqAppend p s
  | .seqFork p => Sys2Proof.Machine.execSeqFork p s
  | .streamOpen p => Sys2Proof.Machine.execStreamOpen p s
  | .streamChunk p => Sys2Proof.Machine.execStreamChunk p s
  | .streamClose p => Sys2Proof.Machine.execStreamClose p s
  | .stateSwap p => Sys2Proof.Machine.execStateSwap p s
  | .graphRun p => Sys2Proof.Machine.execGraphRun p s
  | .stepPolicy p => Sys2Proof.Machine.execStepPolicy p s
  | .matmul p => Sys2Proof.Machine.execMatmul p s
  | .conv2d p => Sys2Proof.Machine.execConv2d p s
  | .pool2d p => Sys2Proof.Machine.execPool2d p s
  | .attention p => Sys2Proof.Machine.execAttention p s
  | .trainStep p => Sys2Proof.Machine.execTrainStep p s
  | .listenPolicy p => Sys2Proof.Machine.execListenPolicy p s
  | .wakeArm p => Sys2Proof.Machine.execWakeArm p s
  | .audioRead p => Sys2Proof.Machine.execAudioRead p s
  | .cameraConfig p => Sys2Proof.Machine.execCameraConfig p s
  | .cameraParams p => Sys2Proof.Machine.execCameraParams p s
  | .frameRead p => Sys2Proof.Machine.execFrameRead p s
  | .domainPolicy p => Sys2Proof.Machine.execDomainPolicy p s
  | .powerLimit p => Sys2Proof.Machine.execPowerLimit p s
  | .powerStats p => Sys2Proof.Machine.execPowerStats p s
  | .fwStage p => Sys2Proof.Machine.execFwStage p s
  | .fwActivate p => Sys2Proof.Machine.execFwActivate p s
  | .fwQuery p => Sys2Proof.Machine.execFwQuery p s
  | .faultRead p => Sys2Proof.Machine.execFaultRead p s
  | .faultClear p => Sys2Proof.Machine.execFaultClear p s
  | .faultInject p => Sys2Proof.Machine.execFaultInject p s
  | .counterRead p => Sys2Proof.Machine.execCounterRead p s
  | .traceConfig p => Sys2Proof.Machine.execTraceConfig p s
  | .watchSet p => Sys2Proof.Machine.execWatchSet p s
  | .timeSync p => Sys2Proof.Machine.execTimeSync p s
  | .groupJoin p => Sys2Proof.Machine.execGroupJoin p s
  | .peerSend p => Sys2Proof.Machine.execPeerSend p s
  | .peerCredit p => Sys2Proof.Machine.execPeerCredit p s
  | .groupLeave p => Sys2Proof.Machine.execGroupLeave p s
  | .notBeforeReached id => Sys2Proof.Machine.execNotBeforeReached id s
  | .deadlinePassed id => Sys2Proof.Machine.execDeadlinePassed id s
  | .doorbell fn ring size v => Sys2Proof.Machine.execDoorbell fn ring size v s
  | .adminEnable fn v => Sys2Proof.Machine.execAdminEnable fn v s
  | .ringSplit fn v => Sys2Proof.Machine.execRingSplit fn v s
  | .partition fn v => Sys2Proof.Machine.execPartition fn v s
  | .memConfig fn v => Sys2Proof.Machine.execMemConfig fn v s
  | .ringStatusRead fn ring half => Sys2Proof.Machine.execRingStatusRead fn ring half s
  | .registerWrite bus offset data => Sys2Proof.Machine.execRegisterWrite bus offset data s
  | .programOemKey => Sys2Proof.Machine.execProgramOemKey s
  | .blowOemLock => Sys2Proof.Machine.execBlowOemLock s
  | .blowDbgOff => Sys2Proof.Machine.execBlowDbgOff s
  | .wakePending v => Sys2Proof.Machine.execWakePending v s
  | .wakeCountsRead => Sys2Proof.Machine.execWakeCountsRead s
  | .testStop v => Sys2Proof.Machine.execTestStop v s
  | .testStopExpiry => Sys2Proof.Machine.execTestStopExpiry s
  | .rcvCtrlGo v => Sys2Proof.Machine.execRcvCtrlGo v s
  | .recoveryLoadDone hostOk norOk => Sys2Proof.Machine.execRecoveryLoadDone hostOk norOk s
  | .recoveryReset => Sys2Proof.Machine.execRecoveryReset s
  | .entdaa addr => Sys2Proof.Machine.execEntdaa addr s
  | .rstdaa => Sys2Proof.Machine.execRstdaa s
  | .setnewda addr => Sys2Proof.Machine.execSetnewda addr s
  | .getpid => Sys2Proof.Machine.execGetpid s
  | .getbcr => Sys2Proof.Machine.execGetbcr s
  | .getdcr => Sys2Proof.Machine.execGetdcr s
  | .getstatus => Sys2Proof.Machine.execGetstatus s
  | .syncMark mark => Sys2Proof.Machine.execSyncMark mark s
  | .gorsePowerOnReset cause => Sys2Proof.Machine.execGorsePowerOnReset cause s
  | .gorseResetRelease => Sys2Proof.Machine.execGorseResetRelease s
  | .romChecksDone dirOk => Sys2Proof.Machine.execRomChecksDone dirOk s
  | .laurelRelease => Sys2Proof.Machine.execLaurelRelease s
  | .trainingDone full failedCh => Sys2Proof.Machine.execTrainingDone full failedCh s
  | .ftlMountDone failedNand => Sys2Proof.Machine.execFtlMountDone failedNand s
  | .perstNAssert => Sys2Proof.Machine.execPerstNAssert s
  | .perstNRise => Sys2Proof.Machine.execPerstNRise s
  | .configRequest fn => Sys2Proof.Machine.execConfigRequest fn s
  | .functionLevelReset fn => Sys2Proof.Machine.execFunctionLevelReset fn s
  | .d3coldEntry => Sys2Proof.Machine.execD3coldEntry s
  | .d3hotEntry fn => Sys2Proof.Machine.execD3hotEntry fn s
  | .d0Return fn => Sys2Proof.Machine.execD0Return fn s
  | .privNLow => Sys2Proof.Machine.execPrivNLow s
  | .privNRelease => Sys2Proof.Machine.execPrivNRelease s
  | .talkNPress edge => Sys2Proof.Machine.execTalkNPress edge s
  | .talkNRelease edge => Sys2Proof.Machine.execTalkNRelease edge s
  | .voltageMonitorTrip rail => Sys2Proof.Machine.execVoltageMonitorTrip rail s
  | .clockMonitorTrip clk => Sys2Proof.Machine.execClockMonitorTrip clk s
  | .thermalCap temp => Sys2Proof.Machine.execThermalCap temp s
  | .audioFrameBoundary a => Sys2Proof.Machine.execAudioFrameBoundary a s
  | .candidateOpen score => Sys2Proof.Machine.execCandidateOpen score s
  | .stage2Decision ver spk phraseEnd dir => Sys2Proof.Machine.execStage2Decision ver spk phraseEnd dir s
  | .candidateTimeout => Sys2Proof.Machine.execCandidateTimeout s
  | .gateOpen => Sys2Proof.Machine.execGateOpen s
  | .releaseMaxElapsed => Sys2Proof.Machine.execReleaseMaxElapsed s
  | .csi2Packet port k => Sys2Proof.Machine.execCsi2Packet port k s
  | .frameStart port h => Sys2Proof.Machine.execFrameStart port h s
  | .frameEnd port ecc => Sys2Proof.Machine.execFrameEnd port ecc s
  | .streamStall port => Sys2Proof.Machine.execStreamStall port s
  | .cameraTrigger port => Sys2Proof.Machine.execCameraTrigger port s
  | .initWait port => Sys2Proof.Machine.execInitWait port s
  | .i2cTransferDone port ok late => Sys2Proof.Machine.execI2cTransferDone port ok late s
  | .presenceScore port score att faces => Sys2Proof.Machine.execPresenceScore port score att faces s
  | .absentHold port => Sys2Proof.Machine.execAbsentHold port s
  | .renewalDue => Sys2Proof.Machine.execRenewalDue s
  | .renewal epoch => Sys2Proof.Machine.execRenewal epoch s
  | .acknowledgement expiry => Sys2Proof.Machine.execAcknowledgement expiry s
  | .leaseGuard => Sys2Proof.Machine.execLeaseGuard s
  | .leaseExpiry => Sys2Proof.Machine.execLeaseExpiry s
  | .revoke => Sys2Proof.Machine.execRevoke s
  | .quiet => Sys2Proof.Machine.execQuiet s
  | .quietTimeout => Sys2Proof.Machine.execQuietTimeout s
  | .grant => Sys2Proof.Machine.execGrant s
  | .relinquish epoch => Sys2Proof.Machine.execRelinquish epoch s
  | .flitReceived dir f => Sys2Proof.Machine.execFlitReceived dir f s
  | .retrainingAttempt ok => Sys2Proof.Machine.execRetrainingAttempt ok s
  | .retrainLimit => Sys2Proof.Machine.execRetrainLimit s
  | .checkMessage dom v => Sys2Proof.Machine.execCheckMessage dom v s
  | .exactReload dom v => Sys2Proof.Machine.execExactReload dom v s
  | .strobeLost dom => Sys2Proof.Machine.execStrobeLost dom s
  | .healthMessage => Sys2Proof.Machine.execHealthMessage s
  | .healthLost => Sys2Proof.Machine.execHealthLost s
  | .watchdogExpiry which => Sys2Proof.Machine.execWatchdogExpiry which s
  | .aliveEdge => Sys2Proof.Machine.execAliveEdge s
  | .captureForward => Sys2Proof.Machine.execCaptureForward s
  | .laurelFatal src inst => Sys2Proof.Machine.execLaurelFatal src inst s
  | .gorseFatal src inst => Sys2Proof.Machine.execGorseFatal src inst s
  | .integrityFault src inst => Sys2Proof.Machine.execIntegrityFault src inst s
  | .tileRetirement tile row => Sys2Proof.Machine.execTileRetirement tile row s
  | .sramScrub reg unit bits addr => Sys2Proof.Machine.execSramScrub reg unit bits addr s
  | .stepRelease fn model => Sys2Proof.Machine.execStepRelease fn model s
  | .tileCommandAdmit t measured => Sys2Proof.Machine.execTileCommandAdmit t measured s
  | .tileCommandCommit t upset => Sys2Proof.Machine.execTileCommandCommit t upset s
  | .edgeCommandCommit t upset => Sys2Proof.Machine.execEdgeCommandCommit t upset s
  | .scanChunkCommit id compareOk => Sys2Proof.Machine.execScanChunkCommit id compareOk s
  | .stepCommit fn model => Sys2Proof.Machine.execStepCommit fn model s
  | .pageWaitEnd fn => Sys2Proof.Machine.execPageWaitEnd fn s
  | .slotGrant fn => Sys2Proof.Machine.execSlotGrant fn s
  | .prefetchCommit stream => Sys2Proof.Machine.execPrefetchCommit stream s
  | .modelResident fn model => Sys2Proof.Machine.execModelResident fn model s
  | .norWriteDone readbackOk => Sys2Proof.Machine.execNorWriteDone readbackOk s
  | .patrolScrub line r => Sys2Proof.Machine.execPatrolScrub line r s
  | .migrationUnit ch rank badLines => Sys2Proof.Machine.execMigrationUnit ch rank badLines s
  | .trainingCheck ch badRank drift => Sys2Proof.Machine.execTrainingCheck ch badRank drift s
  | .retrainingDone ch => Sys2Proof.Machine.execRetrainingDone ch s
  | .disturbWindow ch bank => Sys2Proof.Machine.execDisturbWindow ch bank s
  | .readRefresh ch block => Sys2Proof.Machine.execReadRefresh ch block s
  | .programFailure ch block => Sys2Proof.Machine.execProgramFailure ch block s
  | .partitionClearDone => Sys2Proof.Machine.execPartitionClearDone s
  | .busyEdge dom stamp d => Sys2Proof.Machine.execBusyEdge dom stamp d s
  | .idleEdge dom stamp => Sys2Proof.Machine.execIdleEdge dom stamp s
  | .idleTimerExpiry dom => Sys2Proof.Machine.execIdleTimerExpiry dom s
  | .entryStart dom => Sys2Proof.Machine.execEntryStart dom s
  | .clockStopPoint dom => Sys2Proof.Machine.execClockStopPoint dom s
  | .entryComplete dom => Sys2Proof.Machine.execEntryComplete dom s
  | .returnComplete dom => Sys2Proof.Machine.execReturnComplete dom s
  | .controlBlockWrite => Sys2Proof.Machine.execControlBlockWrite s
  | .controlBlock w c => Sys2Proof.Machine.execControlBlock w c s
  | .slotHeader w h wire => Sys2Proof.Machine.execSlotHeader w h wire s
  | .peerAbsent w => Sys2Proof.Machine.execPeerAbsent w s
  | .snapshotBroadcast arrivals => Sys2Proof.Machine.execSnapshotBroadcast arrivals s
  | .groupJoinTimeout => Sys2Proof.Machine.execGroupJoinTimeout s
  | .linkStateChange lk => Sys2Proof.Machine.execLinkStateChange lk s
  | .provisioningDone readbackOk => Sys2Proof.Machine.execProvisioningDone readbackOk s

end Sys2Proof.Machine
end

