-- ==== Sys2Proof/Safety.lean ====
section
/-! DEFINITION. The terms in which claims about the block are stated: states in which nothing waits, states whose rings have the
classes the wait-for edges give them, memory in its canonical form, and the start of a fetched packet. -/

namespace Sys2Proof.Machine

/-- Every list of bytes the state holds is in its canonical form. -/
def memoriesWf (s : State) : Bool :=
  memWf s.store.host && memWf s.store.t0 && memWf s.store.t1 && memWf s.store.dram && memWf s.store.nand

/-- Every ring's boost is the one that 11 R268 gives it from the wait-for edges that stand. -/
def BoostsSettled (s : State) : Prop := (boostAll s).rings = s.rings

/-- Nothing waits for anything: no command, slot, stream or model is open, no step is built, nothing is held for the link, no retirement
is held back, the lease has not been given up, and no ring has a boost. -/
def Calm (s : State) : Prop :=
  s.cmds = [] ∧ s.work.slots = [] ∧ s.work.steps = [] ∧ s.work.streams = [] ∧ s.work.models = [] ∧ s.heldOut = [] ∧ s.dram.pendingRetire = []
    ∧ s.custody.state ≠ .relinquished ∧ ∀ r ∈ s.rings, r.boost = none

/-- The first half of settling, before commands start (15 R358; 01 R25; 12 R295). -/
def readied (s : State) : State := tidy (resumeRetires (regrant s))

/-- What follows a change at most `n` further starts and resumptions long: commands that can start or go on do, domains are demanded
for the rest, and the boosts are set (05 R113; 11 R268; 15 R358). -/
def ensuingWith (n : Nat) (t : State) : State := boostAll (wakeLink (demandAll (settleLoop n (tidy t))))

/-- The end of a fetch: the commands whose deadline passes on its tick end, and what that makes possible happens (02 R43, R45). -/
def concluded (t : State) : State := settle (sweep t)

/-- What follows once the first command of a settling has started, waited or ended. -/
def following (t : State) : State := ensuingWith (settleFuel - 1) t

/-- What follows a fetch once the first command of its settling has started, waited or ended. -/
def ensuing (t : State) : State := concluded (following t)

/-- What follows a fetch once a second command of its settling has gone on. -/
def thereafter (t : State) : State := concluded (ensuingWith (settleFuel - 2) t)

/-- The parked command that goes on first after a change, and the state in which it does. -/
def goesOn (t : State) : Option (Cmd × State) :=
  match (tidy t).cmds.find? (fun c => (tryCmd (tidy t) c).isSome) with
  | some c => match c.phase with
    | .parked _ => some (c, tidy t)
    | _ => none
  | none => none

/-- The command that starts first when `s` settles, in fetch order, and the state in which it starts: it runs, its start is
stamped, and its STARTED record is written (05 R113, Table 5.9). -/
def firstStart (s : State) : Option (Cmd × State) :=
  if laurelRuns (resumeRetires (regrant s)) then
    let v := readied s
    match v.cmds.find? (fun c => (tryCmd v c).isSome) with
    | some c =>
      if c.phase = .waiting then
        let d := { c with phase := .running, startStamp := ctrlStamp v }
        some (d, progress (setCmd v d) d 0x0005 0 true)
      else none
    | none => none
  else none

/-- The parked command that goes on first when `s` settles, and the state in which it does. -/
def firstResume (s : State) : Option (Cmd × State) :=
  if laurelRuns (resumeRetires (regrant s)) then goesOn (resumeRetires (regrant s)) else none

/-- The packet `p` is fetched in `s` as a command of `op` and starts at once; the answer is that command, running, and the state
in which its own effect happens. -/
def startOf (op : Op) (opc : Nat) (p : Packet) (s : State) : Option (Cmd × State) :=
  if canFetch s p.ring then
    match firstStart (fetchPacket op opc p (sweepOld s)) with
    | some x => if x.1.id = (sweepOld s).nextCmd ∧ x.1.op = op ∧ x.1.pkt.ring = p.ring ∧ x.1.pkt.seq = p.seq then some x else none
    | none => none
  else none

/-- The packet rows of the opcode table: the command, its opcode byte (05 Table 5.10; OP_RUN's opcode is that of its four operators)
and the packet. A reserved opcode is a row of its own. -/
def packetRow : Instr → Option (Op × Nat × Packet)
  | .nop p => some (.nop, 0x00, p)
  | .capsRead p => some (.capsRead, 0x01, p)
  | .sessionOpen p => some (.sessionOpen, 0x02, p)
  | .sessionClose p => some (.sessionClose, 0x03, p)
  | .attest p => some (.attest, 0x04, p)
  | .keyExchange p => some (.keyExchange, 0x05, p)
  | .cancel p => some (.cancel, 0x06, p)
  | .ringCreate p => some (.ringCreate, 0x10, p)
  | .ringDestroy p => some (.ringDestroy, 0x11, p)
  | .semCreate p => some (.semCreate, 0x12, p)
  | .semSignal p => some (.semSignal, 0x13, p)
  | .semWait p => some (.semWait, 0x14, p)
  | .fence p => some (.fence, 0x15, p)
  | .alloc p => some (.alloc, 0x20, p)
  | .free p => some (.free, 0x21, p)
  | .copy p => some (.copy, 0x22, p)
  | .placeHint p => some (.placeHint, 0x23, p)
  | .quotaSet p => some (.quotaSet, 0x24, p)
  | .tableBuild p => some (.tableBuild, 0x25, p)
  | .compress p => some (.compress, 0x26, p)
  | .modelLoad p => some (.modelLoad, 0x30, p)
  | .modelPin p => some (.modelPin, 0x31, p)
  | .modelEvict p => some (.modelEvict, 0x32, p)
  | .modelInfo p => some (.modelInfo, 0x33, p)
  | .seqCreate p => some (.seqCreate, 0x40, p)
  | .seqFree p => some (.seqFree, 0x43, p)
  | .seqAppend p => some (.seqAppend, 0x41, p)
  | .seqFork p => some (.seqFork, 0x42, p)
  | .streamOpen p => some (.streamOpen, 0x44, p)
  | .streamChunk p => some (.streamChunk, 0x45, p)
  | .streamClose p => some (.streamClose, 0x46, p)
  | .stateSwap p => some (.stateSwap, 0x47, p)
  | .graphRun p => some (.graphRun, 0x50, p)
  | .stepPolicy p => some (.stepPolicy, 0x52, p)
  | .matmul p => some (.matmul, 0x51, p)
  | .conv2d p => some (.conv2d, 0x51, p)
  | .pool2d p => some (.pool2d, 0x51, p)
  | .attention p => some (.attention, 0x51, p)
  | .trainStep p => some (.trainStep, 0x53, p)
  | .listenPolicy p => some (.listenPolicy, 0x60, p)
  | .wakeArm p => some (.wakeArm, 0x61, p)
  | .audioRead p => some (.audioRead, 0x62, p)
  | .cameraConfig p => some (.cameraConfig, 0x63, p)
  | .cameraParams p => some (.cameraParams, 0x64, p)
  | .frameRead p => some (.frameRead, 0x65, p)
  | .domainPolicy p => some (.domainPolicy, 0x70, p)
  | .powerLimit p => some (.powerLimit, 0x71, p)
  | .powerStats p => some (.powerStats, 0x72, p)
  | .fwStage p => some (.fwStage, 0x80, p)
  | .fwActivate p => some (.fwActivate, 0x81, p)
  | .fwQuery p => some (.fwQuery, 0x82, p)
  | .faultRead p => some (.faultRead, 0x90, p)
  | .faultClear p => some (.faultClear, 0x91, p)
  | .faultInject p => some (.faultInject, 0x92, p)
  | .counterRead p => some (.counterRead, 0xA0, p)
  | .traceConfig p => some (.traceConfig, 0xA1, p)
  | .watchSet p => some (.watchSet, 0xA2, p)
  | .timeSync p => some (.timeSync, 0xA3, p)
  | .groupJoin p => some (.groupJoin, 0xB0, p)
  | .peerSend p => some (.peerSend, 0xB1, p)
  | .peerCredit p => some (.peerCredit, 0xB2, p)
  | .groupLeave p => some (.groupLeave, 0xB3, p)
  | .badOpcode opc p => if definedOpcodes.contains opc.toNat then none else some (.badOpcode, opc.toNat, p)
  | _ => none

end Sys2Proof.Machine
end

