-- ==== Sys2Proof/Certificates/Slice0/Obligations.lean ====
section
/-! DEFINITION. The statements about the block. Those about a packet row say what its command does in the state in which it starts
(`startOf`), and `ensuing` is what follows; those about an event row take the state once overdue commands have ended (`sweep`, or
`sweepOld` where an end ranks before a deadline of the same tick), and `settle` is what follows. -/

open Sys2Proof Sys2Proof.Machine

/-- For every command i at the front of the queue of pending commands, step answers what exec answers for i on the same state with i taken
off the queue. The queue is the model's own form (notes/assumptions/4.md). (Derived: 05_command_packets.md R112, 00_scope.md.) -/
def Obligations.StepTakesFrontCommand : Prop :=
  ∀ (i : Instr) (rest : List Instr) (s : State), s.pending = i :: rest → step s = exec i { s with pending := rest }

/-- With no command pending: in reset nothing changes; otherwise the STB advances by 1, the audio clocks show whether they rise on the new
tick, a new power limit is taken over with its window of 30,720 tk, staged trace events are written, the camera ports pass the tick,
commands that go on by units commit one, and what has become possible happens. Without a limit that waits, off the multiples of 30,720 tk,
with nothing staged and with no command, those parts change nothing. PDM_CLK_B rises on every tick, PDM_CLK_A on every tick or at 768 kHz on
multiples of 4, and VIB_FS is high for 3 tk from each multiple of 192, each while it runs. That a step on an empty queue is a tick is the
model's choice (notes/assumptions/13.md). (Derived: 02_sensor_time_and_order.md R27, 02_sensor_time_and_order.md R28, 15_power_domains.md
R367, 17_observation.md R391, 12_memory_tiers.md R289.) -/
def Obligations.IdleStepIsOneTick : Prop :=
  (∀ s : State, s.pending = [] → s.boot.inReset = true → step s = .next s)
  ∧ (∀ s x : State, s.pending = [] → s.boot.inReset = false →
      x = { s with stb := s.stb + 1, pins := tickPins s.pins (s.stb + 1) } →
      step s = .next (settle (workUnits (sweepOld (tickCams (portDrain (traceDrain (startWindow x))))))))
  ∧ (∀ s : State, s.power.nextLimit = none → startWindow s = s)
  ∧ (∀ s : State, s.stb % 30720 ≠ 0 → startWindow s = s)
  ∧ (∀ (s : State) (n : Nat), s.power.nextLimit = some n → s.stb % 30720 = 0 →
      startWindow s = { s with power := { s.power with limit := n, nextLimit := none } })
  ∧ (∀ s : State, s.obs.trace0.staged = [] → traceDrain s = s)
  ∧ (∀ s : State, s.obs.trace1.staged = [] → portDrain s = s)
  ∧ (∀ s : State, s.cmds = [] → workUnits s = s)
  ∧ (∀ (p : Pins) (t : Nat), (tickPins p t).vibFs = true ↔ p.vibBclk ≠ 0 ∧ t % 192 < 3)
  ∧ (∀ (p : Pins) (t : Nat), (tickPins p t).pdmBRose = true ↔ p.pdmClkB ≠ 0)
  ∧ (∀ (p : Pins) (t : Nat), (tickPins p t).pdmARose = true ↔ p.pdmClkA ≠ 0 ∧ (p.pdmClkA ≠ 768 ∨ t % 4 = 0))

/-- For every packet row of the opcode table: if the packet is fetched and its command c starts at once in the state w, then exec answers
the next state that the command's own run gives from w, followed by all that has become possible. (Derived: 05_command_packets.md R112,
05_command_packets.md R113, 05_command_packets.md Table 5.9, 05_command_packets.md Table 5.10.) -/
def Obligations.PacketStartsRunsItsCommand : Prop :=
  ∀ (i : Instr) (op : Op) (opc : Nat) (p : Packet) (s w : State) (c : Cmd), packetRow i = some (op, opc, p) → startOf op opc p s = some (c, w) → exec
      i s = .next (ensuing (runCmd c w))

/-- For every packet row: where the ring of the packet gives the device nothing to fetch now, the row leaves the state as it is. That is so
where Laurel does not run or does not hold the lease, the function is not in D0 or the link is down, the ring is not enabled, has no
published packet or no completion entry to spare, or another ring of the function with a better class has a packet to fetch. (Derived:
05_command_packets.md R103, 05_command_packets.md R115, 05_command_packets.md R127, 01_gorse_laurel_and_the_cascade.md R19.) -/
def Obligations.PacketRowsWaitForTheirFetch : Prop :=
  (∀ (i : Instr) (op : Op) (opc : Nat) (p : Packet) (s : State), packetRow i = some (op, opc, p) → canFetch s p.ring = false → exec i s = .next s)
  ∧ (∀ (s : State) (rn : Nat), laurelRuns s = false → canFetch s rn = false)
  ∧ (∀ (s : State) (rn : Nat), s.custody.state ≠ .granted → canFetch s rn = false)
  ∧ (∀ (s : State) (rn : Nat), s.pcie.link = .down → canFetch s rn = false)
  ∧ (∀ (s : State) (rn : Nat), dState s (fnOfRing s rn) ≠ .d0 → canFetch s rn = false)
  ∧ (∀ (s : State) (rn : Nat), (ringOf s rn).enabled = false → canFetch s rn = false)
  ∧ (∀ (s : State) (rn : Nat), (ringOf s rn).fetched = (ringOf s rn).sqTail → canFetch s rn = false)
  ∧ (∀ (s : State) (rn : Nat), freeEntries s (ringOf s rn) ≤ openOn s (ringOf s rn).num → canFetch s rn = false)
  ∧ (∀ (s : State) (rn : Nat) (q : Ring), q ∈ s.rings → fnOfRing s q.num = fnOfRing s rn → fetchable s q = true →
      ringClass q < ringClass (ringOf s rn) → canFetch s rn = false)

/-- For every packet row whose packet is fetched: a packet that does not authenticate completes AUTH_FAIL, one that fails a later check
completes with the status of the first check it fails (a privacy block with what the read has so far as its result), and one that passes all
of them waits for its start. BAD_OPCODE is the row whose packet always fails the second check. (Derived: 05_command_packets.md R104,
05_command_packets.md R112, 05_command_packets.md R109, 05_command_packets.md Table 5.11.) -/
def Obligations.FailedFetchCheckCompletes : Prop :=
  ∀ (i : Instr) (op : Op) (opc : Nat) (p q : Packet) (s u : State), packetRow i = some (op, opc, p) → canFetch s p.ring = true →
    u = sweepOld s → q = { p with body := fitBytes (bodyLen (fnOfRing u p.ring)) p.body } →
    (∀ c, authenticate u (fnOfRing u p.ring) op opc q = none → c = cmdOfPacket u op q false q.body [] →
      exec i s = .next (settleLate (complete (takePacket u c opc false) c .authFail)))
    ∧ (∀ body block c st, authenticate u (fnOfRing u p.ring) op opc q = some body →
      openBlock u (fnOfRing u p.ring == .pf1 && flag q 5) { q with body := body } = .ok block →
      c = cmdOfPacket u op q true body block → fetchStatus u c none = some st →
      exec i s = .next (settleLate (complete (takePacket u c opc true) c st (if st = .privacyBlock then blockedResult u c else []))))
    ∧ (∀ body e c st, authenticate u (fnOfRing u p.ring) op opc q = some body →
      openBlock u (fnOfRing u p.ring == .pf1 && flag q 5) { q with body := body } = .error e →
      c = cmdOfPacket u op q true body [] → fetchStatus u c (some e) = some st →
      exec i s = .next (settleLate (complete (takePacket u c opc true) c st (if st = .privacyBlock then blockedResult u c else []))))
    ∧ (∀ body block c, authenticate u (fnOfRing u p.ring) op opc q = some body →
      openBlock u (fnOfRing u p.ring == .pf1 && flag q 5) { q with body := body } = .ok block →
      c = cmdOfPacket u op q true body block → fetchStatus u c none = none →
      exec i s = .next (settleLate (setCmd (assignSseq (takePacket u c opc true) c).1 (assignSseq (takePacket u c opc true) c).2)))
    ∧ (∀ (c : Cmd) (e : Option Status), op = .badOpcode → c.op = op → fetchStatus u c e = some .badOpcode)

/-- A packet whose opcode is none of Table 5.10, fetched on a ring where it authenticates, is taken and completes BAD_OPCODE; nothing else
of it happens. An opcode that Table 5.10 defines is not this row's, and the row changes nothing. (Derived: 05_command_packets.md R112,
05_command_packets.md Table 5.10, 05_command_packets.md Table 5.11.) -/
def Obligations.ReservedOpcodeFails : Prop :=
  (∀ (opc : Byte) (p q : Packet) (s u : State) (body block : List Byte) (c : Cmd), definedOpcodes.contains opc.toNat = false →
      canFetch s p.ring = true → u = sweepOld s → q = { p with body := fitBytes (bodyLen (fnOfRing u p.ring)) p.body } →
      authenticate u (fnOfRing u p.ring) .badOpcode opc.toNat q = some body →
      openBlock u (fnOfRing u p.ring == .pf1 && flag q 5) { q with body := body } = .ok block →
      c = cmdOfPacket u .badOpcode q true body block →
      exec (.badOpcode opc p) s = .next (settleLate (complete (takePacket u c opc.toNat true) c .badOpcode)))
  ∧ (∀ (opc : Byte) (p q : Packet) (s u : State) (body : List Byte) (e : Status) (c : Cmd), definedOpcodes.contains opc.toNat = false →
      canFetch s p.ring = true → u = sweepOld s → q = { p with body := fitBytes (bodyLen (fnOfRing u p.ring)) p.body } →
      authenticate u (fnOfRing u p.ring) .badOpcode opc.toNat q = some body →
      openBlock u (fnOfRing u p.ring == .pf1 && flag q 5) { q with body := body } = .error e →
      c = cmdOfPacket u .badOpcode q true body [] →
      exec (.badOpcode opc p) s = .next (settleLate (complete (takePacket u c opc.toNat true) c .badOpcode)))
  ∧ (∀ (opc : Byte) (p : Packet) (s : State), definedOpcodes.contains opc.toNat = true → exec (.badOpcode opc p) s = .next s)

/-- If the expanded DEADLINE is already past at fetch, a packet that passes the earlier checks completes DEADLINE_MISSED at once; if the
expanded NOT_BEFORE is later than the expanded DEADLINE, it completes BAD_PARAM. In both cases nothing else of the packet happens. (Stated:
02_sensor_time_and_order.md R44.) -/
def Obligations.DeadlinesAtFetch : Prop :=
  (∀ (s : State) (c : Cmd) (e : Option Status) (d : Int), c.op ≠ .badOpcode → opAllowed s c.fn c.op = true → unitAbsent s c = false → (sessionFree
      c.op = true ∨ c.session ≠ 0) → check5 c.fn c.op c.pkt c.pkt.body (expandedNb s c.pkt) (expandedDl s c.pkt) = true → expandedDl s c.pkt = some d
      → d < (ctrlStamp s : Int) → fetchStatus s c e = some .deadlineMissed)
  ∧ (∀ (s : State) (c : Cmd) (e : Option Status) (n d : Int), c.op ≠ .badOpcode → opAllowed s c.fn c.op = true → unitAbsent s c = false → (sessionFree
      c.op = true ∨ c.session ≠ 0) → expandedNb s c.pkt = some n → expandedDl s c.pkt = some d → d < n → fetchStatus s c e = some .badParam)
  ∧ (∀ (i : Instr) (op : Op) (opc : Nat) (p q : Packet) (s u : State) (body block : List Byte) (c : Cmd) (st : Status),
      packetRow i = some (op, opc, p) → canFetch s p.ring = true → u = sweepOld s →
      q = { p with body := fitBytes (bodyLen (fnOfRing u p.ring)) p.body } → authenticate u (fnOfRing u p.ring) op opc q = some body →
      openBlock u (fnOfRing u p.ring == .pf1 && flag q 5) { q with body := body } = .ok block → c = cmdOfPacket u op q true body block →
      fetchStatus u c none = some st → st = .deadlineMissed ∨ st = .badParam →
      exec i s = .next (settleLate (complete (takePacket u c opc true) c st)))

/-- The expansion of x against the stamp n is n + d with d in -2^31 to 2^31 - 1, and its low 32 bits are x; two low-32 values compare by the
sign of their difference taken as 32 signed bits, and a difference of exactly 2^31 is negative. (Derived: 02_sensor_time_and_order.md R30,
02_sensor_time_and_order.md R29.) -/
def Obligations.LowHalfExpansion : Prop :=
  (∀ (x : U32) (n : Nat), -(2 ^ 31 : Int) ≤ expand32 x n - n ∧ expand32 x n - n < 2 ^ 31 ∧ (expand32 x n) % 2 ^ 32 = (x.toNat : Int))
  ∧ (∀ (s : State) (p : Packet), flag p 0 = true → expandedNb s p = some (expand32 p.notBefore (ctrlStamp s)))
  ∧ (∀ (s : State) (p : Packet), flag p 1 = true → expandedDl s p = some (expand32 p.deadline (ctrlStamp s)))
  ∧ (∀ a b : U32, a - b = 0x80000000#32 → low32Diff a b < 0)
  ∧ (∀ a b : U32, low32Diff a b = 0 ↔ a = b)

/-- NOP echoes parameter bytes 24 to 35. CAPS_READ writes the 512-byte descriptor and reports its length and the map generation.
SESSION_OPEN with PHASE 0 draws a nonce, keeps it as the one challenge, writes it and reports its identifier and its end one second later;
with PHASE 1 and the right proof it opens the session and reports its number and the rings of the function. SESSION_CLOSE cancels the
session's packets, completes OK on the admin ring and frees everything of the session. (Derived: 05_command_packets.md R112,
21_register_reference.md R438, 05_command_packets.md R121, 05_command_packets.md R123, 13_tenants_and_trust.md Table 13.9.) -/
def Obligations.SessionCommandsComplete : Prop :=
  (∀ (p : Packet) (s w : State) (c : Cmd), startOf .nop 0x00 p s = some (c, w) → exec (.nop p) s = .next (ensuing (complete w c .ok (argBytes c 24
      12))))
  ∧ (∀ (p : Packet) (s w : State) (c : Cmd), startOf .capsRead 0x01 p s = some (c, w) → exec (.capsRead p) s = .next (ensuing (complete (writeDest w c
      (arg c 32 8) (capsBytes w c.fn)) c .ok (natLe 2 512 ++ zeroBytes 2 ++ natLe 4 w.boot.mapGen))))
  ∧ (∀ (p : Packet) (s w : State) (c : Cmd) (key : U256), startOf .sessionOpen 0x02 p s = some (c, w) → tenantKey w c.fn = some key → (sess w
      c.fn).lockedUntil ≤ ctrlStamp w → arg c 24 1 = 0 → exec (.sessionOpen p) s = .next (ensuing (complete (writeDest (setSess (bumpFree w) c.fn
      { sess w c.fn with challenge := some ⟨(sess w c.fn).nextChallenge % 65536, Config.drbg w.freeCtr, ctrlStamp w + 3072000⟩, nextChallenge := (sess w c.fn).nextChallenge + 1 })
      c (arg c 32 8) (natLe 32 (Config.drbg w.freeCtr).toNat)) c .ok (natLe 2 ((sess w c.fn).nextChallenge % 65536) ++ zeroBytes 2 ++ natLe 8
      (ctrlStamp w + 3072000)))))
  ∧ (∀ (p : Packet) (s w : State) (c : Cmd) (key : U256) (ch : Challenge), startOf .sessionOpen 0x02 p s = some (c, w) → tenantKey w c.fn = some key →
      (sess w c.fn).lockedUntil ≤ ctrlStamp w → arg c 24 1 = 1 → (sess w c.fn).number = 0 → (sess w c.fn).challenge = some ch → ch.id = arg c 26 2 →
      ctrlStamp w < ch.expires → natLe 32 (proofOf key c.fn ch).toNat = argBytes c 32 32 → exec (.sessionOpen p) s = .next (ensuing (complete
      (openSession c.fn key ch.nonce w) { c with session := sessionOf (openSession c.fn key ch.nonce w) c.fn } .ok (natLe 2 (sessionOf (openSession
      c.fn key ch.nonce w) c.fn) ++ natLe 2 (match c.fn with | .pf0 => 4096 - w.regs.ringSplit | .pf1 => w.regs.ringSplit)))))
  ∧ (∀ (p : Packet) (s w : State) (c : Cmd), startOf .sessionClose 0x03 p s = some (c, w) → exec (.sessionClose p) s = .next (ensuing (unbindSession
      (complete (endAll w (sessionCmds w c.fn) .cancelled)
      { c with pkt := { c.pkt with ring := adminRing (endAll w (sessionCmds w c.fn) .cancelled) c.fn } } .ok) c.fn)))

/-- ATTEST writes the signed report with the certificates and models asked for and keeps the digest of a PF1 report. KEY_EXCHANGE after a
report sets tenant 1's key and renews the KEM key pair. FW_STAGE keeps an image that passes the checks and refuses another with its reason.
FW_ACTIVATE of a component that the frame boundary does not hold, in its turn and at its quiescent point, switches to the staged image; of
the other two it waits for the frame boundary, and when it goes on there it does the same. FW_QUERY writes the firmware record. (Derived:
13_tenants_and_trust.md R316, 13_tenants_and_trust.md R317, 13_tenants_and_trust.md R318, 13_tenants_and_trust.md R323,
13_tenants_and_trust.md R325, 13_tenants_and_trust.md R326, 13_tenants_and_trust.md R327.) -/
def Obligations.TrustCommandsComplete : Prop :=
  (∀ (p : Packet) (s w : State) (c : Cmd) (listed : List Model) (wantChain : Bool) (out : Nat) (body report chain : List Byte) (x y : State), startOf
      .attest 0x04 p s = some (c, w) → listed = (if blk c 44 1 = 1 then (installed w c.fn).take 256 else []) → wantChain = decide (blk c 45 1 = 1 ∧
      w.fw.certOk) → out = 4052 + 72 * listed.length + (if wantChain then 7656 else 0) → destNeed c out ≤ blk c 40 4 → body = reportBody w c.fn
      (bytesAt c.pkt.block 0 32) listed (decide (blk c 44 1 = 1) && decide (256 < (installed w c.fn).length)) → report = body ++ Config.mldsaSign
      (identityKey w) body attestLabel w.freeCtr → chain = (if wantChain then Config.certificates.1 ++ Config.certificates.2 else []) → x = writeDest
      (bumpFree w) c (blk c 32 8) (report ++ chain) → y =
      (match c.fn with | .pf1 => { x with root := { x.root with reportDigest := some (Config.sha3 report), reportKem := x.root.kemId } } | .pf0 => x)
      → exec (.attest p) s = .next (ensuing (complete y c .ok (natLe 4 (4052 + 72 * listed.length) ++ natLe 4 out ++ natLe 2 listed.length ++
      zeroBytes 2))))
  ∧ (∀ (p : Packet) (s w : State) (c : Cmd) (x : State), startOf .keyExchange 0x05 p s = some (c, w) → w.sess1.number = 0 → w.root.reportDigest.map
      digestBytes = some (bytesAt c.pkt.block 8 32) → w.root.reportKem = w.root.kemId → x = (if w.root.k1.isSome then discardTenant1 w else w) → exec
      (.keyExchange p) s = .next (ensuing (complete (bumpFree
      { x with root := { w.root with k1 := some (Config.kmac256 (Config.kemDecaps w.root.kemPair (bytesAt c.pkt.block 64 1088)) (bytesAt c.pkt.block 8 32 ++ sha3Bytes (bytesAt c.pkt.block 64 1088)) (ascii "WYRUN TENANT KEY")), k1Gen := w.root.k1Gen + 1, kemId := w.root.kemId + 1, kemPair := x.freeCtr } })
      c .ok (natLe 4 w.root.kemId ++ natLe 4 (w.root.k1Gen + 1)))))
  ∧ (∀ (p : Packet) (s w : State) (c : Cmd) (img : List Byte), startOf .fwStage 0x80 p s = some (c, w) → img = memReadN w.store.host (arg c 32 8) (arg
      c 40 4) → imageReason w (arg c 24 1) img = 0 → exec (.fwStage p) s = .next (ensuing (complete
      { w with fw := { w.fw with staged := w.fw.staged.filter (fun g => g.component != arg c 24 1) ++ [imageOf (arg c 24 1) img] } } c .ok (fwResult 0
      (imageOf (arg c 24 1) img).version))))
  ∧ (∀ (p : Packet) (s w : State) (c : Cmd), startOf .fwStage 0x80 p s = some (c, w) → imageReason w (arg c 24 1) (memReadN w.store.host (arg c 32 8)
      (arg c 40 4)) ≠ 0 → exec (.fwStage p) s = .next (ensuing (complete w c .fwReject (fwResult (imageReason w (arg c 24 1) (memReadN w.store.host
      (arg c 32 8) (arg c 40 4))) 0))))
  ∧ (∀ (p : Packet) (s w : State) (c : Cmd) (f : FwImage), startOf .fwActivate 0x81 p s = some (c, w) → 3 ≤ arg c 24 1 → stagedOf w (arg c 24 1) =
      some f → securityVersion w ≤ f.svn → activationTurn w c = true → quiescent w (arg c 24 1) = true → exec (.fwActivate p) s = .next (ensuing
      (complete (switchImage w f) c .ok (fwResult 0 f.version))))
  ∧ (∀ (p : Packet) (s w : State) (c : Cmd) (f : FwImage), startOf .fwActivate 0x81 p s = some (c, w) → arg c 24 1 ≤ 2 → c.aux = 0 →
      stagedOf w (arg c 24 1) = some f → securityVersion w ≤ f.svn → exec (.fwActivate p) s = .next (ensuing (park w c .policyHold)))
  ∧ (∀ (s : State) (c : Cmd) (f : FwImage), c.op = .fwActivate → arg c 24 1 ≤ 2 → c.phase = .parked .policyHold → c.aux = 1 →
      stagedOf s (arg c 24 1) = some f → securityVersion s ≤ f.svn → activationTurn s c = true → quiescent s (arg c 24 1) = true →
      resumeCmd c s = some (complete (switchImage s f) c .ok (fwResult 0 f.version)))
  ∧ (∀ (p : Packet) (s w : State) (c : Cmd), startOf .fwQuery 0x82 p s = some (c, w) → exec (.fwQuery p) s = .next (ensuing (complete (writeDest w c
      (arg c 32 8) (natLe 4 (securityVersion w) ++ natLe 1 (b2n w.fw.svnPending + 2 * b2n w.fuse.dbgOff) ++ zeroBytes 59 ++ components.flatMap
      (queryEntry w))) c .ok (natLe 4 (securityVersion w)))))

/-- RING_CREATE of a ring that is not enabled makes it with the fields of the command, the next generation and the session, zeroes its
completion word and completes OK. RING_DESTROY cancels the ring's packets and clears ENABLED and SESSION only. CANCEL ends the packets it
names CANCELLED and reports how many. FENCE waits for the packets fetched before it on the named rings, and with none left completes OK at
once. (Derived: 05_command_packets.md R99, 05_command_packets.md R116, 05_command_packets.md R117, 05_command_packets.md R118,
05_command_packets.md R119, 21_register_reference.md R432.) -/
def Obligations.RingCommandsComplete : Prop :=
  (∀ (p : Packet) (s w : State) (c : Cmd) (r : Ring), startOf .ringCreate 0x10 p s = some (c, w) → (ringOf w (arg c 24 2)).enabled = false →
      generationOf w c.fn (arg c 24 2) ≤ 65535 → r =
      { num := arg c 24 2, enabled := true, cls := arg c 27 1, log2 := arg c 26 1, sqBase := BitVec.ofNat 64 (arg c 28 8), cqBase := BitVec.ofNat 64 (arg c 36 8), cwAddr := BitVec.ofNat 64 (arg c 44 8), generation := generationOf w c.fn (arg c 24 2), session := sessionOf w c.fn, dbIgnored := (ringOf w (arg c 24 2)).dbIgnored }
      → exec (.ringCreate p) s = .next (ensuing (complete (countGeneration (hostOut (setRing (forgetRing w (arg c 24 2)) r) c.fn (arg c 44 8)
      (zeroBytes 8)) c.fn (arg c 24 2)) c .ok (natLe 2 (arg c 24 2) ++ natLe 2 (generationOf w c.fn (arg c 24 2))))))
  ∧ (∀ (p : Packet) (s w : State) (c : Cmd) (x : State), startOf .ringDestroy 0x11 p s = some (c, w) → sameSession w c (arg c 24 2) = true → x =
      endAll w ((w.cmds.filter (fun d => d.pkt.ring == arg c 24 2)).map (·.id)) .cancelled → exec (.ringDestroy p) s = .next (ensuing (complete
      (setRing x { ringOf x (arg c 24 2) with enabled := false, session := 0 }) c .ok)))
  ∧ (∀ (p : Packet) (s w : State) (c : Cmd), startOf .cancel 0x06 p s = some (c, w) → sameSession w c (arg c 24 2) = true → exec (.cancel p) s = .next
      (ensuing (complete (endAll w (cancelMatches w c) .cancelled) c .ok (natLe 4 (cancelMatches w c).length ++ natLe 4 (cancelMatches w c).length))))
  ∧ (∀ (p : Packet) (s w : State) (c : Cmd) (d : Cmd) (v : State), startOf .fence 0x15 p s = some (c, w) → (fenceRings c).all (sameSession w c) = true
      → d =
      { c with phase := .parked .others, awaited := (w.cmds.filter (fun x => (fenceRings c).contains x.pkt.ring && decide (x.id < c.id))).map (·.id) }
      → goesOn (setCmd w d) = some (d, v) → stillOpen v d.awaited = false → exec (.fence p) s = .next (thereafter (complete v d .ok)))

/-- SEM_CREATE takes the lowest free number and makes the semaphore with its count and with the owner context, the owner ring, both or
neither, as the command names them; at the tenant's share it completes QUOTA; with DESTROY it cancels the waiters and removes it. SEM_SIGNAL
adds its amount and reports the new count; past 0xFFFF_FFFF it completes BAD_PARAM and adds nothing. SEM_WAIT waits; one that is then first
among the waiters, with the count at its amount or above, takes the amount away at once and reports what is left. A number that names no
semaphore of the session completes BAD_PARAM. (Derived: 11_steps_and_models.md R266, 11_steps_and_models.md R267, 11_steps_and_models.md
R268.) -/
def Obligations.SemaphoreCommandsComplete : Prop :=
  (∀ (p : Packet) (s w : State) (c : Cmd) (n o r : Nat) (x : Sem), startOf .semCreate 0x12 p s = some (c, w) → arg c 24 1 = 0 →
      o = arg c 32 4 → r = arg c 36 2 → o.testBit 31 = true → contextExists w c.fn (o % 2 ^ 20) = true → r ≠ 0xFFFF → sameSession w c r = true →
      lowestFree (w.work.sems.map (·.num)) 1 65535 = some n → (w.work.sems.filter (fun x => x.fn == c.fn)).length < semShare w c.fn →
      x = { num := n, fn := c.fn, session := sessionOf w c.fn, count := BitVec.ofNat 32 (arg c 28 4), ownerCtx := some (o % 2 ^ 20), ownerRing := some r } →
      exec (.semCreate p) s = .next (ensuing (complete { w with work := { w.work with sems := w.work.sems ++ [x] } } c .ok (natLe 2 n))))
  ∧ (∀ (p : Packet) (s w : State) (c : Cmd) (n o : Nat) (x : Sem), startOf .semCreate 0x12 p s = some (c, w) → arg c 24 1 = 0 →
      o = arg c 32 4 → arg c 36 2 = 0xFFFF → o.testBit 31 = true → contextExists w c.fn (o % 2 ^ 20) = true →
      lowestFree (w.work.sems.map (·.num)) 1 65535 = some n → (w.work.sems.filter (fun x => x.fn == c.fn)).length < semShare w c.fn →
      x = { num := n, fn := c.fn, session := sessionOf w c.fn, count := BitVec.ofNat 32 (arg c 28 4), ownerCtx := some (o % 2 ^ 20), ownerRing := none } →
      exec (.semCreate p) s = .next (ensuing (complete { w with work := { w.work with sems := w.work.sems ++ [x] } } c .ok (natLe 2 n))))
  ∧ (∀ (p : Packet) (s w : State) (c : Cmd) (n r : Nat) (x : Sem), startOf .semCreate 0x12 p s = some (c, w) → arg c 24 1 = 0 →
      r = arg c 36 2 → (arg c 32 4).testBit 31 = false → r ≠ 0xFFFF → sameSession w c r = true →
      lowestFree (w.work.sems.map (·.num)) 1 65535 = some n → (w.work.sems.filter (fun x => x.fn == c.fn)).length < semShare w c.fn →
      x = { num := n, fn := c.fn, session := sessionOf w c.fn, count := BitVec.ofNat 32 (arg c 28 4), ownerCtx := none, ownerRing := some r } →
      exec (.semCreate p) s = .next (ensuing (complete { w with work := { w.work with sems := w.work.sems ++ [x] } } c .ok (natLe 2 n))))
  ∧ (∀ (p : Packet) (s w : State) (c : Cmd) (n : Nat) (x : Sem), startOf .semCreate 0x12 p s = some (c, w) → arg c 24 1 = 0 →
      (arg c 32 4).testBit 31 = false → arg c 36 2 = 0xFFFF →
      lowestFree (w.work.sems.map (·.num)) 1 65535 = some n → (w.work.sems.filter (fun x => x.fn == c.fn)).length < semShare w c.fn →
      x = { num := n, fn := c.fn, session := sessionOf w c.fn, count := BitVec.ofNat 32 (arg c 28 4), ownerCtx := none, ownerRing := none } →
      exec (.semCreate p) s = .next (ensuing (complete { w with work := { w.work with sems := w.work.sems ++ [x] } } c .ok (natLe 2 n))))
  ∧ (∀ (p : Packet) (s w : State) (c : Cmd) (n : Nat), startOf .semCreate 0x12 p s = some (c, w) → arg c 24 1 = 0 →
      (arg c 32 4).testBit 31 = false → arg c 36 2 = 0xFFFF → lowestFree (w.work.sems.map (·.num)) 1 65535 = some n →
      semShare w c.fn ≤ (w.work.sems.filter (fun x => x.fn == c.fn)).length → exec (.semCreate p) s = .next (ensuing (complete w c .quota)))
  ∧ (∀ (p : Packet) (s w : State) (c : Cmd) (x : Sem) (y : State), startOf .semCreate 0x12 p s = some (c, w) → arg c 24 1 = 1 →
      semOf w (arg c 26 2) = some x → x.fn = c.fn → y = endAll w ((semWaiters w x.num).map (·.id)) .cancelled →
      exec (.semCreate p) s = .next (ensuing (complete
        { y with work := { y.work with sems := y.work.sems.filter (fun z => z.num != x.num) } } c .ok (natLe 2 x.num))))
  ∧ (∀ (p : Packet) (s w : State) (c : Cmd) (x : Sem) (y : State), startOf .semSignal 0x13 p s = some (c, w) → semNamed w c = some x →
      x.count.toNat + arg c 26 2 ≤ 0xFFFFFFFF → y = setSem w { x with count := BitVec.ofNat 32 (x.count.toNat + arg c 26 2) } →
      exec (.semSignal p) s = .next (ensuing (complete ((semWaiters y x.num).foldl (fun z d => setCmd z { d with aux := 0 }) y) c .ok
        (natLe 4 (x.count.toNat + arg c 26 2)))))
  ∧ (∀ (p : Packet) (s w : State) (c : Cmd) (x : Sem), startOf .semSignal 0x13 p s = some (c, w) → semNamed w c = some x →
      0xFFFFFFFF < x.count.toNat + arg c 26 2 → exec (.semSignal p) s = .next (ensuing (complete w c .badParam)))
  ∧ (∀ (p : Packet) (s w : State) (c : Cmd) (x : Sem), startOf .semWait 0x14 p s = some (c, w) → semNamed w c = some x →
      exec (.semWait p) s = .next (ensuing (setCmd w { c with phase := .parked .sem, aux := 1 })))
  ∧ (∀ (p : Packet) (s w : State) (c : Cmd) (x y : Sem) (d : Cmd) (v : State), startOf .semWait 0x14 p s = some (c, w) →
      semNamed w c = some x → d = { c with phase := .parked .sem, aux := 1 } → goesOn (setCmd w d) = some (d, v) → semNamed v d = some y →
      (semWaiters v y.num).head?.map (·.id) = some d.id → arg d 26 2 ≤ y.count.toNat →
      exec (.semWait p) s = .next (thereafter (complete (setSem v { y with count := BitVec.ofNat 32 (y.count.toNat - arg d 26 2) }) d .ok
        (natLe 4 (y.count.toNat - arg d 26 2)))))
  ∧ (∀ (p : Packet) (s w : State) (c : Cmd), startOf .semCreate 0x12 p s = some (c, w) → arg c 24 1 = 1 → semOf w (arg c 26 2) = none →
      exec (.semCreate p) s = .next (ensuing (complete w c .badParam)))
  ∧ (∀ (p : Packet) (s w : State) (c : Cmd), startOf .semSignal 0x13 p s = some (c, w) → semNamed w c = none →
      exec (.semSignal p) s = .next (ensuing (complete w c .badParam)))
  ∧ (∀ (p : Packet) (s w : State) (c : Cmd), startOf .semWait 0x14 p s = some (c, w) → semNamed w c = none →
      exec (.semWait p) s = .next (ensuing (complete w c .badParam)))

/-- ALLOC places the object in the first tier of its order with room and reports the address. FREE takes the allocation away once the
commands that use it have completed. COPY of up to 64 KiB that can be delivered writes the bytes at the destination, in the clear or sealed,
and completes; of more, it writes the first 64 KiB and goes on by units of 64 KiB, of which the last completes it; bytes that cannot be read
end it. PLACE_HINT replaces the hint of its object type, or with TIER 0xFF takes it away. QUOTA_SET sets the limit and reports use and
limit, or only reports them. (Derived: 12_memory_tiers.md R283, 12_memory_tiers.md R284, 12_memory_tiers.md R285, 12_memory_tiers.md R286,
12_memory_tiers.md R287, 12_memory_tiers.md R289.) -/
def Obligations.MemoryCommandsComplete : Prop :=
  (∀ (p : Packet) (s w : State) (c : Cmd) (t base : Nat) (x : State) (ev : Bool), startOf .alloc 0x20 p s = some (c, w) → ((allocReq c).hinted w
      c.fn).unitsOk w c.fn = true → ((allocReq c).hinted w c.fn).order.all (fun t => decide (tierLimit t < arg c 24 8)) = false → ((allocReq c).hinted
      w c.fn).order.findSome? (fun t => (tryTier w c.fn ((allocReq c).hinted w c.fn) (arg c 24 8) t).map (fun x => (t, x))) = some (t, x, base, ev) →
      exec (.alloc p) s = .next (ensuing (complete x (c.warns ev warnEvicted) .ok (natLe 8 (addrField t base) ++ [BitVec.ofNat 8 t, BitVec.ofNat 8
      (b2n (((allocReq c).hinted w c.fn).order.head? != some t)), 0, 0]))))
  ∧ (∀ (p : Packet) (s w : State) (c : Cmd) (a b : Alloc) (d : Cmd) (v : State), startOf .free 0x21 p s = some (c, w) → allocNamed w c.fn (arg c 24 8)
      = some a → d =
      { c with phase := .parked .others, awaited := (w.cmds.filter (fun x => x.fn == c.fn && decide (x.id < c.id) && usesAlloc x a)).map (·.id) } →
      goesOn (setCmd w d) = some (d, v) → stillOpen v d.awaited = false → allocNamed v d.fn (arg d 24 8) = some b → exec (.free p) s = .next
      (thereafter (complete { v with store := { v.store with allocs := v.store.allocs.filter (fun x => decide (x ≠ b)) } } d .ok (natLe 8 b.size))))
  ∧ (∀ (p : Packet) (s w : State) (c : Cmd) (x : State) (bs : List Byte), startOf .copy 0x22 p s = some (c, w) → c.cnt = 0 →
      copySide w c.fn (arg c 24 8) (arg c 40 8) true = true → copySide w c.fn (arg c 32 8) (arg c 40 8) false = true →
      ¬(tierOf (arg c 32 8) = 3 ∧ (nandCh w (offOf (arg c 32 8) / nandSize)).readOnly = true) →
      ¬(tierOf (arg c 24 8) = 8 ∧ c.isSealed = true ∧ (readSrc w c (offOf (arg c 24 8)) (arg c 40 8)).2 = some .badParam) →
      tierOf (arg c 32 8) ≠ 8 → arg c 40 8 ≤ 65536 → copyBytes w c (arg c 24 8) 0 (arg c 40 8) = (x, bs, none) →
      exec (.copy p) s = .next (ensuing (complete (tierWrite x (tierOf (arg c 32 8)) (offOf (arg c 32 8)) bs)
        { c with cnt := arg c 40 8, res := natLe 8 (arg c 40 8) } .ok (natLe 8 (arg c 40 8)))))
  ∧ (∀ (p : Packet) (s w : State) (c : Cmd) (x : State) (bs : List Byte), startOf .copy 0x22 p s = some (c, w) → c.cnt = 0 →
      copySide w c.fn (arg c 24 8) (arg c 40 8) true = true → copySide w c.fn (arg c 32 8) (arg c 40 8) false = true →
      ¬(tierOf (arg c 24 8) = 8 ∧ c.isSealed = true ∧ (readSrc w c (offOf (arg c 24 8)) (arg c 40 8)).2 = some .badParam) →
      tierOf (arg c 32 8) = 8 → c.isSealed = false → arg c 40 8 ≤ 65536 → copyBytes w c (arg c 24 8) 0 (arg c 40 8) = (x, bs, none) →
      exec (.copy p) s = .next (ensuing (complete (hostOut x c.fn (offOf (arg c 32 8)) bs)
        { c with cnt := arg c 40 8, res := natLe 8 (arg c 40 8) } .ok (natLe 8 (arg c 40 8)))))
  ∧ (∀ (p : Packet) (s w : State) (c d : Cmd) (x y : State) (bs : List Byte), startOf .copy 0x22 p s = some (c, w) → c.cnt = 0 →
      copySide w c.fn (arg c 24 8) (arg c 40 8) true = true → copySide w c.fn (arg c 32 8) (arg c 40 8) false = true →
      ¬(tierOf (arg c 24 8) = 8 ∧ c.isSealed = true ∧ (readSrc w c (offOf (arg c 24 8)) (arg c 40 8)).2 = some .badParam) →
      tierOf (arg c 32 8) = 8 → c.isSealed = true → arg c 40 8 ≤ 65536 → copyBytes w c (arg c 24 8) 0 (arg c 40 8) = (x, bs, none) →
      sealMore x c (offOf (arg c 32 8)) bs = (y, d) →
      exec (.copy p) s = .next (ensuing (complete y { d with cnt := arg c 40 8, res := natLe 8 (arg c 40 8) } .ok (natLe 8 (arg c 40 8)))))
  ∧ (∀ (p : Packet) (s w : State) (c : Cmd) (x : State) (bs : List Byte), startOf .copy 0x22 p s = some (c, w) → c.cnt = 0 →
      copySide w c.fn (arg c 24 8) (arg c 40 8) true = true → copySide w c.fn (arg c 32 8) (arg c 40 8) false = true →
      ¬(tierOf (arg c 32 8) = 3 ∧ (nandCh w (offOf (arg c 32 8) / nandSize)).readOnly = true) →
      ¬(tierOf (arg c 24 8) = 8 ∧ c.isSealed = true ∧ (readSrc w c (offOf (arg c 24 8)) (arg c 40 8)).2 = some .badParam) →
      tierOf (arg c 32 8) ≠ 8 → 65536 < arg c 40 8 → copyBytes w c (arg c 24 8) 0 65536 = (x, bs, none) →
      exec (.copy p) s = .next (ensuing (setCmd (tierWrite x (tierOf (arg c 32 8)) (offOf (arg c 32 8)) bs)
        { c with cnt := 65536, res := natLe 8 65536, phase := .parked .units })))
  ∧ (∀ (s x : State) (c : Cmd) (bs : List Byte) (n : Nat), c.op = .copy → cmdOf s c.id = some c → c.phase = .parked .units → pathOpen s c = true →
      overdue s c = false → allOn s (cmdDoms s c) = true → tierOf (arg c 32 8) ≠ 8 → n = min 65536 (arg c 40 8 - c.cnt) →
      copyBytes s c (arg c 24 8) c.cnt n = (x, bs, none) → c.cnt + n = arg c 40 8 →
      workUnit s c.id = complete (tierWrite x (tierOf (arg c 32 8)) (offOf (arg c 32 8) + c.cnt) bs)
        { c with cnt := c.cnt + n, res := natLe 8 (c.cnt + n) } .ok (natLe 8 (c.cnt + n)))
  ∧ (∀ (p : Packet) (s w : State) (c : Cmd) (x : State) (bs : List Byte) (e : Status), startOf .copy 0x22 p s = some (c, w) → c.cnt = 0 →
      copySide w c.fn (arg c 24 8) (arg c 40 8) true = true → copySide w c.fn (arg c 32 8) (arg c 40 8) false = true →
      ¬(tierOf (arg c 32 8) = 3 ∧ (nandCh w (offOf (arg c 32 8) / nandSize)).readOnly = true) →
      ¬(tierOf (arg c 24 8) = 8 ∧ c.isSealed = true ∧ (readSrc w c (offOf (arg c 24 8)) (arg c 40 8)).2 = some .badParam) →
      copyBytes w c (arg c 24 8) 0 (min 65536 (arg c 40 8)) = (x, bs, some e) →
      exec (.copy p) s = .next (ensuing (complete x c e (natLe 8 0))))
  ∧ (∀ (p : Packet) (s w : State) (c : Cmd), startOf .placeHint 0x23 p s = some (c, w) → (hintReq c).tier ≠ 0xFF → (hintReq c).obj ≤ 4 → (hintReq
      c).unitsOk w c.fn = true → exec (.placeHint p) s = .next (ensuing (complete
      { w with store := { w.store with hints := w.store.hints.filter (fun h => !(h.fn == c.fn && h.target == (hintReq c).obj)) ++ [{ fn := c.fn, target := (hintReq c).obj, tier := (hintReq c).tier, mode := (hintReq c).mode, coppice := (hintReq c).coppice, groups := (hintReq c).groups }] } }
      c .ok)))
  ∧ (∀ (p : Packet) (s w : State) (c : Cmd), startOf .placeHint 0x23 p s = some (c, w) → (hintReq c).tier = 0xFF → exec (.placeHint p) s = .next
      (ensuing (complete { w with store := { w.store with hints := w.store.hints.filter (fun h => !(h.fn == c.fn && h.target == (hintReq c).obj)) } }
      c .ok)))
  ∧ (∀ (p : Packet) (s w : State) (c : Cmd), startOf .placeHint 0x23 p s = some (c, w) → (hintReq c).tier ≠ 0xFF → 4 < (hintReq c).obj →
      (maskList (hintReq c).groups).all (ownsGroup w c.fn) = true → exec (.placeHint p) s = .next (ensuing (complete
      { w with store := { w.store with hints := w.store.hints.filter (fun h => !(h.fn == c.fn && h.target == (hintReq c).obj)) ++ [{ fn := c.fn, target := (hintReq c).obj, tier := (hintReq c).tier, mode := (hintReq c).mode, coppice := (hintReq c).coppice, groups := (hintReq c).groups }] } }
      c .ok)))
  ∧ (∀ (p : Packet) (s w : State) (c : Cmd) (x : State), startOf .quotaSet 0x24 p s = some (c, w) → arg c 24 1 = 0 → ¬(arg c 25 1 = 3 ∧ ownsCoppice w
      c.fn (arg c 26 1) = false) → arg c 28 4 ≤ quotaMax w c.fn (arg c 25 1) → x =
      { w with store := { w.store with quotas := w.store.quotas.filter (fun q => !(q.fn == c.fn && q.kind == arg c 25 1 && q.coppice == arg c 26 1)) ++ [{ fn := c.fn, kind := arg c 25 1, coppice := arg c 26 1, limit := arg c 28 4 }] } }
      → exec (.quotaSet p) s = .next (ensuing (complete x c .ok (natLe 8 (quotaUsed x c.fn (arg c 25 1) (arg c 26 1)) ++ natLe 4 (quotaLimit x c.fn
      (arg c 25 1) (arg c 26 1))))))
  ∧ (∀ (p : Packet) (s w : State) (c : Cmd), startOf .quotaSet 0x24 p s = some (c, w) → arg c 24 1 = 1 →
      ¬(arg c 25 1 = 3 ∧ ownsCoppice w c.fn (arg c 26 1) = false) → exec (.quotaSet p) s = .next (ensuing (complete w c .ok
      (natLe 8 (quotaUsed w c.fn (arg c 25 1) (arg c 26 1)) ++ natLe 4 (quotaLimit w c.fn (arg c 25 1) (arg c 26 1))))))

/-- TABLE_BUILD of a readable raw tensor writes a header and one code-length table for each segment and reports the segments and the coded
size; of a poisoned one it completes POISON. COMPRESS starts by making the index entries of a compressed destination invalid and commits on
the next tick that its domains allow: it then writes the raw form, the ZMASK blocks or the ENTROPY blocks of a readable tensor, as the
destination's form says, and completes OK with the stored bytes and the blocks stored raw. That the commit falls on the next tick is the
model's choice (notes/assumptions/16.md). (Derived: 07_compressed_operands.md R175, 07_compressed_operands.md R176,
07_compressed_operands.md R177, 07_compressed_operands.md R172, 06_tiles_and_arithmetic.md R159.) -/
def Obligations.CompressionCommandsComplete : Prop :=
  (∀ (p : Packet) (s w : State) (c : Cmd) (d : Desc) (sb segs len : Nat) (x : State) (raw : List Byte) (lens : Nat → List Nat), startOf .tableBuild
      0x25 p s = some (c, w) → operandsPlaced w c = true → d = descAt c.pkt.block 64 → sb = blk c 2 2 → segs = segCount d sb → len = 64 + 128 * segs →
      ownsRange w c.fn (tierOf (blk c 8 8)) (offOf (blk c 8 8)) len = true → usable w (domCop (blk c 4 1)) = true → x = strikeTensor w c (blk c 4 1) d
      → d.raw x = .ok raw → lens = (fun g => segmentLens (bytesAt raw (4096 * sb * g) (4096 * sb))) → exec (.tableBuild p) s = .next (ensuing
      (complete (tierWrite x (tierOf (blk c 8 8)) (offOf (blk c 8 8)) (natLe 2 1 ++ natLe 1 d.format ++ [0] ++ natLe 4 sb ++ natLe 4 segs ++ natLe 4
      (if isCode d.format then len else 0) ++ natLe 8 d.rawSize ++ natLe 8 0 ++ zeroBytes 32 ++ (List.range segs).flatMap (fun g => tableBytes (lens
      g)))) c .ok (natLe 4 segs ++ natLe 8 ((entropyBlocks raw sb lens).map (fun b => b.1.length)).sum))))
  ∧ (∀ (p : Packet) (s w : State) (c : Cmd) (d : Desc) (e : ReadError) (x : State), startOf .tableBuild 0x25 p s = some (c, w) →
      operandsPlaced w c = true → d = descAt c.pkt.block 64 →
      ownsRange w c.fn (tierOf (blk c 8 8)) (offOf (blk c 8 8)) (64 + 128 * segCount d (blk c 2 2)) = true →
      usable w (domCop (blk c 4 1)) = true → x = strikeTensor w c (blk c 4 1) d → d.raw x = .error e → e ≠ .undecodable →
      exec (.tableBuild p) s = .next (ensuing (complete x c .poison)))
  ∧ (∀ (p : Packet) (s w : State) (c : Cmd), startOf .compress 0x26 p s = some (c, w) → operandsPlaced w c = true →
      usable w (domCop (blk c 2 1)) = true → (descAt c.pkt.block 128).form = 0 →
      exec (.compress p) s = .next (ensuing (setCmd w { c with phase := .parked .units, res := zeroBytes 12 })))
  ∧ (∀ (p : Packet) (s w : State) (c : Cmd), startOf .compress 0x26 p s = some (c, w) → operandsPlaced w c = true →
      usable w (domCop (blk c 2 1)) = true → (descAt c.pkt.block 128).form ≠ 0 →
      exec (.compress p) s = .next (ensuing (setCmd (invalidateOut w (descAt c.pkt.block 128)) { c with phase := .parked .units, res := zeroBytes 12 })))
  ∧ (∀ (s : State) (c : Cmd), c.op = .compress → cmdOf s c.id = some c → c.phase = .parked .units → pathOpen s c = true → overdue s c = false →
      allOn s (cmdDoms s c) = true → workUnit s c.id = commitCompress c s)
  ∧ (∀ (s x : State) (c : Cmd) (a b : Desc) (raw : List Byte), a = descAt c.pkt.block 64 → b = descAt c.pkt.block 128 →
      x = strikeTensor s c (blk c 2 1) a → a.recordsPoison x = false → a.raw x = .ok raw → b.form = 0 →
      commitCompress c s = complete (writeRaw (copyRecords x a b) b raw) c .ok (natLe 8 raw.length ++ natLe 4 0))
  ∧ (∀ (s x : State) (c : Cmd) (a b : Desc) (raw : List Byte) (bs : List (List Byte × Bool)), a = descAt c.pkt.block 64 →
      b = descAt c.pkt.block 128 → x = strikeTensor s c (blk c 2 1) a → a.recordsPoison x = false → a.raw x = .ok raw → b.form = 1 →
      bs = zmaskBlocks b raw → commitCompress c s = complete (writeCompressed x a b bs) c .ok
        (natLe 8 (bs.map (fun y => y.1.length)).sum ++ natLe 4 (bs.filter (·.2)).length))
  ∧ (∀ (s x : State) (c : Cmd) (a b : Desc) (raw : List Byte) (bs : List (List Byte × Bool)), a = descAt c.pkt.block 64 →
      b = descAt c.pkt.block 128 → x = strikeTensor s c (blk c 2 1) a → a.recordsPoison x = false → a.raw x = .ok raw → b.form = 2 →
      bs = entropyBlocks raw (field (b.header x) 4 4) (b.segLens x) → commitCompress c s = complete (writeCompressed x a b bs) c .ok
        (natLe 8 (bs.map (fun y => y.1.length)).sum ++ natLe 4 (bs.filter (·.2)).length))

/-- MODEL_LOAD that installs a valid package under a free identifier places its pieces in tier 3, writes the image and the weights there and
reports the model; with ACTION 2 it then starts the residency and waits for it. With ACTION 1 it completes at once for a resident model,
starts the residency of another and waits for it, and completes QUOTA where the residency finds no space. MODEL_PIN drops the pins of a
model, pins a resident one in tier 2, or copies it into the coppices named; for a model that is not resident it waits for the residency.
MODEL_EVICT takes an unpinned model that no step uses out of tier 2, and with ACTION 1 out of the device when nothing is bound to it; a
pinned model is BUSY_PINNED, a bound one is not deleted, and a step in flight is waited for. (Derived: 11_steps_and_models.md R271,
11_steps_and_models.md R272, 11_steps_and_models.md R273, 11_steps_and_models.md R274.) -/
def Obligations.ModelCommandsComplete : Prop :=
  (∀ (p : Packet) (s w x y z : State) (c : Cmd) (id : Nat) (pkg : List Byte) (m : Model) (e : Bool) (bases : List Nat),
      startOf .modelLoad 0x30 p s = some (c, w) → arg c 24 1 = 0 →
      id = (if arg c 26 2 = 0 then (lowestFree ((w.work.models.filter (·.fn == c.fn)).map (·.id)) 1 65535).getD 0 else arg c 26 2) → id ≠ 0 →
      modelOf w c.fn id = none → readSrc w c (arg c 28 8) (arg c 36 8) = (pkg, none) → packageOk pkg = true → m = modelFrom c.fn id pkg →
      placeAll (fun s n => placeObject s c.fn 3 0 n 22 id false) w m.pieces = some (x, e) →
      bases = (x.store.allocs.filter (fun a => a.fn == c.fn && a.tier == 3 && a.obj == 22 && a.owner == id)).map (·.base) →
      y = (bases.zip (m.image :: (weightDescs pkg).map (fun d => bytesAt pkg d.off d.extent))).foldl (fun s q => tierWrite s 3 q.1 q.2) x →
      z = { y with work := { y.work with models := y.work.models ++ [m] } } →
      exec (.modelLoad p) s = .next (ensuing (complete z c .ok (loadResult m))))
  ∧ (∀ (p : Packet) (s w x y z : State) (c : Cmd) (id : Nat) (pkg : List Byte) (m : Model) (e : Bool) (bases : List Nat) (r : State × Bool),
      startOf .modelLoad 0x30 p s = some (c, w) → arg c 24 1 = 2 →
      id = (if arg c 26 2 = 0 then (lowestFree ((w.work.models.filter (·.fn == c.fn)).map (·.id)) 1 65535).getD 0 else arg c 26 2) → id ≠ 0 →
      modelOf w c.fn id = none → readSrc w c (arg c 28 8) (arg c 36 8) = (pkg, none) → packageOk pkg = true → m = modelFrom c.fn id pkg →
      placeAll (fun s n => placeObject s c.fn 3 0 n 22 id false) w m.pieces = some (x, e) →
      bases = (x.store.allocs.filter (fun a => a.fn == c.fn && a.tier == 3 && a.obj == 22 && a.owner == id)).map (·.base) →
      y = (bases.zip (m.image :: (weightDescs pkg).map (fun d => bytesAt pkg d.off d.extent))).foldl (fun s q => tierWrite s 3 q.1 q.2) x →
      z = { y with work := { y.work with models := y.work.models ++ [m] } } → m.resident = none → startResidency z m = some r →
      exec (.modelLoad p) s = .next (ensuing (park r.1
        ({ c with aux := m.id, res := loadResult m }.warns (r.2 || m.wasEvicted) warnEvicted) .residency)))
  ∧ (∀ (p : Packet) (s w : State) (c : Cmd) (m : Model), startOf .modelLoad 0x30 p s = some (c, w) → arg c 24 1 = 1 → arg c 26 2 ≠ 0 →
      modelOf w c.fn (arg c 26 2) = some m → m.resident.isSome = true →
      exec (.modelLoad p) s = .next (ensuing (complete w { c with aux := m.id, res := loadResult m } .ok (loadResult m))))
  ∧ (∀ (p : Packet) (s w : State) (c : Cmd) (m : Model) (r : State × Bool), startOf .modelLoad 0x30 p s = some (c, w) → arg c 24 1 = 1 →
      arg c 26 2 ≠ 0 → modelOf w c.fn (arg c 26 2) = some m → m.resident = none → startResidency w m = some r →
      exec (.modelLoad p) s = .next (ensuing (park r.1
        ({ c with aux := m.id, res := loadResult m }.warns (r.2 || m.wasEvicted) warnEvicted) .residency)))
  ∧ (∀ (p : Packet) (s w : State) (c : Cmd) (m : Model), startOf .modelLoad 0x30 p s = some (c, w) → arg c 24 1 = 1 →
      arg c 26 2 ≠ 0 → modelOf w c.fn (arg c 26 2) = some m → m.resident = none → startResidency w m = none →
      exec (.modelLoad p) s = .next (ensuing (complete w { c with aux := m.id, res := loadResult m } .quota)))
  ∧ (∀ (p : Packet) (s w : State) (c : Cmd) (m : Model), startOf .modelPin 0x31 p s = some (c, w) → modelOf w c.fn (arg c 24 2) = some m →
      arg c 26 1 = 0 →
      exec (.modelPin p) s = .next (ensuing (complete (dropAllocs (setModel w { m with pin1 := false, pin2 := 0 }) c.fn [21] m.id) c .ok)))
  ∧ (∀ (p : Packet) (s w : State) (c : Cmd) (m : Model), startOf .modelPin 0x31 p s = some (c, w) → modelOf w c.fn (arg c 24 2) = some m →
      arg c 26 1 = 1 → m.resident.isSome = true →
      exec (.modelPin p) s = .next (ensuing (complete (setModel w { m with pin1 := true }) c .ok)))
  ∧ (∀ (p : Packet) (s w : State) (c : Cmd) (m : Model) (r : State × Bool), startOf .modelPin 0x31 p s = some (c, w) →
      modelOf w c.fn (arg c 24 2) = some m → arg c 26 1 = 2 → m.resident.isSome = true →
      pinCopies (dropAllocs w c.fn [21] m.id) m (maskList (arg c 27 1)) = some r →
      exec (.modelPin p) s = .next (ensuing (complete (setModel r.1 { m with pin2 := BitVec.ofNat 4 (arg c 27 1) }) c .ok)))
  ∧ (∀ (p : Packet) (s w : State) (c : Cmd) (m : Model) (r : State × Bool), startOf .modelPin 0x31 p s = some (c, w) →
      modelOf w c.fn (arg c 24 2) = some m → arg c 26 1 ≠ 0 → m.resident = none → startResidency w m = some r →
      exec (.modelPin p) s = .next (ensuing (residencyWait r.1 (c.warns (r.2 || m.wasEvicted) warnEvicted) 0)))
  ∧ (∀ (p : Packet) (s w : State) (c : Cmd) (m : Model), startOf .modelEvict 0x32 p s = some (c, w) → modelOf w c.fn (arg c 24 2) = some m →
      pinned m = false → arg c 26 1 = 0 → stepOf w c.fn m.id = none → m.loading = false → m.resident.isSome = true →
      exec (.modelEvict p) s = .next (ensuing (complete (evictModel w m) c .ok)))
  ∧ (∀ (p : Packet) (s w : State) (c : Cmd) (m : Model), startOf .modelEvict 0x32 p s = some (c, w) → modelOf w c.fn (arg c 24 2) = some m →
      pinned m = false → arg c 26 1 = 0 → stepOf w c.fn m.id = none → m.loading = false → m.resident = none →
      exec (.modelEvict p) s = .next (ensuing (complete w c .ok)))
  ∧ (∀ (p : Packet) (s w : State) (c : Cmd) (m : Model), startOf .modelEvict 0x32 p s = some (c, w) → modelOf w c.fn (arg c 24 2) = some m →
      pinned m = false → arg c 26 1 = 1 → modelBound w c.fn m.id = false → stepOf w c.fn m.id = none → m.loading = false →
      m.resident.isSome = true → exec (.modelEvict p) s = .next (ensuing (complete (deleteModel (evictModel w m) m) c .ok)))
  ∧ (∀ (p : Packet) (s w : State) (c : Cmd) (m : Model), startOf .modelEvict 0x32 p s = some (c, w) → modelOf w c.fn (arg c 24 2) = some m →
      pinned m = false → arg c 26 1 = 1 → modelBound w c.fn m.id = false → stepOf w c.fn m.id = none → m.loading = false →
      m.resident = none → exec (.modelEvict p) s = .next (ensuing (complete (deleteModel w m) c .ok)))
  ∧ (∀ (p : Packet) (s w : State) (c : Cmd) (m : Model), startOf .modelEvict 0x32 p s = some (c, w) → modelOf w c.fn (arg c 24 2) = some m →
      pinned m = false → arg c 26 1 = 1 → modelBound w c.fn m.id = true → exec (.modelEvict p) s = .next (ensuing (complete w c .badParam)))
  ∧ (∀ (p : Packet) (s w : State) (c : Cmd) (m : Model), startOf .modelEvict 0x32 p s = some (c, w) → modelOf w c.fn (arg c 24 2) = some m →
      pinned m = true → exec (.modelEvict p) s = .next (ensuing (complete w c .busyPinned)))
  ∧ (∀ (p : Packet) (s w : State) (c : Cmd) (m : Model), startOf .modelEvict 0x32 p s = some (c, w) → modelOf w c.fn (arg c 24 2) = some m →
      pinned m = false → arg c 26 1 = 0 → (stepOf w c.fn m.id).isSome = true → exec (.modelEvict p) s = .next (ensuing (park w c .step)))

/-- MODEL_INFO of an identifier from 0x0001 to 0xFFFF that names no installed model of the tenant completes OK with TIERS 0 and LAST_USE 0,
and writes 64 zero bytes when DEST is not 0. MODEL_INFO of an installed model reports its place, its last use and, when DEST is not 0, its
record. An identifier of 0 fails the parameter check of the fetch. (Stated: 11_steps_and_models.md R446.) -/
def Obligations.ModelInfoOfAbsentModel : Prop :=
  (∀ (p : Packet) (s w : State) (c : Cmd), startOf .modelInfo 0x33 p s = some (c, w) → modelOf w c.fn (arg c 24 2) = none → exec (.modelInfo p) s =
      .next (ensuing (complete (if arg c 32 8 = 0 then w else writeDest w c (arg c 32 8) (zeroBytes 64)) c .ok (natLe 2 (arg c 24 2) ++ zeroBytes
      10))))
  ∧ (∀ (p : Packet) (s w : State) (c : Cmd) (m : Model), startOf .modelInfo 0x33 p s = some (c, w) → modelOf w c.fn (arg c 24 2) = some m → exec
      (.modelInfo p) s = .next (ensuing (complete (if arg c 32 8 = 0 then w else writeDest w c (arg c 32 8) (natLe 8 m.extent ++ natLe 2 (if m.pin2 =
      0 then 0 else ceilDiv m.extent waySize) ++ zeroBytes 6 ++ natLe 32 m.imageDigest.toNat ++ zeroBytes 16)) c .ok (natLe 2 (arg c 24 2) ++
      [BitVec.ofNat 8 (1 + 2 * b2n m.resident.isSome + 4 * b2n m.pin1 + 8 * b2n (m.pin2 != 0)), 0] ++ natLe 8 m.lastUse))))
  ∧ (∀ (s : State) (c : Cmd), c.op = .modelInfo → opAllowed s c.fn c.op = true → c.session ≠ 0 → check5 c.fn c.op c.pkt c.pkt.body (expandedNb s
      c.pkt) (expandedDl s c.pkt) = true →
    (∀ d, expandedDl s c.pkt = some d → (ctrlStamp s : Int) ≤ d) → arg c 24 2 = 0 → fetchStatus s c none = some .badParam)

/-- SEQ_CREATE makes a conversation, or a sequence of a resident model, alone or in a conversation, with its directory placed in tier 2, and
reports its handle and charge; for a model that is not resident it waits for the residency it starts. SEQ_FREE cancels the appends and forks
of the sequences it names, one sequence or all of a conversation, frees them and the conversation, and reports the frames freed. SEQ_FORK at
its position, or at the parent's length, shares the parent's pages below it with a new sequence; while the parent is in a step it waits.
SEQ_APPEND whose positions, with those of the earlier appends, stay within 65,536 takes the next place behind them and waits for its turn;
with none open before it, it goes on into a slot of the sequence table (MembersCommitWithTheirStep says what its positions then do), and
past 65,536 it completes LENGTH_LIMIT. Each of the last three reads its context first; where a line of it is poisoned, the command ends
POISON. (Derived: 09_attention_and_pages.md R211, 09_attention_and_pages.md R212, 09_attention_and_pages.md R213, 09_attention_and_pages.md
R214, 11_steps_and_models.md R254, 11_steps_and_models.md R275, 12_memory_tiers.md R297.) -/
def Obligations.ContextCommandsComplete : Prop :=
  (∀ (p : Packet) (s w : State) (c : Cmd) (h : Nat), startOf .seqCreate 0x40 p s = some (c, w) → arg c 27 1 = 1 →
      newHandle w c.fn (handlesUsed w) = some h → entriesFit w c.fn 1 = true → exec (.seqCreate p) s = .next (ensuing (complete
      { w with work := { w.work with convs := w.work.convs ++ [{ handle := h, fn := c.fn, session := sessionOf w c.fn, cls := arg c 26 1 }] } } c .ok
      (natLe 4 h ++ natLe 4 0))))
  ∧ (∀ (p : Packet) (s w : State) (c : Cmd) (m : Model) (g : KvGeom) (x : State) (q : Seqn) (ev : Bool) (k : Option Nat),
      startOf .seqCreate 0x40 p s = some (c, w) → arg c 27 1 ≠ 1 →
      ((arg c 28 4).testBit 31 = true → (convOf w c.fn (arg c 28 4 % 2 ^ 20)).isSome = true) → modelOf w c.fn (arg c 24 2) = some m →
      m.kv = some g → g.ok = true → m.resident.isSome = true →
      k = (if (arg c 28 4).testBit 31 then some (arg c 28 4 % 2 ^ 20) else none) → newSeq w c.fn m.id (arg c 26 1) g k = some (x, q, ev) →
      exec (.seqCreate p) s = .next (ensuing (complete x (c.warns ev warnEvicted) .ok (natLe 4 q.handle ++ natLe 4 q.charge))))
  ∧ (∀ (p : Packet) (s w : State) (c : Cmd) (m : Model) (g : KvGeom) (r : State × Bool), startOf .seqCreate 0x40 p s = some (c, w) →
      arg c 27 1 ≠ 1 → ((arg c 28 4).testBit 31 = true → (convOf w c.fn (arg c 28 4 % 2 ^ 20)).isSome = true) →
      modelOf w c.fn (arg c 24 2) = some m → m.kv = some g → g.ok = true → m.resident = none → startResidency w m = some r →
      exec (.seqCreate p) s = .next (ensuing (residencyWait r.1 (c.warns (r.2 || m.wasEvicted) warnEvicted) 0)))
  ∧ (∀ (p : Packet) (s w v x z : State) (c : Cmd) (mine : List Seqn) (conv : Bool) (r : State × Nat), startOf .seqFree 0x43 p s = some (c, w) →
      v = contextRead c w → rangesPoisoned v (contextRanges w c) = false → conv = (convOf v c.fn (ctxHandle c.pkt)).isSome →
      mine = v.work.seqs.filter (fun q => q.fn == c.fn && (q.handle == ctxHandle c.pkt || (conv && q.conv == some (ctxHandle c.pkt)))) →
      (mine ≠ [] ∨ conv = true) → x = endAll v (seqUsers v c (mine.map (·.handle))) .cancelled →
      r = freeSeqs x c.fn mine →
      z = { r.1 with work := { r.1.work with convs := r.1.work.convs.filter (fun k => !(conv && k.handle == ctxHandle c.pkt)) } } →
      exec (.seqFree p) s = .next (ensuing (complete z c .ok (natLe 4 r.2))))
  ∧ (∀ (p : Packet) (s w v : State) (c : Cmd) (q k : Seqn) (at0 : Nat) (shared : List Page) (x y : State) (ev : Bool),
      startOf .seqFork 0x42 p s = some (c, w) → v = contextRead c w → rangesPoisoned v (contextRanges w c) = false →
      seqOf v c.fn (ctxHandle c.pkt) = some q → inStep v c.fn q.handle = false →
      at0 = (if arg c 24 4 = 0xFFFFFFFF then q.length else arg c 24 4) → at0 ≤ q.length →
      shared = q.pages.filter (fun p => decide (p.index < ceilDiv at0 q.geom.tokens)) →
      shared.any (fun p => v.store.frames.any (fun f => f.pfn == p.pfn && decide (65535 ≤ f.refs))) = false →
      newSeq v c.fn q.model q.cls q.geom none = some (x, k, ev) →
      y = setSeq (shared.foldl (fun s p => raiseFrame s p.pfn) x)
        { q with pages := q.pages.map (fun p => if p.index < ceilDiv at0 q.geom.tokens then { p with shared := true } else p) } →
      exec (.seqFork p) s = .next (ensuing (complete
        (setSeq y { k with length := at0, pages := shared.map (childPage q.geom at0) }) (c.warns ev warnEvicted)
        .ok (natLe 4 k.handle ++ natLe 4 at0 ++ natLe 4 shared.length))))
  ∧ (∀ (p : Packet) (s w v : State) (c : Cmd) (q : Seqn), startOf .seqFork 0x42 p s = some (c, w) → v = contextRead c w →
      rangesPoisoned v (contextRanges w c) = false → seqOf v c.fn (ctxHandle c.pkt) = some q → inStep v c.fn q.handle = true →
      exec (.seqFork p) s = .next (ensuing (park v c .step)))
  ∧ (∀ (p : Packet) (s w v : State) (c d : Cmd) (q : Seqn) (m : Model) (others : List Cmd), startOf .seqAppend 0x41 p s = some (c, w) →
      v = contextRead c w → rangesPoisoned v (contextRanges w c) = false → seqOf v c.fn (ctxHandle c.pkt) = some q →
      modelOf v c.fn q.model = some m → appendAgrees v c m q = true →
      others = v.cmds.filter (fun d => d.id != c.id && d.fn == c.fn && d.op == .seqAppend && d.phase != .waiting && ctxHandle d.pkt == q.handle) →
      q.length + (others.map (fun d => blk d 4 4 - d.cnt)).sum + blk c 4 4 ≤ 65536 →
      d = { c with sseq := (others.map (·.sseq)).foldl max 0 + 1, phase := .parked .turn, misc := [0, 0] } →
      exec (.seqAppend p) s = .next (ensuing (matchWatch (setCmd v { d with res := appendResult d q.length }) d)))
  ∧ (∀ (p : Packet) (s w v : State) (c : Cmd) (q : Seqn) (m : Model) (others : List Cmd), startOf .seqAppend 0x41 p s = some (c, w) →
      v = contextRead c w → rangesPoisoned v (contextRanges w c) = false → seqOf v c.fn (ctxHandle c.pkt) = some q →
      modelOf v c.fn q.model = some m → appendAgrees v c m q = true →
      others = v.cmds.filter (fun d => d.id != c.id && d.fn == c.fn && d.op == .seqAppend && d.phase != .waiting && ctxHandle d.pkt == q.handle) →
      65536 < q.length + (others.map (fun d => blk d 4 4 - d.cnt)).sum + blk c 4 4 →
      exec (.seqAppend p) s = .next (ensuing (complete v c .lengthLimit)))
  ∧ (∀ (p : Packet) (s w v u : State) (c d e : Cmd) (q q2 : Seqn) (m : Model) (others : List Cmd), startOf .seqAppend 0x41 p s = some (c, w) →
      v = contextRead c w → rangesPoisoned v (contextRanges w c) = false → seqOf v c.fn (ctxHandle c.pkt) = some q →
      modelOf v c.fn q.model = some m → appendAgrees v c m q = true →
      others = v.cmds.filter (fun d => d.id != c.id && d.fn == c.fn && d.op == .seqAppend && d.phase != .waiting && ctxHandle d.pkt == q.handle) →
      q.length + (others.map (fun d => blk d 4 4 - d.cnt)).sum + blk c 4 4 ≤ 65536 →
      d = { c with sseq := (others.map (·.sseq)).foldl max 0 + 1, phase := .parked .turn, misc := [0, 0] } →
      goesOn (matchWatch (setCmd v { d with res := appendResult d q.length }) d) = some (e, u) → e.op = .seqAppend → e.phase = .parked .turn →
      seqOf u e.fn (ctxHandle e.pkt) = some q2 → earlierOn u e = [] →
      exec (.seqAppend p) s = .next (thereafter (enterTable u e 1 q2.handle q2.cls q2.model)))
  ∧ (∀ (s : State) (c : Cmd) (f : State → State), rangesPoisoned (contextRead c s) (contextRanges s c) = true →
      withContext c s f = endCmd (contextRead c s) c .poison)

/-- STREAM_OPEN of a recurrent model opens a stream whose state is zero, or the values of the image it names, and reports its handle, its
wide size and its form; without room it completes QUOTA. STREAM_CHUNK that agrees with its model waits for its turn, and goes on in its turn
into a slot of the sequence table (its positions commit with scan chunks). STREAM_CLOSE, which with ABORT first cancels the lower commands
of the stream, waits for its turn, and in its turn frees the stream and reports its number. STATE_SWAP waits for its turn and then acts: a
state already at the level asked for stays; another moves to tier 3, or is placed in tier 2, or waits where tier 2 has no room for it;
ACTION 1 writes the image of the state; ACTION 2 takes the values of an image; ACTION 3 puts the initial state back. Each completes OK with
the number, the level and the form. (Derived: 10_recurrence.md R243, 10_recurrence.md R245, 10_recurrence.md R246, 10_recurrence.md R247,
10_recurrence.md R251, 10_recurrence.md R252, 11_steps_and_models.md R254.) -/
def Obligations.StreamCommandsComplete : Prop :=
  (∀ (p : Packet) (s w : State) (c : Cmd) (m : Model) (im : State × Except Status (List U32)) (init : List U32) (y : State) (x : Stream) (ev : Bool),
      startOf .streamOpen 0x44 p s = some (c, w) → modelOf w c.fn (arg c 24 2) = some m → m.recurrent = true →
      im = (if arg c 32 8 = 0 then (w, .ok (List.replicate (wideSize m / 4) 0)) else readImage w c m (arg c 32 8) (arg c 40 4)) →
      im.2 = .ok init → newStream im.1 c m init = some (y, x, ev) →
      exec (.streamOpen p) s = .next (ensuing (complete y ((c.warns ev warnEvicted).warns x.narrow warnNarrow) .ok
        (natLe 4 x.handle ++ natLe 4 x.wide ++ natLe 1 (b2n x.narrow)))))
  ∧ (∀ (p : Packet) (s w : State) (c : Cmd) (m : Model), startOf .streamOpen 0x44 p s = some (c, w) → modelOf w c.fn (arg c 24 2) = some m →
      m.recurrent = true → arg c 32 8 = 0 → newStream w c m (List.replicate (wideSize m / 4) 0) = none →
      exec (.streamOpen p) s = .next (ensuing (complete w c .quota)))
  ∧ (∀ (p : Packet) (s w v u : State) (c d : Cmd) (x y : Stream) (m : Model), startOf .streamChunk 0x45 p s = some (c, w) →
      v = contextRead c w → rangesPoisoned v (contextRanges w c) = false → streamNamed v c = some x → modelOf v c.fn x.model = some m →
      agrees (m.tmplIn 0) (descAt c.pkt.block 64) (some (blk c 4 4)) = true →
      (!(descAt c.pkt.block 128).present || agrees (m.tmplOut 0) (descAt c.pkt.block 128) none) = true → operandsPlaced v c = true →
      goesOn (park v c .turn) = some (d, u) → d.op = .streamChunk → d.phase = .parked .turn → streamNamed u d = some y → streamTurn u d = true →
      exec (.streamChunk p) s = .next (thereafter (enterTable (matchWatch u d) d 2 y.handle y.cls y.model)))
  ∧ (∀ (p : Packet) (s w v : State) (c : Cmd) (x : Stream) (m : Model), startOf .streamChunk 0x45 p s = some (c, w) →
      v = contextRead c w → rangesPoisoned v (contextRanges w c) = false → streamNamed v c = some x → modelOf v c.fn x.model = some m →
      agrees (m.tmplIn 0) (descAt c.pkt.block 64) (some (blk c 4 4)) = true →
      (!(descAt c.pkt.block 128).present || agrees (m.tmplOut 0) (descAt c.pkt.block 128) none) = true → operandsPlaced v c = true →
      exec (.streamChunk p) s = .next (ensuing (park v c .turn)))
  ∧ (∀ (p : Packet) (s w v z u : State) (c d : Cmd) (x y : Stream) (later : List Nat), startOf .streamClose 0x46 p s = some (c, w) →
      v = contextRead c w → rangesPoisoned v (contextRanges w c) = false → streamNamed v c = some x →
      z = (if arg c 24 1 = 1 then endAll (park v c .turn)
        (((streamCmds (park v c .turn) c).filter (fun d => decide (d.sseq < c.sseq))).map (·.id)) .cancelled else park v c .turn) →
      goesOn z = some (d, u) → d.op = .streamClose → streamNamed u d = some y → streamTurn u d = true →
      later = ((streamCmds u d).filter (fun z => z.id != d.id)).map (·.id) →
      exec (.streamClose p) s = .next (thereafter (complete
        (freeStream { u with cmds := u.cmds.map (fun z => if later.contains z.id then { z with lost := 2 } else z) } y) d .ok (natLe 4 d.sseq))))
  ∧ (∀ (p : Packet) (s w v z : State) (c : Cmd) (x : Stream), startOf .streamClose 0x46 p s = some (c, w) →
      v = contextRead c w → rangesPoisoned v (contextRanges w c) = false → streamNamed v c = some x →
      z = (if arg c 24 1 = 1 then endAll (park v c .turn)
        (((streamCmds (park v c .turn) c).filter (fun d => decide (d.sseq < c.sseq))).map (·.id)) .cancelled else park v c .turn) →
      exec (.streamClose p) s = .next (ensuing z))
  ∧ (∀ (p : Packet) (s w v : State) (c : Cmd) (x : Stream) (m : Model), startOf .stateSwap 0x47 p s = some (c, w) →
      v = contextRead c w → rangesPoisoned v (contextRanges w c) = false → streamNamed v c = some x → modelOf v c.fn x.model = some m →
      (arg c 24 1 = 1 ∨ arg c 24 1 = 2 → [1, 2, 3].contains (tierOf (arg c 28 8)) = true ∧
        ownsRange v c.fn (tierOf (arg c 28 8)) (offOf (arg c 28 8)) (arg c 36 4) = true ∧ 64 + wideSize m ≤ arg c 36 4) →
      exec (.stateSwap p) s = .next (ensuing (park v c .turn)))
  ∧ (∀ (p : Packet) (s w v u z : State) (c d : Cmd) (x y : Stream) (m n : Model), startOf .stateSwap 0x47 p s = some (c, w) →
      v = contextRead c w → rangesPoisoned v (contextRanges w c) = false → streamNamed v c = some x → modelOf v c.fn x.model = some m →
      (arg c 24 1 = 1 ∨ arg c 24 1 = 2 → [1, 2, 3].contains (tierOf (arg c 28 8)) = true ∧
        ownsRange v c.fn (tierOf (arg c 28 8)) (offOf (arg c 28 8)) (arg c 36 4) = true ∧ 64 + wideSize m ≤ arg c 36 4) →
      goesOn (park v c .turn) = some (d, u) → d.op = .stateSwap → streamNamed u d = some y → modelOf u d.fn y.model = some n →
      streamTurn u d = true → y.prefetch = false → swapAct d n y u = some z → exec (.stateSwap p) s = .next (thereafter z))
  ∧ (∀ (s : State) (c : Cmd) (m : Model) (x : Stream), arg c 24 1 = 0 → arg c 25 1 = 3 → x.home = 3 →
      swapAct c m x s = some (swapDone s c x false))
  ∧ (∀ (s u z : State) (c : Cmd) (m : Model) (x : Stream), arg c 24 1 = 0 → arg c 25 1 = 3 → x.home ≠ 3 →
      u = strikeState (captureBy s c 0x54) x s → statePoisoned u x = false → stateToStore u x = some z →
      swapAct c m x s = some (swapDone z (c.warns x.narrow warnNarrow) { x with home := 3 } false))
  ∧ (∀ (s : State) (c : Cmd) (m : Model) (x : Stream), arg c 24 1 = 0 → arg c 25 1 = 2 → x.home = 2 → (x.narrow && arg c 26 1 == 1) = false →
      swapAct c m x s = some (swapDone s c x false))
  ∧ (∀ (s u z : State) (c : Cmd) (m : Model) (x y : Stream) (ev : Bool), arg c 24 1 = 0 → arg c 25 1 = 2 →
      (x.home ≠ 2 ∨ (x.narrow && arg c 26 1 == 1) = true) → u = strikeState (captureBy s c 0x54) x s → statePoisoned u x = false → placeState u m x (arg c 26 1 == 1) = some (z, y, ev) →
      c.resWaited = false → swapAct c m x s = some (swapDone z c y ev))
  ∧ (∀ (s u : State) (c : Cmd) (m : Model) (x : Stream), arg c 24 1 = 0 → arg c 25 1 = 2 →
      (x.home ≠ 2 ∨ (x.narrow && arg c 26 1 == 1) = true) → u = strikeState (captureBy s c 0x54) x s → statePoisoned u x = false →
      placeState u m x (arg c 26 1 == 1) = none → c.resWaited = false → swapAct c m x s = some (residencyWait u c x.handle))
  ∧ (∀ (s u : State) (c : Cmd) (m : Model) (x : Stream), arg c 24 1 = 1 → u = strikeState (captureBy s c 0x54) x s → statePoisoned u x = false →
      ¬(tierOf (arg c 28 8) = 3 ∧ (nandCh u (offOf (arg c 28 8) / nandSize)).readOnly = true) →
      swapAct c m x s = some (swapDone (tierWrite u (tierOf (arg c 28 8)) (offOf (arg c 28 8))
        (imageHeader m ++ x.carried.flatMap (fun v => natLe 4 v.toNat))) c x false))
  ∧ (∀ (s z : State) (c : Cmd) (m : Model) (x : Stream) (vs : List U32), arg c 24 1 = 2 → x.home ≠ 2 →
      readImage s c m (arg c 28 8) (arg c 36 4) = (z, .ok vs) →
      swapAct c m x s = some (swapDone (setStream z { x with carried := storeState m x.narrow vs }) c { x with carried := storeState m x.narrow vs } false))
  ∧ (∀ (s u z : State) (c : Cmd) (m : Model) (x y : Stream) (vs : List U32) (ev : Bool), arg c 24 1 = 2 → x.home = 2 →
      readImage s c m (arg c 28 8) (arg c 36 4) = (u, .ok vs) → placeState u m { x with carried := vs } false = some (z, y, ev) →
      swapAct c m x s = some (swapDone z c y ev))
  ∧ (∀ (s : State) (c : Cmd) (m : Model) (x : Stream), arg c 24 1 = 3 →
      swapAct c m x s = some (swapDone (setStream s { x with carried := storeState m x.narrow x.init }) c
        { x with carried := storeState m x.narrow x.init } false))

/-- GRAPH_RUN that agrees with its model, on coppices that are usable and enough, enters the sequence table with a slot of its own; with no
coppice usable it completes CANCELLED. TRAIN_STEP that agrees with its model enters it too, without a prefix or behind the prefix sequence
that it then reads (MembersCommitWithTheirStep says how both complete). STEP_POLICY with ACTION 0 replaces the model's policy, with ACTION 1
writes the record of the policy in force, with ACTION 2 the entry of a slot of the sequence table, and with ACTION 3 a context entry.
(Derived: 11_steps_and_models.md R254, 11_steps_and_models.md R258, 11_steps_and_models.md R276, 11_steps_and_models.md R277,
11_steps_and_models.md Table 11.9, 09_attention_and_pages.md R229, 09_attention_and_pages.md R231, 09_attention_and_pages.md R232.) -/
def Obligations.StepCommandsStart : Prop :=
  (∀ (p : Packet) (s w : State) (c d : Cmd) (m : Model) (cops : List Nat), startOf .graphRun 0x50 p s = some (c, w) →
      modelOf w c.fn (blk c 2 2) = some m → m.kv = none → m.recurrent = false → graphAgrees w c m = true →
      cops = stepCoppices w c.fn m.id (blk c 4 1) → cops ≠ [] → m.minCoppices ≤ cops.length →
      cops.any (fun k => decide (activeTiles w k < m.minTiles)) = false → d = { c with res := zeroBytes 12 } →
      exec (.graphRun p) s = .next (ensuing (enterTable (matchWatch w d) d 3 0 c.cls m.id)))
  ∧ (∀ (p : Packet) (s w : State) (c : Cmd) (m : Model), startOf .graphRun 0x50 p s = some (c, w) →
      modelOf w c.fn (blk c 2 2) = some m → m.kv = none → m.recurrent = false → graphAgrees w c m = true →
      stepCoppices w c.fn m.id (blk c 4 1) = [] → exec (.graphRun p) s = .next (ensuing (complete w c .cancelled)))
  ∧ (∀ (p : Packet) (s w v : State) (c d : Cmd) (m a : Model), startOf .trainStep 0x53 p s = some (c, w) →
      v = contextRead c w → rangesPoisoned v (contextRanges w c) = false → modelOf v c.fn (blk c 2 2) = some m →
      modelOf v c.fn (blk c 4 2) = some a → m.training.length = 3 →
      [(0, 64), (1, 128), (2, 192)].all (fun x => agrees (descAt (m.training.getD x.1 []) 0) (descAt c.pkt.block x.2) none) = true →
      operandsPlaced v c = true → ctxValid c.pkt = false → stepCoppices v c.fn m.id (blk c 7 1) ≠ [] → blk c 8 4 ≤ 65536 →
      d = { c with res := zeroBytes 12, aux := 0 } →
      exec (.trainStep p) s = .next (ensuing (enterTable (matchWatch v d) d 3 0 c.cls m.id)))
  ∧ (∀ (p : Packet) (s w v : State) (c d : Cmd) (m a : Model) (q : Seqn), startOf .trainStep 0x53 p s = some (c, w) →
      v = contextRead c w → rangesPoisoned v (contextRanges w c) = false → modelOf v c.fn (blk c 2 2) = some m →
      modelOf v c.fn (blk c 4 2) = some a → m.training.length = 3 →
      [(0, 64), (1, 128), (2, 192)].all (fun x => agrees (descAt (m.training.getD x.1 []) 0) (descAt c.pkt.block x.2) none) = true →
      operandsPlaced v c = true → trainPrefix v c = some q → q.model = m.id → q.length + blk c 8 4 ≤ 65536 →
      stepCoppices v c.fn m.id (blk c 7 1) ≠ [] → d = { c with res := zeroBytes 12, aux := q.length } →
      exec (.trainStep p) s = .next (ensuing (enterTable (matchWatch (addReader v q c.id) d) d 3 0 c.cls m.id)))
  ∧ (∀ (p : Packet) (s w : State) (c : Cmd), startOf .stepPolicy 0x52 p s = some (c, w) → (modelOf w c.fn (arg c 26 2)).isSome = true →
      arg c 24 1 = 0 → exec (.stepPolicy p) s = .next (ensuing (complete
      { w with work := { w.work with policies := w.work.policies.filter (fun q => !(q.fn == c.fn && q.model == arg c 26 2)) ++ [{ fn := c.fn, model := arg c 26 2, period := arg c 28 4, phase := arg c 32 4, tokens := arg c 36 2, chunkMax := arg c 38 2, coppices := arg c 40 1, preempt := arg c 41 1, ageBoost := arg c 42 2 }] } }
      c .ok)))
  ∧ (∀ (p : Packet) (s w : State) (c : Cmd), startOf .stepPolicy 0x52 p s = some (c, w) → (modelOf w c.fn (arg c 26 2)).isSome = true →
      arg c 24 1 = 1 →
      exec (.stepPolicy p) s = .next (ensuing (complete (writeDest w c (arg c 56 8) (policyRecord (policyOf w c.fn (arg c 26 2)))) c .ok)))
  ∧ (∀ (p : Packet) (s w : State) (c : Cmd), startOf .stepPolicy 0x52 p s = some (c, w) → arg c 24 1 = 2 →
      exec (.stepPolicy p) s = .next (ensuing (complete
        (writeDest w c (arg c 56 8) (slotRecord (w.work.slots.find? (fun x => x.num == arg c 44 2)))) c .ok)))
  ∧ (∀ (p : Packet) (s w v : State) (c : Cmd), startOf .stepPolicy 0x52 p s = some (c, w) → arg c 24 1 = 3 →
      v = contextRead c w → rangesPoisoned v (contextRanges w c) = false →
      exec (.stepPolicy p) s = .next (ensuing (complete (writeDest v c (arg c 56 8) (contextRecord v c.fn (arg c 48 4))) c .ok)))

/-- MATMUL, CONV2D, with a tensor or a stored frame of an open image gate as its source, POOL2D and ATTENTION, over tensors or over the
pages of a sequence, each become a job of as many output elements as the shapes give, wait for its tile or edge commands, and ask for the
power domains of the job; a convolution or a pool holds the fewest free ways of its coppices, at most 8. The last commit of the job's
commands completes the command (TileCommandsCommit). Without output elements each completes DIM_EMPTY, and a convolution over a frame behind
a closed gate PRIVACY_BLOCK. (Derived: 06_tiles_and_arithmetic.md R154, 06_tiles_and_arithmetic.md R159, 08_convolution.md R185,
08_convolution.md R191, 08_convolution.md R193, 08_convolution.md R196, 08_convolution.md R201, 09_attention_and_pages.md R228,
09_attention_and_pages.md R229.) -/
def Obligations.OperatorCommandsStart : Prop :=
  (∀ (p : Packet) (s w : State) (c : Cmd) (n : Nat), startOf .matmul 0x51 p s = some (c, w) → operandsPlaced w c = true → hostTableOk w c 16 = true →
      n = (matmulProb w c).rows * (matmulProb w c).cols * (matmulProb w c).batches → 0 < n → someUnit w (cmdCoppices c) (blk c 5 1) false = true →
      exec (.matmul p) s = .next (ensuing (startJob w { c with aux := (descAt c.pkt.block 64).format, res := zeroBytes 12 } { id := c.id, total := n })))
  ∧ (∀ (p : Packet) (s w : State) (c : Cmd), startOf .matmul 0x51 p s = some (c, w) → operandsPlaced w c = true → hostTableOk w c 16 = true →
      (matmulProb w c).rows * (matmulProb w c).cols * (matmulProb w c).batches = 0 → exec (.matmul p) s = .next (ensuing (complete w c .dimEmpty)))
  ∧ (∀ (p : Packet) (s w : State) (c d : Cmd) (g : Geo) (j : Job), startOf .conv2d 0x51 p s = some (c, w) → blk c 34 1 ≠ 1 →
      operandsPlaced w c = true → hostTableOk w c 24 = true → g = convGeoOf c none → g.empty = false → waysAvailable w (cmdCoppices c) = true →
      someUnit w (cmdCoppices c) (blk c 5 1) (onEdge c) = true →
      j = { id := c.id, edge := onEdge c, total := g.rowsOut * g.colsOut * g.cout * g.batch, frame := none, outFlags := flagIf (onEdge c) flagEdge ||| 0 } →
      d = { c with aux := min 8 (fewestWays w (cmdCoppices c)) * waySize } →
      exec (.conv2d p) s = .next (ensuing (startJob w { d with res := convResult d j } j)))
  ∧ (∀ (p : Packet) (s w : State) (c d : Cmd) (f : CamFrame) (g : Geo) (j : Job), startOf .conv2d 0x51 p s = some (c, w) → blk c 34 1 = 1 →
      (camOf w (blk c 35 1)).gateOpen = true → frameNamed w c = some f → operandsPlaced w c = true → hostTableOk w c 24 = true →
      g = convGeoOf c (some f) → convShapes c g (fun r => r == 3 || r == 4) = true → g.empty = false → waysAvailable w (cmdCoppices c) = true →
      someUnit w (cmdCoppices c) (blk c 5 1) (onEdge c) = true →
      j = { id := c.id, edge := onEdge c, total := g.rowsOut * g.colsOut * g.cout * g.batch, frame := some f, outFlags := flagIf (onEdge c) flagEdge ||| flagIf (f.flags.getLsbD 0) flagSrcTruncated } →
      d = { c with aux := min 8 (fewestWays w (cmdCoppices c)) * waySize } →
      exec (.conv2d p) s = .next (ensuing (startJob w { d with res := convResult d j } j)))
  ∧ (∀ (p : Packet) (s w : State) (c : Cmd), startOf .conv2d 0x51 p s = some (c, w) → blk c 34 1 = 1 → (camOf w (blk c 35 1)).gateOpen = false →
      exec (.conv2d p) s = .next (ensuing (complete w c .privacyBlock)))
  ∧ (∀ (p : Packet) (s w : State) (c : Cmd), startOf .conv2d 0x51 p s = some (c, w) → blk c 34 1 ≠ 1 →
      operandsPlaced w c = true → hostTableOk w c 24 = true → (convGeoOf c none).empty = true →
      exec (.conv2d p) s = .next (ensuing (complete w c .dimEmpty)))
  ∧ (∀ (p : Packet) (s w : State) (c : Cmd) (g : Geo), startOf .pool2d 0x51 p s = some (c, w) → operandsPlaced w c = true → g = poolGeo c →
      g.empty = false → waysAvailable w (cmdCoppices c) = true → someUnit w (cmdCoppices c) (blk c 5 1) false = true →
      exec (.pool2d p) s = .next (ensuing (startJob w { c with aux := min 8 (fewestWays w (cmdCoppices c)) * waySize, res := zeroBytes 12 }
        { id := c.id, total := g.rowsOut * g.colsOut * g.cout * g.batch })))
  ∧ (∀ (p : Packet) (s w : State) (c : Cmd), startOf .pool2d 0x51 p s = some (c, w) → operandsPlaced w c = true → (poolGeo c).empty = true →
      exec (.pool2d p) s = .next (ensuing (complete w c .dimEmpty)))
  ∧ (∀ (p : Packet) (s w v : State) (c : Cmd) (n : Nat), startOf .attention 0x51 p s = some (c, w) → v = contextRead c w →
      rangesPoisoned v (contextRanges w c) = false → (attnArgs c 0).pages = false → attnSeq v c = none → operandsPlaced v c = true →
      n = (descAt c.pkt.block 64).dim 0 * (descAt c.pkt.block 64).dim1 1 * (attnArgs c 0).qHeads → 0 < n →
      someUnit v (cmdCoppices c) (blk c 5 1) false = true →
      exec (.attention p) s = .next (ensuing (startJob v { c with res := zeroBytes 12 } { id := c.id, total := n })))
  ∧ (∀ (p : Packet) (s w v : State) (c : Cmd) (n : Nat) (x : Seqn), startOf .attention 0x51 p s = some (c, w) → v = contextRead c w →
      rangesPoisoned v (contextRanges w c) = false → (attnArgs c 0).pages = true → attnSeq v c = some x → attnSeqOk c x = true →
      operandsPlaced v c = true → n = (descAt c.pkt.block 64).dim 0 * (descAt c.pkt.block 64).dim1 1 * (attnArgs c 0).qHeads → 0 < n →
      someUnit v (cmdCoppices c) (blk c 5 1) false = true → exec (.attention p) s = .next (ensuing (startJob (addReader v x c.id)
      { c with aux := x.length, res := zeroBytes 12 } { id := c.id, total := n, pages := x.pages.filter (fun p => p.layer == (attnArgs c 0).layer) })))
  ∧ (∀ (p : Packet) (s w v : State) (c : Cmd), startOf .attention 0x51 p s = some (c, w) → v = contextRead c w →
      rangesPoisoned v (contextRanges w c) = false → (attnArgs c 0).pages = false → operandsPlaced v c = true →
      (descAt c.pkt.block 64).dim 0 * (descAt c.pkt.block 64).dim1 1 * (attnArgs c 0).qHeads = 0 →
      exec (.attention p) s = .next (ensuing (complete v c .dimEmpty)))
  ∧ (∀ (s x : State) (c : Cmd) (j : Job), x = bumpFree { s with work := { s.work with jobs := s.work.jobs ++ [{ j with draw := s.freeCtr }] } } →
      startJob s c j = demandWork (matchWatch (setCmd x { c with phase := .parked .tiles }) c) c.fn (jobDomains
        (matchWatch (setCmd x { c with phase := .parked .tiles }) c) c (cmdCoppices c) (blk c 5 1) j.edge))

/-- LISTEN_POLICY waits for a frame boundary, where it is set in force and completes (WakesAndPoliciesTakeEffect). WAKE_ARM with ACTION 0
completes OK where its sources are armed already and waits for a frame boundary where they are not; with ACTION 1 and the manual source
armed it makes a wake whose release point is the next frame boundary, and reports the release point, the wake ID and whether a wake was
under way. AUDIO_READ with the gate open writes the readable frames from its FROM or the unread ones; it completes when it has its frames or
has no WAIT, TRUNCATED where frames were lost, and waits for more otherwise; with CLOSE its completion makes the gate close. With the gate
closed it waits, or without WAIT completes PRIVACY_BLOCK. Under PRIV_N each of the three, and FRAME_READ, fails its fetch check with
PRIVACY_BLOCK, and one fetched before the press and started after it completes PRIVACY_BLOCK. (Derived: 03_listening.md R56, 03_listening.md
R66, 03_listening.md R69, 03_listening.md R70, 03_listening.md R71, 03_listening.md R72, 03_listening.md R73.) -/
def Obligations.ListeningCommandsComplete : Prop :=
  (∀ (p : Packet) (s w : State) (c : Cmd), startOf .listenPolicy 0x60 p s = some (c, w) → w.listen.priv = false →
      exec (.listenPolicy p) s = .next (ensuing (park w c .policyHold)))
  ∧ (∀ (s : State) (c : Cmd), privBlocked c.op = true → s.listen.priv = true → opAllowed s c.fn c.op = true → unitAbsent s c = false →
      c.session ≠ 0 → check5 c.fn c.op c.pkt c.pkt.body (expandedNb s c.pkt) (expandedDl s c.pkt) = true →
      (∀ d, expandedDl s c.pkt = some d → (ctrlStamp s : Int) ≤ d) → paramsOk s c = true → fetchStatus s c none = some .privacyBlock)
  ∧ (∀ (p : Packet) (s w : State) (c : Cmd), startOf .wakeArm 0x61 p s = some (c, w) → w.listen.priv = false → arg c 24 1 = 0 →
      arg c 25 1 &&& w.listen.policy.sources.toNat = arg c 25 1 → arg c 25 1 = w.listen.armed.toNat →
      exec (.wakeArm p) s = .next (ensuing (complete w c .ok (zeroBytes 8 ++ natLe 2 w.listen.wakeId.toNat))))
  ∧ (∀ (p : Packet) (s w : State) (c : Cmd), startOf .wakeArm 0x61 p s = some (c, w) → w.listen.priv = false → arg c 24 1 = 0 →
      arg c 25 1 &&& w.listen.policy.sources.toNat = arg c 25 1 → arg c 25 1 ≠ w.listen.armed.toNat →
      exec (.wakeArm p) s = .next (ensuing (park w c .policyHold)))
  ∧ (∀ (p : Packet) (s w : State) (c : Cmd) (x : State), startOf .wakeArm 0x61 p s = some (c, w) → w.listen.priv = false → arg c 24 1 = 1 →
      w.fault.haltGorse = false → w.listen.armed.getLsbD 2 = true → x = wake w .manual (boundaryAfter w.stb) w.listen.policy 0xFFFF →
      exec (.wakeArm p) s = .next (ensuing (complete x c .ok
        (natLe 8 x.listen.release ++ natLe 2 x.listen.wakeId.toNat ++ natLe 1 (b2n (wakeUnderWay w))))))
  ∧ (∀ (s : State) (c : Cmd), s.listen.priv = true → runListenPolicy c s = complete s c .privacyBlock ∧ runWakeArm c s = complete s c .privacyBlock)
  ∧ (∀ (p : Packet) (s w : State) (c d : Cmd) (start : Nat), startOf .audioRead 0x62 p s = some (c, w) → w.listen.priv = false →
      (audioRate c = 1 → (audioPolicy w).arrayRate ≠ 0) → arg c 31 1 * audioRecord w c ≤ arg c 44 4 → w.listen.gateOpen = true →
      start = (if arg c 24 4 = 2 ^ 32 - 1 then w.listen.unread else (expand32 (BitVec.ofNat 32 (arg c 24 4)) c.fetchStamp).toNat) →
      d = { c with first := max (boundaryAfter start) w.listen.release, cnt := 0, lost := 0, misc := [] } →
      exec (.audioRead p) s = .next (ensuing (pumpAudio d w)))
  ∧ (∀ (p : Packet) (s w : State) (c : Cmd), startOf .audioRead 0x62 p s = some (c, w) → w.listen.priv = false →
      (audioRate c = 1 → (audioPolicy w).arrayRate ≠ 0) → arg c 31 1 * audioRecord w c ≤ arg c 44 4 → w.listen.gateOpen = false →
      audioWaits c = true → exec (.audioRead p) s = .next (ensuing (setCmd w { c with phase := .parked .gateOpen, res := audioResult w c })))
  ∧ (∀ (p : Packet) (s w : State) (c : Cmd), startOf .audioRead 0x62 p s = some (c, w) → w.listen.priv = false →
      (audioRate c = 1 → (audioPolicy w).arrayRate ≠ 0) → arg c 31 1 * audioRecord w c ≤ arg c 44 4 → w.listen.gateOpen = false →
      audioWaits c = false → exec (.audioRead p) s = .next (ensuing (complete w c .privacyBlock (audioResult w c))))
  ∧ (∀ (s : State) (c : Cmd), s.listen.priv = true → runAudioRead c s = complete s c .privacyBlock (audioResult s c))
  ∧ (∀ (s : State) (c : Cmd) (r : State × Cmd), r = (audioReady s c).foldl writeAudio (s, c) → (arg c 31 1 ≤ r.2.cnt ∨ audioWaits c = false) →
      pumpAudio c s = finishAudio r.1 r.2)
  ∧ (∀ (s : State) (c d : Cmd) (r : State × Cmd), r = (audioReady s c).foldl writeAudio (s, c) → r.2.cnt < arg c 31 1 → audioWaits c = true →
      d = { r.2 with phase := .parked .frames } → pumpAudio c s = setCmd r.1 { d with res := audioResult r.1 d })
  ∧ (∀ (s x : State) (c : Cmd), x = (if audioCloses c ∧ s.listen.gateOpen then { s with listen := { s.listen with closeDue := true } } else s) →
      finishAudio s c = complete x c (if c.lost = 0 then .ok else .truncated) (audioResult x c))

/-- CAMERA_CONFIG with ACTION 0 and a valid block reserves the frame store and configures the port, ending the settings of the old one; with
ACTION 1 it starts the stream and lets the image gate open at the next frame start; with ACTION 2 it stops the stream, at the next frame
start where the gate is open; with ACTION 3 it drops the port, likewise. CAMERA_PARAMS schedules every setting for one frame, the one asked
for where it can be met and the earliest otherwise; with STRICT it completes DEADLINE_MISSED instead. FRAME_READ with the gate open writes
the readable frames, and completes when it has its frames or has no WAIT, and waits for more otherwise; with the gate closed it waits, or
without WAIT completes PRIVACY_BLOCK. (Derived: 04_looking.md R75, 04_looking.md R76, 04_looking.md R84, 04_looking.md R85, 04_looking.md
R90, 04_looking.md R91, 04_looking.md R96.) -/
def Obligations.CameraCommandsComplete : Prop :=
  (∀ (p : Packet) (s w y : State) (c : Cmd) (n : Nat) (b cal : List Byte) (g : CamConfig) (r : State × Nat × Bool) (old x : Cam),
      startOf .cameraConfig 0x63 p s = some (c, w) → arg c 25 1 = 0 → n = arg c 24 1 → b = memReadN w.store.host (arg c 28 8) (arg c 36 4) →
      cal = memReadN w.store.host (field b 48 8) 8592 → camConfigOk b cal = true → g = camConfigOf b cal →
      placeObject (dropAllocs w .pf0 [19] n) .pf0 2 0 (g.frameSlots * (yBytes g + cBytes g)) 19 n false = some r → old = camOf w n →
      y = (openParams r.1 n).foldl (fun s d => complete (dropWork s d) d .notPresent) r.1 → x =
      { configured := true, cfg := g, cascadeTop := min (arg c 26 1) 2, autoRelease := arg c 27 1 == 1, motionThreshold := arg c 40 2, motionFrames := arg c 42 1, absentHold := arg c 43 1, presenceThreshold := arg c 44 2, presenceModel := arg c 46 1, attendCoppice := arg c 47 1, attendModel := arg c 48 2, gateOpen := old.gateOpen, gateStage2 := old.gateStage2, opener := old.opener, closeDue := old.closeDue, openDue := old.openDue, openDueStage2 := old.openDueStage2, enAt := old.enAt, gapRecv := old.gapRecv, i2cOut := old.i2cOut, initLeft := old.initLeft, initGo := old.initGo, initTries := old.initTries, streaming := decide (1 ≤ arg c 26 1) || old.streaming, lastStart := y.stb, armedRx := old.armedRx, initAt := old.initAt }
      → exec (.cameraConfig p) s = .next (ensuing (complete (settleCam (setCam y n x) n) c .ok)))
  ∧ (∀ (p : Packet) (s w : State) (c : Cmd) (n : Nat) (x : Cam), startOf .cameraConfig 0x63 p s = some (c, w) → arg c 25 1 = 1 → n = arg c 24 1 →
      x = camOf w n → x.configured = true → exec (.cameraConfig p) s = .next (ensuing (complete (settleCam (setCam w n
      { x with streaming := true, openDue := !x.gateOpen || x.closeDue, openDueStage2 := false, gateStage2 := if x.closeDue then x.gateStage2 else false, dropDue := false, lastStart := w.stb })
      n) c .ok)))
  ∧ (∀ (p : Packet) (s w : State) (c : Cmd) (n : Nat) (x : Cam), startOf .cameraConfig 0x63 p s = some (c, w) → arg c 25 1 = 2 → n = arg c 24 1 →
      x = camOf w n → x.gateOpen = true → exec (.cameraConfig p) s = .next (ensuing (complete (setCam w n
      { x with streaming := false, openDue := false, closeDue := true }) c .ok)))
  ∧ (∀ (p : Packet) (s w : State) (c : Cmd) (n : Nat) (x : Cam), startOf .cameraConfig 0x63 p s = some (c, w) → arg c 25 1 = 2 → n = arg c 24 1 →
      x = camOf w n → x.gateOpen = false → exec (.cameraConfig p) s = .next (ensuing (complete (settleCam (setCam w n
      { x with streaming := false, openDue := false, closeDue := false }) n) c .ok)))
  ∧ (∀ (p : Packet) (s w : State) (c : Cmd) (n : Nat) (x : Cam), startOf .cameraConfig 0x63 p s = some (c, w) → 3 ≤ arg c 25 1 → n = arg c 24 1 →
      x = camOf w n → x.gateOpen = true → exec (.cameraConfig p) s = .next (ensuing (complete (setCam w n
      { x with openDue := false, closeDue := true, dropDue := true }) c .ok)))
  ∧ (∀ (p : Packet) (s w : State) (c : Cmd) (n : Nat), startOf .cameraConfig 0x63 p s = some (c, w) → 3 ≤ arg c 25 1 → n = arg c 24 1 →
      (camOf w n).gateOpen = false → exec (.cameraConfig p) s = .next (ensuing (complete (dropCam w n) c .ok)))
  ∧ (∀ (p : Packet) (s w : State) (c : Cmd) (x : Cam), startOf .cameraParams 0x64 p s = some (c, w) → w.listen.priv = false →
      x = camOf w (arg c 24 1) → x.configured = true → arg c 28 4 = 2 ^ 32 - 1 →
      exec (.cameraParams p) s = .next (ensuing (scheduleParams c (earliestFrame x c) w)))
  ∧ (∀ (p : Packet) (s w : State) (c : Cmd) (x : Cam) (n : Int), startOf .cameraParams 0x64 p s = some (c, w) → w.listen.priv = false →
      x = camOf w (arg c 24 1) → x.configured = true → arg c 28 4 ≠ 2 ^ 32 - 1 →
      n = expand32 (BitVec.ofNat 32 (arg c 28 4)) (earliestFrame x c) → (earliestFrame x c : Int) ≤ n → writesFit x c n.toNat = true →
      exec (.cameraParams p) s = .next (ensuing (scheduleParams c n.toNat w)))
  ∧ (∀ (p : Packet) (s w : State) (c : Cmd) (x : Cam) (n : Int), startOf .cameraParams 0x64 p s = some (c, w) → w.listen.priv = false →
      x = camOf w (arg c 24 1) → x.configured = true → arg c 28 4 ≠ 2 ^ 32 - 1 →
      n = expand32 (BitVec.ofNat 32 (arg c 28 4)) (earliestFrame x c) → (n < (earliestFrame x c : Int) ∨ writesFit x c n.toNat = false) →
      exec (.cameraParams p) s = .next (ensuing
        (if (arg c 25 1).testBit 0 then complete w c .deadlineMissed else scheduleParams c (earliestFrame x c) w)))
  ∧ (∀ (p : Packet) (s w : State) (c d : Cmd) (x : Cam) (start : Nat), startOf .frameRead 0x65 p s = some (c, w) → w.listen.priv = false →
      x = camOf w (readPort c) → arg c 27 1 * frameRecord x.cfg (arg c 25 1) ≤ arg c 40 4 → x.gateOpen = true →
      start = (if arg c 28 4 = 2 ^ 32 - 1 then x.unread else (expand32 (BitVec.ofNat 32 (arg c 28 4)) x.frameNo).toNat) → d =
      { c with first := max start x.openFrame, cnt := 0, lost := 0, misc := [] } → exec (.frameRead p) s = .next (ensuing (pumpFrame d w)))
  ∧ (∀ (p : Packet) (s w : State) (c : Cmd) (x : Cam), startOf .frameRead 0x65 p s = some (c, w) → w.listen.priv = false →
      x = camOf w (readPort c) → (x.configured = true → arg c 27 1 * frameRecord x.cfg (arg c 25 1) ≤ arg c 40 4) → x.gateOpen = false →
      readWaits c = true → exec (.frameRead p) s = .next (ensuing (setCmd w { c with phase := .parked .gateOpen, res := frameResult w c })))
  ∧ (∀ (p : Packet) (s w : State) (c : Cmd) (x : Cam), startOf .frameRead 0x65 p s = some (c, w) → w.listen.priv = false →
      x = camOf w (readPort c) → (x.configured = true → arg c 27 1 * frameRecord x.cfg (arg c 25 1) ≤ arg c 40 4) → x.gateOpen = false →
      readWaits c = false → exec (.frameRead p) s = .next (ensuing (complete w c .privacyBlock (frameResult w c))))
  ∧ (∀ (s : State) (c : Cmd) (r : State × Cmd), (frameReady s c).all (fun f => !framePoisoned s c f) = true →
      r = (frameReady s c).foldl writeFrame (s, c) → (arg c 27 1 ≤ r.2.cnt ∨ readWaits c = false) → pumpFrame c s = finishFrame r.1 r.2)
  ∧ (∀ (s : State) (c d : Cmd) (r : State × Cmd), (frameReady s c).all (fun f => !framePoisoned s c f) = true →
      r = (frameReady s c).foldl writeFrame (s, c) → r.2.cnt < arg c 27 1 → readWaits c = true → d = { r.2 with phase := .parked .frames } →
      pumpFrame c s = setCmd r.1 { d with res := frameResult r.1 d })

/-- DOMAIN_POLICY on a domain that is no audio domain, and on one that a frame boundary has let act, sets the timers and the ceiling of the
domain; answers an entry at once for a domain already there, which for a unit also holds it OFF and cancels its work; reports the refuser
and the reason of an entry that is refused or above the ceiling; starts an entry that is not refused, and completes when it has ended;
returns the domain; sets the retention set; and reads a domain. On an audio domain it first waits for the boundary. POWER_LIMIT takes a new
limit for the next window, or none, and reports the limit asked for, the effective limit and the baseline. POWER_STATS writes the header and
the records of the domains and can clear the refusal counts. (Derived: 03_listening.md R56, 15_power_domains.md R365, 15_power_domains.md
R366, 15_power_domains.md R367, 15_power_domains.md R368.) -/
def Obligations.PowerCommandsComplete : Prop :=
  (∀ (p : Packet) (s w : State) (c : Cmd) (d : Nat), startOf .domainPolicy 0x70 p s = some (c, w) → namesTenant1 w c = false → d = arg c 24 1 →
      arg c 25 1 = 0 → (audioDoms.contains d = true → c.aux ≠ 0) → exec (.domainPolicy p) s = .next (ensuing (policyDone (updDom w d (fun y =>
      { y with ceiling := arg c 26 1, retIdle := askedTimer (arg c 28 4) (defaultDom d).retIdle, offIdle := askedTimer (arg c 32 4) (defaultDom d).offIdle, expiredAt := none }))
      c 0 0xFF)))
  ∧ (∀ (p : Packet) (s w : State) (c : Cmd), startOf .domainPolicy 0x70 p s = some (c, w) → namesTenant1 w c = false → arg c 25 1 ≠ 3 →
      audioDoms.contains (arg c 24 1) = true → c.aux = 0 → exec (.domainPolicy p) s = .next (ensuing (park w c .policyHold)))
  ∧ (∀ (s : State) (c : Cmd), c.op = .domainPolicy → c.phase = .parked .policyHold → c.aux = 1 → resumeCmd c s = some (runDomainPolicy c s))
  ∧ (∀ (p : Packet) (s w : State) (c : Cmd) (d : Nat), startOf .domainPolicy 0x70 p s = some (c, w) → namesTenant1 w c = false → d = arg c 24 1 →
      arg c 25 1 = 1 → (audioDoms.contains d = true → c.aux ≠ 0) → (domOf w d).state = .off ∨ ((domOf w d).state = .ret ∧ arg c 27 1 = 1) →
      exec (.domainPolicy p) s = .next (ensuing (policyDone (if isUnit d && arg c 27 1 == 2 then
        disableUnit (updDom w d (fun x => { x with heldOff := true, demand := false })) d else w) c 0 0xFF)))
  ∧ (∀ (p : Packet) (s w : State) (c : Cmd) (d : Nat), startOf .domainPolicy 0x70 p s = some (c, w) → namesTenant1 w c = false → d = arg c 24 1 →
      arg c 25 1 = 1 → (audioDoms.contains d = true → c.aux ≠ 0) → (domOf w d).state = .on → (domOf w d).ceiling < arg c 27 1 →
      exec (.domainPolicy p) s = .next (ensuing (policyDone (refuseEntry w d 0xFE 0x0A) c 0x0A 0xFE)))
  ∧ (∀ (p : Packet) (s w : State) (c : Cmd) (d : Nat) (r : Nat × Nat), startOf .domainPolicy 0x70 p s = some (c, w) → namesTenant1 w c = false →
      d = arg c 24 1 → arg c 25 1 = 1 → (audioDoms.contains d = true → c.aux ≠ 0) → (domOf w d).state = .on → arg c 27 1 ≤ (domOf w d).ceiling →
      d ≠ domCtrl → refusalOf w d (arg c 27 1) (some c.id) (isUnit d && arg c 27 1 == 2) = some r →
      exec (.domainPolicy p) s = .next (ensuing (policyDone (refuseEntry w d r.1 r.2) c r.2 r.1)))
  ∧ (∀ (p : Packet) (s w x : State) (c : Cmd) (d : Nat), startOf .domainPolicy 0x70 p s = some (c, w) → namesTenant1 w c = false →
      d = arg c 24 1 → arg c 25 1 = 1 → (audioDoms.contains d = true → c.aux ≠ 0) → (domOf w d).state = .on → arg c 27 1 ≤ (domOf w d).ceiling →
      d ≠ domCtrl → refusalOf w d (arg c 27 1) (some c.id) (isUnit d && arg c 27 1 == 2) = none →
      x = startEntry w d (arg c 27 1) (some c.id) (isUnit d && arg c 27 1 == 2) → exec (.domainPolicy p) s = .next (ensuing
      (setCmd (if isUnit d && arg c 27 1 == 2 then disableUnit x d else x) { c with phase := .parked .domain, aux := 3 })))
  ∧ (∀ (p : Packet) (s w : State) (c : Cmd) (d : Nat), startOf .domainPolicy 0x70 p s = some (c, w) → namesTenant1 w c = false → d = arg c 24 1 →
      arg c 25 1 = 2 → (audioDoms.contains d = true → c.aux ≠ 0) → exec (.domainPolicy p) s = .next (ensuing (returnNow c w)))
  ∧ (∀ (p : Packet) (s w : State) (c : Cmd), startOf .domainPolicy 0x70 p s = some (c, w) → namesTenant1 w c = false → arg c 25 1 = 3 →
      exec (.domainPolicy p) s = .next (ensuing (complete { w with power := { w.power with retain := BitVec.ofNat 64 (arg c 40 8) } } c .ok [0, 0, 0xFF])))
  ∧ (∀ (p : Packet) (s w : State) (c : Cmd) (d : Nat), startOf .domainPolicy 0x70 p s = some (c, w) → namesTenant1 w c = false → d = arg c 24 1 →
      4 ≤ arg c 25 1 → (audioDoms.contains d = true → c.aux ≠ 0) → exec (.domainPolicy p) s = .next (ensuing (policyDone w c 0 0xFF)))
  ∧ (∀ (s : State) (c : Cmd), c.op = .domainPolicy → c.phase = .parked .domain → c.aux = 3 → (domOf s (arg c 24 1)).byHost ≠ some c.id →
      resumeCmd c s = some (policyDone s c 0 0xFF))
  ∧ (∀ (p : Packet) (s w x : State) (c : Cmd) (n : Nat), startOf .powerLimit 0x71 p s = some (c, w) →
      x = (if arg c 24 4 = 0 then w else { w with power := { w.power with nextLimit := some (arg c 24 4) } }) →
      n = x.power.nextLimit.getD x.power.limit → exec (.powerLimit p) s = .next (ensuing
      (complete (bumpFree x) c .ok (natLe 4 n ++ natLe 4 (if x.power.cap then min n 8000 else n) ++ natLe 4 (Config.freeNat w.freeCtr)))))
  ∧ (∀ (p : Packet) (s w : State) (c : Cmd) (l : List Dom) (x y : State), startOf .powerStats 0x72 p s = some (c, w) → l = statDoms w c.fn →
      destNeed c (64 + 64 * l.length) ≤ arg c 40 4 → x = writeDest w c (arg c 32 8) (powerHeader w c.fn l.length ++ l.flatMap (domBytes w)) →
      y = (if arg c 24 1 = 1 then clearRefusals x else x) → exec (.powerStats p) s = .next (ensuing (complete { y with freeCtr := y.freeCtr + 4 } c .ok
      (natLe 2 l.length ++ zeroBytes 2 ++ natLe 4 (64 + 64 * l.length)))))

/-- FAULT_READ writes the records the tenant may read and asked for, in log order, and reports the first, how many, how many more, and the
records lost. FAULT_CLEAR removes the named records the tenant may clear; one that does not exist completes BAD_PARAM. FAULT_INJECT arms the
checker and waits for it to fire; the lockstep and the INTEGRITY checkers, which work in each cycle, fire at once; a unit that is not there
fails the fetch check with NOT_PRESENT. (Derived: 14_faults.md R344, 14_faults.md R345, 14_faults.md R346, 14_faults.md R347, 14_faults.md
R348.) -/
def Obligations.FaultCommandsComplete : Prop :=
  (∀ (p : Packet) (s w : State) (c : Cmd) (l out : List Capture) (x : State), startOf .faultRead 0x90 p s = some (c, w) → l = w.fault.log.filter (fun
      x => readsRecord c.fn x && (arg c 30 1 == 0 || (arg c 30 1).testBit x.cls) && (BitVec.ofNat 32 (arg c 24 4) == (0xFFFFFFFF : U32) || decide (0 ≤
      low32Diff x.fseq (BitVec.ofNat 32 (arg c 24 4))))) → out = l.take (arg c 28 2) → x = (if out.isEmpty then w else writeDest w c (arg c 32 8)
      (out.flatMap (fun y => captureBytes y (c.fn == .pf1 && y.device)))) → exec (.faultRead p) s = .next (ensuing (complete x c .ok (natLe 4
      ((out.head?.map (·.fseq.toNat)).getD 0) ++ natLe 2 out.length ++ natLe 2 (l.length - out.length) ++ natLe 4 x.fault.lost))))
  ∧ (∀ (p : Packet) (s w : State) (c : Cmd) (gone : Capture → Bool), startOf .faultClear 0x91 p s = some (c, w) → gone = (fun x => clearsRecord c.fn x
      && (BitVec.ofNat 32 (arg c 24 4) == (0xFFFFFFFF : U32) || x.fseq == BitVec.ofNat 32 (arg c 24 4))) → BitVec.ofNat 32 (arg c 24 4) = (0xFFFFFFFF
      : U32) ∨ w.fault.log.filter gone ≠ [] → exec (.faultClear p) s = .next (ensuing (complete
      { w with fault := { w.fault with log := w.fault.log.filter (fun x => !gone x) } } c .ok (natLe 4 (w.fault.log.filter gone).length))))
  ∧ (∀ (p : Packet) (s w : State) (c : Cmd) (gone : Capture → Bool), startOf .faultClear 0x91 p s = some (c, w) → gone = (fun x => clearsRecord c.fn x
      && (BitVec.ofNat 32 (arg c 24 4) == (0xFFFFFFFF : U32) || x.fseq == BitVec.ofNat 32 (arg c 24 4))) → BitVec.ofNat 32 (arg c 24 4) ≠ (0xFFFFFFFF
      : U32) → w.fault.log.filter gone = [] → exec (.faultClear p) s = .next (ensuing (complete w c .badParam)))
  ∧ (∀ (p : Packet) (s w : State) (c : Cmd) (x : State), startOf .faultInject 0x92 p s = some (c, w) → injectForeign w (arg c 24 1) (arg c 25 1) (arg
      c 28 8) = false → (sharedTargets.contains (arg c 24 1) && bothActive w) = false → (integrityTargets.contains (arg c 24 1) && w.fuse.oemLock) =
      false → w.fault.injections.length < 4 → injectPresent w (arg c 24 1) (arg c 25 1) (arg c 28 8) = true → x = setCmd w
      { c with phase := .parked .injection, misc := [] } → exec (.faultInject p) s = .next (ensuing (fireNow
      { x with fault := { x.fault with injections := x.fault.injections ++ [{ target := arg c 24 1, unit := arg c 25 1, bits := arg c 26 1, address := BitVec.ofNat 64 (arg c 28 8), cmd := c.id }] } }
      (arg c 24 1) (arg c 25 1) (arg c 26 1))))
  ∧ (∀ (s : State) (c : Cmd) (e : Option Status), c.op = .faultInject → injectRange c = true →
      injectPresent s (arg c 24 1) (arg c 25 1) (arg c 28 8) = false → fetchStatus s c e = some .notPresent)
  ∧ (∀ (s : State) (t u b : Nat), [0x02, 0x03, 0x0B, 0x0D, 0x22, 0x23].contains t = false → fireNow s t u b = s)
  ∧ (∀ (s : State) (t u b : Nat), [0x0D, 0x22, 0x23].contains t = true → fireNow s t u b = react s (capture s t u 3) true)
  ∧ (∀ (s : State) (u b : Nat), fireNow s 0x0B u b = react s (capture s 0x0B u 2) false)

/-- COUNTER_READ of the halt snapshot writes as many of the records shown to the tenant as fit, and reports how many and whether there were
more; of a new snapshot it waits for the broadcast (SnapshotServesRequests). TRACE_CONFIG of the host ring writes out what is staged, zeroes
the count in host memory and replaces its settings; of the port it sends what is staged, replaces its settings and keeps its numbering.
WATCH_SET ends what its slot held and arms it, or only ends it; so does one whose fields are out of range, which completes BAD_PARAM.
TIME_SYNC in a joined unit takes the mode and the offsets, in MODE 1 against the mark that was latched, and reports the latched STB.
(Derived: 17_observation.md R388, 17_observation.md R389, 17_observation.md R390, 17_observation.md R395, 17_observation.md R396,
16_kraotas_groups.md R384.) -/
def Obligations.ObservationCommandsComplete : Prop :=
  (∀ (p : Packet) (s w : State) (c : Cmd), startOf .counterRead 0xA0 p s = some (c, w) → arg c 24 1 = 0 → exec (.counterRead p) s = .next (ensuing
      (setCmd { w with obs := { w.obs with snapWaiting := w.obs.snapWaiting ++ [c.id] } } { c with phase := .parked .snapshot })))
  ∧ (∀ (p : Packet) (s w : State) (c : Cmd), startOf .counterRead 0xA0 p s = some (c, w) → arg c 24 1 = 1 → w.obs.haltHeld = true → exec (.counterRead
      p) s = .next (ensuing (counterRecords w c w.obs.haltAt 0 w.obs.halt)))
  ∧ (∀ (s : State) (c : Cmd) (snap smear n : Nat) (frozen : Bool) (recs : List (List Byte)) (x : State),
      n = recordsThatFit c ((recs.headD []).length) recs.length → x = (if n = 0 then s else writeDest s c (arg c 32 8) (recs.take n).flatten) →
      counterDone s c snap smear frozen recs = complete x c .ok (natLe 8 snap ++ natLe 2 n ++ natLe 1 smear ++
        natLe 1 (b2n frozen + 2 * b2n x.obs.restarted + 4 * b2n x.obs.overflow.isSome + 8 * b2n (decide (n < recs.length)))))
  ∧ (∀ (p : Packet) (s w x y : State) (c : Cmd) (f : TraceDest → TraceDest), startOf .traceConfig 0xA1 p s = some (c, w) →
      f = (fun t => { t with events := BitVec.ofNat 16 (arg c 26 2), filterLayer := BitVec.ofNat 16 (arg c 28 2), filterOp := BitVec.ofNat 16 (arg c 30 2) }) →
      x = hostOut (flushTrace w) .pf0 (arg c 40 8) (zeroBytes 8) →
      y = (if bit (arg c 24 1) 0 then { x with obs := { x.obs with trace0 := f { log2 := arg c 25 1, base := BitVec.ofNat 64 (arg c 32 8), countAddr := BitVec.ofNat 64 (arg c 40 8) } } } else w) →
      exec (.traceConfig p) s = .next (ensuing (complete (if bit (arg c 24 1) 1 then
        { portDrain y with obs := { (portDrain y).obs with trace1 := f (portDrain y).obs.trace1 }, pins := { (portDrain y).pins with traceClk := decide (arg c 26 2 ≠ 0) } } else y) c .ok
        (natLe 4 (if bit (arg c 24 1) 0 then 0 else
          (if bit (arg c 24 1) 1 then (f (portDrain y).obs.trace1).tseq.toNat else y.obs.trace1.tseq.toNat))))))
  ∧ (∀ (p : Packet) (s w : State) (c : Cmd) (x : State), startOf .watchSet 0xA2 p s = some (c, w) → watchFields c = true → arg c 24 1 = 0 → x =
      endWatch w (arg c 25 1) → exec (.watchSet p) s = .next (ensuing (complete
      { x with obs := { x.obs with watches := x.obs.watches ++ [{ slot := arg c 25 1, kind := arg c 26 1, layerId := BitVec.ofNat 16 (arg c 28 2), opId := BitVec.ofNat 16 (arg c 30 2), left := arg c 32 4, written := 0, dest := BitVec.ofNat 64 (arg c 40 8) }] } }
      c .ok (natLe 4 (ctrlStamp x)))))
  ∧ (∀ (p : Packet) (s w : State) (c : Cmd), startOf .watchSet 0xA2 p s = some (c, w) → watchFields c = true → arg c 24 1 ≠ 0 →
      exec (.watchSet p) s = .next (ensuing (complete (endWatch w (arg c 25 1)) c .ok (natLe 4 (ctrlStamp (endWatch w (arg c 25 1)))))))
  ∧ (∀ (p : Packet) (s w : State) (c : Cmd), startOf .watchSet 0xA2 p s = some (c, w) → watchFields c = false →
      exec (.watchSet p) s = .next (ensuing (complete (endWatch w (arg c 25 1)) c .badParam)))
  ∧ (∀ (p : Packet) (s w : State) (c : Cmd), startOf .timeSync 0xA3 p s = some (c, w) → w.group.state = 2 → argS c (28 + 8 * w.group.self) 8 = 0 →
      (arg c 24 1 = 1 → w.i3c.markValid = true ∧ arg c 25 1 = w.i3c.mark.toNat) → exec (.timeSync p) s = .next (ensuing (complete
      { w with group := { w.group with mode := arg c 24 1, offsets := (List.range 4).map (fun u => argS c (28 + 8 * u) 8) } } c .ok (natLe 8 w.i3c.latch))))

/-- GROUP_JOIN of a unit in no group raises JOIN_GEN, joins and writes its control blocks; it completes when every peer is present.
PEER_SEND to a present peer waits for its turn, and from then on sends one wire unit a tick while it has credits, and completes with its
last; without a credit it waits for one. PEER_CREDIT of units received returns that many credits and writes the control blocks. GROUP_LEAVE
with ABORT cancels the sends and leaves; without it, it waits for the sends before it and then leaves. (Derived: 16_kraotas_groups.md R374,
16_kraotas_groups.md R376, 16_kraotas_groups.md R377, 16_kraotas_groups.md R378, 16_kraotas_groups.md R381.) -/
def Obligations.GroupCommandsComplete : Prop :=
  (∀ (p : Packet) (s w : State) (c : Cmd) (x : State), startOf .groupJoin 0xB0 p s = some (c, w) → w.group.state = 0 → areasOverlap ((joinUnits c).map
      (joinPeer c)) = false → joinObjects w ((joinUnits c).map (joinPeer c)) = true → x =
      { w with group := { w.group with state := 1, groupId := BitVec.ofNat 32 (blk c 4 4), self := blk c 2 1, units := blk c 3 1, joinGen := w.group.joinGen + 1, joinAt := ctrlStamp w, joinCmd := some c.id, peers := (joinUnits c).map (joinPeer c) } }
      → exec (.groupJoin p) s = .next (ensuing (writeBlocks (setCmd x
      { c with phase := .parked .join, res := natLe 2 (w.group.joinGen + 1).toNat }))))
  ∧ (∀ (s : State) (c : Cmd), c.op = .groupJoin → s.group.joinCmd = some c.id → s.group.peers.all (·.present) = true →
      resumeCmd c s = some (complete (writeBlocks { s with group := { s.group with state := 2, joinCmd := none } }) c .ok c.res))
  ∧ (∀ (p : Packet) (s w : State) (c : Cmd) (q : Peer), startOf .peerSend 0xB1 p s = some (c, w) →
      ownsRange w .pf0 (tierOf (arg c 28 8)) (offOf (arg c 28 8)) (arg c 36 4) = true → w.group.state = 2 → peerOf w (arg c 24 1) = some q →
      q.present = true → q.broken = false → arg c 40 4 + dstBytes c (arg c 36 4) ≤ q.advLen →
      exec (.peerSend p) s = .next (ensuing (setCmd w { c with phase := .parked .turn })))
  ∧ (∀ (p : Packet) (s w u : State) (c d : Cmd) (q r : Peer), startOf .peerSend 0xB1 p s = some (c, w) →
      ownsRange w .pf0 (tierOf (arg c 28 8)) (offOf (arg c 28 8)) (arg c 36 4) = true → w.group.state = 2 → peerOf w (arg c 24 1) = some q →
      q.present = true → q.broken = false → arg c 40 4 + dstBytes c (arg c 36 4) ≤ q.advLen →
      goesOn (setCmd w { c with phase := .parked .turn }) = some (d, u) → d.op = .peerSend → d.phase = .parked .turn →
      livePeer u (arg d 24 1) = some r → sendAhead u d = false → hostWritable u .pf0 false = true →
      exec (.peerSend p) s = .next (thereafter (sendUnit d u)))
  ∧ (∀ (s x y : State) (c d : Cmd) (q : Peer) (n off : Nat), livePeer s (arg c 24 1) = some q → hostWritable s .pf0 false = true → creditsOf q ≠ 0 →
      off = offOf (arg c 28 8) + 4096 * c.cnt → n = min 4096 (arg c 36 4 - 4096 * c.cnt) →
      checkedRead s c (dmaMaster c.fn) (tierOf (arg c 28 8)) off n = (x, none) →
      commitUnit c q (tierRead x (tierOf (arg c 28 8)) off n) x = (y, d) →
      sendUnit c s = (if d.cnt = ceilDiv (arg c 36 4) 4096 then complete (dropWork y d) d .ok d.res else setCmd y { d with phase := .parked .units }))
  ∧ (∀ (s : State) (c : Cmd) (q : Peer), livePeer s (arg c 24 1) = some q → hostWritable s .pf0 false = true → creditsOf q = 0 →
      sendUnit c s = leaveLink (setCmd s { c with phase := .parked .credit }) .pf0)
  ∧ (∀ (s : State) (c : Cmd), c.op = .peerSend → cmdOf s c.id = some c → c.phase = .parked .units → pathOpen s c = true → overdue s c = false →
      allOn s (cmdDoms s c) = true → workUnit s c.id = sendUnit c s)
  ∧ (∀ (p : Packet) (s w : State) (c : Cmd) (q : Peer), startOf .peerCredit 0xB2 p s = some (c, w) → w.group.state = 2 → peerOf w (arg c 24 1) = some
      q → livePeer w (arg c 24 1) = some q → arg c 28 4 ≤ (q.rxNext - q.returned).toNat → exec (.peerCredit p) s = .next (ensuing (complete
      (writeBlocks (setPeer w { q with returned := q.returned + BitVec.ofNat 32 (arg c 28 4) })) c .ok (natLe 4 (q.returned + BitVec.ofNat 32 (arg c
      28 4)).toNat))))
  ∧ (∀ (p : Packet) (s w : State) (c : Cmd), startOf .groupLeave 0xB3 p s = some (c, w) → arg c 24 1 = 1 → exec (.groupLeave p) s = .next (ensuing
      (complete (resetGroup (endAll w (sendsBefore w c) .cancelled) true) c .ok)))
  ∧ (∀ (p : Packet) (s w : State) (c : Cmd), startOf .groupLeave 0xB3 p s = some (c, w) → arg c 24 1 ≠ 1 →
      exec (.groupLeave p) s = .next (ensuing (setCmd w { c with phase := .parked .others, awaited := sendsBefore w c })))
  ∧ (∀ (p : Packet) (s w : State) (c : Cmd) (d : Cmd) (v : State), startOf .groupLeave 0xB3 p s = some (c, w) → arg c 24 1 ≠ 1 →
      goesOn (setCmd w { c with phase := .parked .others, awaited := sendsBefore w c }) = some (d, v) → d.op = .groupLeave →
      stillOpen v d.awaited = false → exec (.groupLeave p) s = .next (thereafter (complete (resetGroup v true) d .ok)))

/-- With the I3C target enabled and out of reset: ENTDAA gives an unaddressed target an address, RSTDAA drops it, and a mark latches its
number and the STB. With an address: SETNEWDA replaces it, GETPID answers the 48-bit provisional identifier, GETBCR and GETDCR answer 0x00,
GETSTATUS answers the protocol-error bit and clears it. Only the I3C state and the answer change. The order of the identifier's bytes, the
place of the error bit and its clearing are PRESUMED (notes/assumptions/51.md). (Derived: 16_kraotas_groups.md R370, 16_kraotas_groups.md
R383, 21_register_reference.md R435.) -/
def Obligations.SidebandCccsAnswer : Prop :=
  (∀ (s : State) (a : BitVec 7), s.i3c.enabled = true → s.boot.inReset = false → s.i3c.addr = none → exec (.entdaa a) s = .next
      ({ s with i3c := { s.i3c with addr := some a } }))
  ∧ (∀ (s : State), s.i3c.enabled = true → s.boot.inReset = false → exec .rstdaa s = .next ({ s with i3c := { s.i3c with addr := none } }))
  ∧ (∀ (s : State) (a b : BitVec 7), s.i3c.enabled = true → s.boot.inReset = false → s.i3c.addr = some b → exec (.setnewda a) s = .next
      ({ s with i3c := { s.i3c with addr := some a } }))
  ∧ (∀ (s : State) (b : BitVec 7), s.i3c.enabled = true → s.boot.inReset = false → s.i3c.addr = some b → exec .getpid s = .next
      ({ s with regs := { s.regs with ioOut := (natLe 6 (s.fuse.i3cMfr.toNat * 2 ^ 33 + partBcd s.fuse.part * 2 ^ 16 + s.fuse.i3cInstance.toNat)).reverse } }))
  ∧ (∀ (s : State) (b : BitVec 7), s.i3c.enabled = true → s.boot.inReset = false → s.i3c.addr = some b → exec .getbcr s = .next
      ({ s with regs := { s.regs with ioOut := [0x00] } }))
  ∧ (∀ (s : State) (b : BitVec 7), s.i3c.enabled = true → s.boot.inReset = false → s.i3c.addr = some b → exec .getdcr s = .next
      ({ s with regs := { s.regs with ioOut := [0x00] } }))
  ∧ (∀ (s : State) (b : BitVec 7), s.i3c.enabled = true → s.boot.inReset = false → s.i3c.addr = some b → exec .getstatus s = .next
      ({ s with regs := { s.regs with ioOut := [0x00, BitVec.ofNat 8 (32 * b2n s.i3c.protoErr)] }, i3c := { s.i3c with protoErr := false } }))
  ∧ (∀ (s : State) (m : Byte), s.i3c.enabled = true → s.boot.inReset = false → exec (.syncMark m) s = .next
      ({ s with i3c := { s.i3c with mark := m, markValid := true, latch := s.stb } }))

/-- Over the addressed I3C target, a write of 1 to WAKE_PENDING clears the flag and nothing else, a write of 0 changes nothing, and a read
of WAKE_COUNTS answers the extra wakes and the privacy presses and sets both to 0. (Derived: 21_register_reference.md R436, 03_listening.md
R63, 03_listening.md R67.) -/
def Obligations.WakeStatusRegisters : Prop :=
  (∀ (s : State) (v : Byte) (b : BitVec 7), s.i3c.enabled = true → s.boot.inReset = false → s.i3c.addr = some b → v.getLsbD 7 = true → exec
      (.wakePending v) s = .next ({ s with listen := { s.listen with wakePending := false } }))
  ∧ (∀ (s : State) (v : Byte), v.getLsbD 7 = false → exec (.wakePending v) s = .next (s))
  ∧ (∀ (s : State) (b : BitVec 7), s.i3c.enabled = true → s.boot.inReset = false → s.i3c.addr = some b → exec .wakeCountsRead s = .next
      ({ s with regs := { s.regs with ioOut := natLe 4 (s.listen.extraWakes + 65536 * s.listen.privPresses) }, listen := { s.listen with extraWakes := 0, privPresses := 0 } }))

/-- A write of 1 to TEST_STOP with OEM_LOCK unblown starts the test and a write of 0 ends it at once; with OEM_LOCK blown writes are
ignored. While the test stands, no ALIVE edge happens and no fault is logged. 12,288 tk after the write the field clears itself, and with no
other cause the level changes on the next multiple of 1,536 tk. (Stated: 21_register_reference.md R437.) -/
def Obligations.TestStopSuppressesAlive : Prop :=
  (∀ (s : State) (b : BitVec 7), s.i3c.enabled = true → s.boot.inReset = false → s.i3c.addr = some b → s.fuse.oemLock = false → exec (.testStop true)
      s = .next ({ s with fault := { s.fault with testStop := true, testAt := s.stb } }))
  ∧ (∀ (s : State) (b : BitVec 7), s.i3c.enabled = true → s.boot.inReset = false → s.i3c.addr = some b → s.fuse.oemLock = false → exec (.testStop
      false) s = .next ({ s with fault := { s.fault with testStop := false } }))
  ∧ (∀ (s : State) (v : Bool), s.fuse.oemLock = true → exec (.testStop v) s = .next (s))
  ∧ (∀ s : State, s.fault.testStop = true → ∃ t, exec .aliveEdge s = .next t ∧ t.fault.level = s.fault.level ∧ t.fault.edges = s.fault.edges ∧
      t.fault.log = s.fault.log)
  ∧ (∀ (s : State), s.fault.testStop = true → s.fault.testAt + 12288 ≤ s.stb → exec .testStopExpiry s = .next
      ({ s with fault := { s.fault with testStop := false } }))
  ∧ (∀ (s : State), s.stb < s.fault.testAt + 12288 → exec .testStopExpiry s = .next (s))
  ∧ (∀ (s : State), s.fault.aliveRun = true → s.stb % 1536 = 0 → s.fault.lastEdge ≠ s.stb → aliveCause s = 0 → exec .aliveEdge s = .next
      ({ s with fault := { s.fault with level := !s.fault.level, suppressed := false, aliveCause := 0, edges := s.fault.edges + 1, lastEdge := s.stb } }))

/-- ALIVE is low and stopped at reset. While it runs, an edge on a multiple of 1,536 tk changes the level and counts the edge; with a cause
of suppression in force the level stays, and the cause is recorded. Before GORSE_MAIN runs, and off the multiples of 1,536 tk, nothing
changes. (Derived: 14_faults.md R349, 14_faults.md R332, 14_faults.md R350.) -/
def Obligations.AliveEdges : Prop :=
  (State.reset.fault.level = false ∧ State.reset.fault.aliveRun = false)
  ∧ (∀ (s : State), s.fault.aliveRun = false → exec .aliveEdge s = .next (s))
  ∧ (∀ (s : State), s.stb % 1536 ≠ 0 → exec .aliveEdge s = .next (s))
  ∧ (∀ (s : State), s.fault.aliveRun = true → s.stb % 1536 = 0 → s.fault.lastEdge ≠ s.stb → aliveCause s = 0 → exec .aliveEdge s = .next
      ({ s with fault := { s.fault with level := !s.fault.level, suppressed := false, aliveCause := 0, edges := s.fault.edges + 1, lastEdge := s.stb } }))
  ∧ (∀ (s : State), s.fault.aliveRun = true → s.stb % 1536 = 0 → s.fault.lastEdge ≠ s.stb → aliveCause s ≠ 0 → exec .aliveEdge s = .next
      ({ s with fault := { s.fault with suppressed := true, aliveCause := aliveCause s, lastEdge := s.stb } }))

/-- With the addressed I3C target, GORSE_MAIN running, no operation under way, VPP at its level, the PF0 admin ring off and the fuse
unblown, an operation sets PROV_BUSY. With VPP low it ends with result 2, with the admin ring on with result 4, with its fuse or OEM_LOCK
blown with result 1; BLOW_DBG_OFF looks at DBG_OFF alone. When it is done, a failed read-back ends it with result 3, and a good one blows
the key, the lock or DBG_OFF and ends it with result 0. (Derived: 13_tenants_and_trust.md R310, 13_tenants_and_trust.md R313,
13_tenants_and_trust.md R314, 13_tenants_and_trust.md R329, 20_balls_and_electrical.md R420.) -/
def Obligations.FuseProvisioning : Prop :=
  (∀ (s : State) (b : BitVec 7), s.i3c.enabled = true → s.boot.inReset = false → s.i3c.addr = some b → 1 ≤ s.boot.stage → s.root.provBusy = false →
      s.pins.vpp = true → s.regs.admin0.enable = false → s.fuse.oemLock = false → s.fuse.oemKeySet = false → exec .programOemKey s = .next
      ({ s with root := { s.root with provOp := 1, provBusy := true } }))
  ∧ (∀ (s : State) (b : BitVec 7), s.i3c.enabled = true → s.boot.inReset = false → s.i3c.addr = some b → 1 ≤ s.boot.stage → s.root.provBusy = false →
      s.pins.vpp = true → s.regs.admin0.enable = false → s.fuse.oemLock = false → exec .blowOemLock s = .next
      ({ s with root := { s.root with provOp := 2, provBusy := true } }))
  ∧ (∀ (s : State) (b : BitVec 7), s.i3c.enabled = true → s.boot.inReset = false → s.i3c.addr = some b → 1 ≤ s.boot.stage → s.root.provBusy = false →
      s.pins.vpp = true → s.regs.admin0.enable = false → s.fuse.dbgOff = false → exec .blowDbgOff s = .next
      ({ s with root := { s.root with provOp := 3, provBusy := true } }))
  ∧ (∀ (s : State) (b : BitVec 7), s.i3c.enabled = true → s.boot.inReset = false → s.i3c.addr = some b → 1 ≤ s.boot.stage → s.root.provBusy = false →
      s.pins.vpp = false → exec .programOemKey s = .next ({ s with root := { s.root with provBusy := false, provResult := 2, provData := [] } }))
  ∧ (∀ (s : State) (b : BitVec 7), s.i3c.enabled = true → s.boot.inReset = false → s.i3c.addr = some b → 1 ≤ s.boot.stage → s.root.provBusy = false →
      s.pins.vpp = false → exec .blowOemLock s = .next ({ s with root := { s.root with provBusy := false, provResult := 2, provData := [] } }))
  ∧ (∀ (s : State) (b : BitVec 7), s.i3c.enabled = true → s.boot.inReset = false → s.i3c.addr = some b → 1 ≤ s.boot.stage → s.root.provBusy = false →
      s.pins.vpp = false → exec .blowDbgOff s = .next ({ s with root := { s.root with provBusy := false, provResult := 2, provData := [] } }))
  ∧ (∀ (s : State) (b : BitVec 7), s.i3c.enabled = true → s.boot.inReset = false → s.i3c.addr = some b → 1 ≤ s.boot.stage → s.root.provBusy = false →
      s.pins.vpp = true → s.regs.admin0.enable = true → exec .programOemKey s = .next
      ({ s with root := { s.root with provBusy := false, provResult := 4, provData := [] } }))
  ∧ (∀ (s : State) (b : BitVec 7), s.i3c.enabled = true → s.boot.inReset = false → s.i3c.addr = some b → 1 ≤ s.boot.stage → s.root.provBusy = false →
      s.pins.vpp = true → s.regs.admin0.enable = true → exec .blowOemLock s = .next
      ({ s with root := { s.root with provBusy := false, provResult := 4, provData := [] } }))
  ∧ (∀ (s : State) (b : BitVec 7), s.i3c.enabled = true → s.boot.inReset = false → s.i3c.addr = some b → 1 ≤ s.boot.stage → s.root.provBusy = false →
      s.pins.vpp = true → s.regs.admin0.enable = true → exec .blowDbgOff s = .next
      ({ s with root := { s.root with provBusy := false, provResult := 4, provData := [] } }))
  ∧ (∀ (s : State) (b : BitVec 7), s.i3c.enabled = true → s.boot.inReset = false → s.i3c.addr = some b → 1 ≤ s.boot.stage → s.root.provBusy = false →
      s.pins.vpp = true → s.regs.admin0.enable = false → s.fuse.oemLock = true ∨ s.fuse.oemKeySet = true → exec .programOemKey s = .next
      ({ s with root := { s.root with provBusy := false, provResult := 1, provData := [] } }))
  ∧ (∀ (s : State) (b : BitVec 7), s.i3c.enabled = true → s.boot.inReset = false → s.i3c.addr = some b → 1 ≤ s.boot.stage → s.root.provBusy = false →
      s.pins.vpp = true → s.regs.admin0.enable = false → s.fuse.oemLock = true → exec .blowOemLock s = .next
      ({ s with root := { s.root with provBusy := false, provResult := 1, provData := [] } }))
  ∧ (∀ (s : State) (b : BitVec 7), s.i3c.enabled = true → s.boot.inReset = false → s.i3c.addr = some b → 1 ≤ s.boot.stage → s.root.provBusy = false →
      s.pins.vpp = true → s.regs.admin0.enable = false → s.fuse.dbgOff = true → exec .blowDbgOff s = .next
      ({ s with root := { s.root with provBusy := false, provResult := 1, provData := [] } }))
  ∧ (∀ (s u : State), u = sweep s → u.root.provBusy = true → u.boot.inReset = false → exec (.provisioningDone false) s = .next (settle
      ({ u with root := { u.root with provBusy := false, provResult := 3, provData := [] } })))
  ∧ (∀ (s u : State), u = sweep s → u.root.provBusy = true → u.boot.inReset = false → u.root.provOp = 1 → exec (.provisioningDone true) s = .next
      (settle
      ({ u with fuse := { u.fuse with oemKey := BitVec.ofNat 256 (leNat u.root.provData), oemKeySet := true }, root := { u.root with provBusy := false, provResult := 0, provData := [] } })))
  ∧ (∀ (s u : State), u = sweep s → u.root.provBusy = true → u.boot.inReset = false → u.root.provOp = 2 → exec (.provisioningDone true) s = .next
      (settle ({ u with fuse := { u.fuse with oemLock := true }, root := { u.root with provBusy := false, provResult := 0, provData := [] } })))
  ∧ (∀ (s u : State), u = sweep s → u.root.provBusy = true → u.boot.inReset = false → u.root.provOp = 3 → exec (.provisioningDone true) s = .next
      (settle (dropDebug
      { u with fuse := { u.fuse with dbgOff := true }, root := { u.root with provBusy := false, provResult := 0, provData := [] } })))

/-- For an enabled ring of the function and a write of 8 bytes: where SQ_TAIL - FETCHED or CQ_TAIL - CQ_HEAD (mod 2^32) exceeds 2^n, only
DB_ERROR and the count of ignored doorbells change, so the previous values stay and the ring keeps running; otherwise both values are taken,
and CTRL is demanded. (Stated: 05_command_packets.md R101.) -/
def Obligations.DoorbellsKeepTheirLimits : Prop :=
  (∀ (s u : State) (fn : Fn) (rn : Nat) (v : U64) (r : Ring), u = sweep s → barReached u = true → u.boot.recovery = false → ownsRing u fn rn = true →
      r = ringOf u rn → r.enabled = true → 2 ^ r.log2 < ((v.extractLsb' 0 32 : U32) - r.fetched).toNat ∨ 2 ^ r.log2 < (r.cqTail - (v.extractLsb' 32 32
      : U32)).toNat → exec (.doorbell fn rn 8 v) s = .next (settle (setRing u { r with dbError := true, dbIgnored := min (r.dbIgnored + 1) 65535 })))
  ∧ (∀ (s u : State) (fn : Fn) (rn : Nat) (v : U64) (r : Ring), u = sweep s → barReached u = true → u.boot.recovery = false → ownsRing u fn rn = true
      → r = ringOf u rn → r.enabled = true → ((v.extractLsb' 0 32 : U32) - r.fetched).toNat ≤ 2 ^ r.log2 → (r.cqTail - (v.extractLsb' 32 32 :
      U32)).toNat ≤ 2 ^ r.log2 → exec (.doorbell fn rn 8 v) s = .next (settle (demandDom (setRing u
      { r with sqTail := v.extractLsb' 0 32, cqHead := v.extractLsb' 32 32 }) domCtrl 0xFE 0x09)))

/-- While CAPS_VALID is clear: writes to RING_SPLIT, PARTITION and MEM_CONFIG change nothing; a write of 1 to ADMIN_ENABLE of a disabled
ring leaves it disabled and sets ADMIN_ERROR; a write of 0 changes nothing. (Stated: 19_start_up.md R409.) -/
def Obligations.WritesBeforeCapsValid : Prop :=
  (∀ (s u : State) (fn : Fn) (v : U32), u = sweep s → u.boot.capsValid = false → exec (.ringSplit fn v) s = .next (settle (u)))
  ∧ (∀ (s u : State) (fn : Fn) (v : U32), u = sweep s → u.boot.capsValid = false → exec (.partition fn v) s = .next (settle (u)))
  ∧ (∀ (s u : State) (fn : Fn) (v : U64), u = sweep s → u.boot.capsValid = false → exec (.memConfig fn v) s = .next (settle (u)))
  ∧ (∀ (s u : State) (fn : Fn) (v : U32), u = sweep s → u.boot.capsValid = false → barReached u = true → u.boot.recovery = false → v.getLsbD 0 = true
      → (admin u fn).enable = false → exec (.adminEnable fn v) s = .next (settle (setAdmin u fn { admin u fn with error := true })))
  ∧ (∀ (s u : State) (fn : Fn) (v : U32), u = sweep s → u.boot.capsValid = false → v.getLsbD 0 = false → exec (.adminEnable fn v) s = .next (settle
      (u)))

/-- With BAR0 reached: RING_SPLIT takes a multiple of 256 up to 2,048 on PF0 while both admin rings are off, and PF1's write of it changes
nothing; PARTITION takes a valid partition and marks the moved units for clearing, and ignores another or a write while the PF0 admin ring
is on; MEM_CONFIG takes its fields, but keeps its grains while the PF0 admin ring is on; ADMIN_ENABLE makes the admin ring with zeroed
counts and completion word, refuses with ADMIN_ERROR where a condition fails, clears ADMIN_ERROR, or closes the session and disables the
ring; RING_STATUS answers the ring's 8 bytes, or its lower half and then the latched upper half, and zeroes DB_IGNORED; a write of another
length on a doorbell is ignored and counted; ADMIN_SQ_BASE takes a 4 KiB aligned address while the ring is off and nothing while it is on;
PROV_DATA takes its 32 bytes. (Derived: 05_command_packets.md R97, 05_command_packets.md R98, 05_command_packets.md R100, 12_memory_tiers.md
R290, 13_tenants_and_trust.md R306, 21_register_reference.md R429, 21_register_reference.md R430, 21_register_reference.md R431,
21_register_reference.md R434.) -/
def Obligations.ConfigurationWrites : Prop :=
  (∀ (s u : State) (v : U32), u = sweep s → barReached u = true → u.boot.capsValid = true → u.regs.admin0.enable = false → u.regs.admin1.enable =
      false → v.toNat % 4096 % 256 = 0 → v.toNat % 4096 ≤ 2048 → exec (.ringSplit .pf0 v) s = .next (settle
      ({ u with regs := { u.regs with ringSplit := v.toNat % 4096 } })))
  ∧ (∀ (s u : State) (v : U32), u = sweep s → exec (.ringSplit .pf1 v) s = .next (settle (u)))
  ∧ (∀ (s u : State) (v : U32) (x : State), u = sweep s → barReached u = true → u.boot.capsValid = true → u.regs.admin0.enable = false →
      u.regs.admin1.enable = false → partitionOk u (v.toNat % 65536) = true → x = (maskList (movedUnits u (v.toNat % 65536) % 16)).foldl (fun s c =>
      disableUnit s (domCop c)) u → exec (.partition .pf0 v) s = .next (settle
      ({ x with regs := { x.regs with partition := BitVec.ofNat 32 (v.toNat % 65536), clearing := x.regs.clearing ||| BitVec.ofNat 32 (movedUnits u (v.toNat % 65536)) } })))
  ∧ (∀ (s u : State) (v : U32), u = sweep s → u.regs.admin0.enable = true ∨ partitionOk u (v.toNat % 65536) = false → exec (.partition .pf0 v) s =
      .next (settle u))
  ∧ (∀ (s u x : State) (v : U64) (n : Nat), u = sweep s → barReached u = true → u.boot.capsValid = true → n = v.toNat → memConfigOk n = true →
      u.regs.admin0.enable = false → u.regs.admin1.enable = false →
      x = ((List.range 4).filter (fun g => bits (n % 65536) (4 * g + 3) (4 * g) != bits u.regs.memConfig.toNat (4 * g + 3) (4 * g))).foldl grainChange u →
      exec (.memConfig .pf0 v) s = .next (settle
      ({ x with regs := { x.regs with memConfig := BitVec.ofNat 64 (n % 65536 + 2 ^ 16 * bits n 30 16 + 2 ^ 32 * bits n 39 32) } })))
  ∧ (∀ (s u : State) (v : U64), u = sweep s → barReached u = true → u.boot.capsValid = true → memConfigOk v.toNat = true → u.regs.admin0.enable = true
      → exec (.memConfig .pf0 v) s = .next (settle
      ({ u with regs := { u.regs with memConfig := BitVec.ofNat 64 (u.regs.memConfig.toNat % 65536 + 2 ^ 16 * bits v.toNat 30 16 + 2 ^ 32 * bits v.toNat 39 32) } })))
  ∧ (∀ (s u : State) (fn : Fn) (v : U32) (a : Admin) (r : Ring), u = sweep s → barReached u = true → u.boot.recovery = false → v.getLsbD 0 = true → a
      = admin u fn → a.enable = false → u.boot.capsValid = true → u.regs.clearing = 0 → 4 ≤ a.log2 → a.log2 ≤ 16 → adminRing u fn < 4096 → r =
      { num := adminRing u fn, enabled := true, cls := 1, log2 := a.log2, sqBase := a.sqBase, cqBase := a.cqBase, cwAddr := a.cwAddr, dbIgnored := (ringOf u (adminRing u fn)).dbIgnored }
      → exec (.adminEnable fn v) s = .next (settle (hostOut (setRing (setAdmin (forgetRing u (adminRing u fn)) fn
      { a with enable := true, error := false }) r) fn a.cwAddr.toNat (zeroBytes 8))))
  ∧ (∀ (s u : State) (fn : Fn) (v : U32), u = sweep s → barReached u = true → u.boot.recovery = false → v.getLsbD 0 = true →
      (admin u fn).enable = false → mayEnable u fn = false → exec (.adminEnable fn v) s = .next (settle (setAdmin u fn { admin u fn with error := true })))
  ∧ (∀ (s u x y : State) (fn : Fn) (v : U32), u = sweep s → barReached u = true → u.boot.recovery = false → v.getLsbD 0 = false →
      u.boot.capsValid = true → (admin u fn).enable = true → x = setAdmin u fn { admin u fn with error := false } →
      y = (if sessionOf x fn ≠ 0 then closeSession x fn else x) →
      exec (.adminEnable fn v) s = .next (settle (disableAdmin (forgetAll y ((cmdsOf y fn).map (·.id))) fn)))
  ∧ (∀ (s u : State) (fn : Fn) (v : U32), u = sweep s → barReached u = true → u.boot.recovery = false → v.getLsbD 0 = false → u.boot.capsValid = true
      → (admin u fn).enable = false → exec (.adminEnable fn v) s = .next (settle (setAdmin u fn { admin u fn with error := false })))
  ∧ (∀ (s u : State) (fn : Fn) (rn : Nat) (x : State), u = sweep s → barReached u = true → ownsRing u fn rn = true → u.rings.any (fun r => r.num ==
      rn) = true → x = { u with regs := { u.regs with ioOut := natLe 8 (ringStatus u fn rn) } } → exec (.ringStatusRead fn rn none) s = .next (settle
      (setRing x { ringOf u rn with dbIgnored := 0 })))
  ∧ (∀ (s u : State) (fn : Fn) (rn : Nat) (x : State), u = sweep s → barReached u = true → ownsRing u fn rn = true → u.rings.any (fun r => r.num ==
      rn) = true → x = { u with regs := { u.regs with readLatch := (rn, ringStatus u fn rn / 2 ^ 32) :: u.regs.readLatch.filter (fun e => e.1 != rn), ioOut := natLe 4 (ringStatus u fn rn) } } →
      exec (.ringStatusRead fn rn (some false)) s = .next (settle (setRing x { ringOf u rn with dbIgnored := 0 })))
  ∧ (∀ (s u : State) (fn : Fn) (rn : Nat) (e : Nat × Nat), u = sweep s → barReached u = true →
      u.regs.readLatch.find? (fun e => e.1 == rn) = some e → exec (.ringStatusRead fn rn (some true)) s = .next (settle
      ({ u with regs := { u.regs with readLatch := u.regs.readLatch.filter (fun e => e.1 != rn), ioOut := natLe 4 e.2 } })))
  ∧ (∀ (s u : State) (fn : Fn) (rn : Nat) (data : List Byte), u = sweep s → barReached u = true → u.boot.recovery = false → rn < 4096 →
      ownsRing u fn rn = true → data.length ≠ 8 → exec (.registerWrite (.bar0 fn) (0x800000 + 2048 * rn) data) s = .next (settle (setRing u
      { ringOf u rn with dbIgnored := min ((ringOf u rn).dbIgnored + 1) 65535 })))
  ∧ (∀ (s u : State) (b : BitVec 7) (data : List Byte), u = sweep s → u.i3c.enabled = true → u.boot.inReset = false → u.i3c.addr = some b →
      u.boot.recovery = false → u.root.provBusy = false → data.length = 32 → exec (.registerWrite .i3c 0x60 data) s = .next (settle
      ({ u with i3c := { u.i3c with offset := 0x60 }, root := { u.root with provData := data } })))
  ∧ (∀ (s u : State) (fn : Fn) (data : List Byte), u = sweep s → barReached u = true → u.boot.recovery = false → data.length = 8 → (admin u fn).enable
      = false → exec (.registerWrite (.bar0 fn) 0x20 data) s = .next (settle (setAdmin u fn
      { admin u fn with sqBase := BitVec.ofNat 64 ((BitVec.ofNat 64 (leNat data)).toNat / 4096 * 4096) })))
  ∧ (∀ (s u : State) (fn : Fn) (data : List Byte), u = sweep s → data.length = 8 → (admin u fn).enable = true → u.boot.recovery = false → exec
      (.registerWrite (.bar0 fn) 0x20 data) s = .next (settle (u)))

/-- The release starts the STB at 0, ends the reset, draws the first KEM key pair and lets a low PRIV_N act. The ROM checks with every image
good start GORSE_MAIN: stage 1, the I3C target, ALIVE and CTRL; with an image that fails, or without a directory, they enter recovery. The
release of Laurel with a verified image asks for the lease, retrains the die link and keeps the image's digest, the first one also starting
LINK and the MEM domains; with an image that is not verified it does nothing. The end of training moves the failed channels to spares and
puts the groups into service with a demand for NAND, or stops at stage 0xF without group 0. The mount brings each channel that did not fail
into service, logs source 0x14 for the others, and sets CAPS_VALID and stage 4. A Gorse power-on reset puts every field at its reset value,
but what fuses, NOR, NAND and the pins keep. The direction that a FATAL of the release carries is the model's choice
(notes/assumptions/65.md). (Derived: 19_start_up.md R403, 19_start_up.md R405, 19_start_up.md R406, 19_start_up.md R407,
01_gorse_laurel_and_the_cascade.md R17, 12_memory_tiers.md R301, 14_faults.md R349.) -/
def Obligations.BootChain : Prop :=
  (∀ (s u : State) (x : State), u = sweep s → u.boot.inReset = true → x =
      { u with stb := 0, boot := { u.boot with inReset := false }, pins := { u.pins with grstN := true, clkreqLow := true }, root := { u.root with kemId := 1, kemPair := u.freeCtr } }
      → exec .gorseResetRelease s = .next (settle (if u.pins.privN then bumpFree x else privNLow (bumpFree x))))
  ∧ (∀ (s u : State) (x : State), u = sweep s → u.boot.inReset = false → u.boot.stage = 0 → failedImages u = 0 → x =
      { u with boot := { u.boot with stage := 1 }, fw := { u.fw with running := u.fw.nor, norState := [0, 0, 0, 0, 0, 0] }, i3c := { u.i3c with enabled := true }, fault := { u.fault with aliveRun := true, kickGorse := u.stb } }
      → exec (.romChecksDone true) s = .next (settle (demandDom (raiseSvn x) domCtrl 0x00 0x06)))
  ∧ (∀ (s u : State), u = sweep s → u.boot.inReset = false → u.boot.stage = 0 → failedImages u ≠ 0 →
      exec (.romChecksDone true) s = .next (settle (enterRecovery (failedImages u) u)))
  ∧ (∀ (s u : State), u = sweep s → u.boot.inReset = false → u.boot.stage = 0 → exec (.romChecksDone false) s = .next (settle (enterRecovery 63 u)))
  ∧ (∀ (s u x y z : State), u = sweep s → gorseRuns u = true → u.boot.laurelReleased = false → u.boot.laurelHeld = false → u.custody.noReturn =
      false → u.fault.haltGorse = false → domOn u domCtrl = true → laurelVerified u = true → x =
      { u with boot := { u.boot with laurelReleased := true, stage := if u.boot.capsValid then 4 else 2 }, dlink := { u.dlink with trained := false, limitAt := some (u.stb + 8192), limitDir := 0, replaysGL := 0, replaysLG := 0 }, custody := { u.custody with grantAsked := true }, sess0 := { u.sess0 with opened := 0 }, sess1 := { u.sess1 with opened := 0 }, fault := { u.fault with healthAt := u.stb, kickCp0 := u.stb, kickCp1 := u.stb } } →
      y = { x with obs := { x.obs with restarted := false } } →
      z = (if u.boot.capsValid then x else demandDom (demandDom (demandDom y domLink 0x00 0x06) domMema 0x00 0x06) domMemb 0x00 0x06) →
      exec .laurelRelease s = .next (settle ({ z with power := { z.power with fwRetained := true, fwKept := (runningOf z 3).digest, fwDigest := (runningOf z 3).digest } })))
  ∧ (∀ (s u : State), u = sweep s → laurelVerified u = false → exec .laurelRelease s = .next (settle u))
  ∧ (∀ (s u x y : State) (full : Bool) (failed : List Nat), u = sweep s → u.boot.stage = 2 → u.boot.inReset = false → domOn u domMema = true →
      domPresent u.fuse.part domMemb = false ∨ domOn u domMemb = true →
      x = ((failed.filter (fun ch => decide (ch / 8 < unitsOf u.fuse.part) && !u.dram.moved.any (fun m => m.1 == ch))).dedup).foldl untrained u →
      y = { x with boot := { x.boot with trainFull := full || !x.fw.trainValid }, fw := { x.fw with trainValid := true } } →
      exec (.trainingDone full failed) s = .next (settle (if x.dram.outGroups.toNat.testBit 0 then { y with boot := { y.boot with stage := 15 } } else demandDom
      { y with boot := { y.boot with stage := 3 }, dram := { y.dram with groupsUp := BitVec.ofNat 4 (maskOf ((List.range 4).filter (groupPresent y))) } }
      domNand 0x00 0x06)))
  ∧ (∀ (s u : State) (failed : List Nat) (x : State), u = sweep s → u.boot.stage = 3 → u.boot.inReset = false → domOn u domNand = true → x =
      discardKeyless ((unitList (nandPresent u)).foldl (mountChannel failed) u) → exec (.ftlMountDone failed) s = .next (settle
      ({ x with boot := { x.boot with stage := 4, capsValid := true, mountReplay := !x.boot.orderly, mapGen := 0 } })))
  ∧ (∀ (s : State) (n : Nat) (failed : List Nat), (failed.contains n = true → mountChannel failed s n = raise s (capture s 0x14 n 1)) ∧
      (failed.contains n = false → n < s.nand.length → (nandCh (mountChannel failed s n) n).inService = true))
  ∧ (∀ (s u : State) (cause : ResetCause), u = sweep s → exec (.gorsePowerOnReset cause) s = .next (settle (powerOnReset
      (match cause with | .vddAon => 0 | .grstN => 1) u)))
  ∧ (∀ (s : State) (n : Nat), (powerOnReset n s).stb = 0 ∧ (powerOnReset n s).boot.inReset = true ∧ (powerOnReset n s).boot.cause = n ∧ (powerOnReset
      n s).fuse = s.fuse
     ∧ (powerOnReset n s).store.nand = s.store.nand ∧ (powerOnReset n s).store.dram = [] ∧ (powerOnReset n s).cmds = [] ∧ (powerOnReset n s).rings =
         []
     ∧ (powerOnReset n s).fault = State.reset.fault ∧ (powerOnReset n s).listen = State.reset.listen ∧ (powerOnReset n s).power = State.reset.power)

/-- In recovery, GO with a component and a length starts a load. Its end with a reason writes the reason and leaves FAILED and NOR alone; an
accepted image takes the component's place in NOR and clears its bit, and when FAILED is then 0 the reset is due 3,072 tk later, with
BOOT_CAUSE 2. (Derived: 19_start_up.md R413, 19_start_up.md R414.) -/
def Obligations.RecoveryLoader : Prop :=
  (∀ (s : State) (v : U64), barReached s = true → s.boot.recovery = true → s.boot.rcvBusy = false → exec (.rcvCtrlGo v) s = .next
      ({ s with boot := { s.boot with rcvComponent := v.toNat % 8, rcvLen := bits v.toNat 54 32, rcvBusy := bit v.toNat 3 } }))
  ∧ (∀ (s u : State) (hostOk norOk : Bool), u = sweep s → u.boot.recovery = true → u.boot.rcvBusy = true → loadReason u hostOk norOk ≠ 0 → exec
      (.recoveryLoadDone hostOk norOk) s = .next (settle
      ({ u with boot := { u.boot with rcvBusy := false, rcvReason := loadReason u hostOk norOk } })))
  ∧ (∀ (s u : State) (hostOk norOk : Bool) (failed : BitVec 6), u = sweep s → u.boot.recovery = true → u.boot.rcvBusy = true → loadReason u hostOk
      norOk = 0 → failed = u.boot.failed &&& ~~~(BitVec.ofNat 6 (2 ^ (u.boot.rcvComponent - 1))) → exec (.recoveryLoadDone hostOk norOk) s = .next
      (settle
      ({ u with fw := { u.fw with nor := u.fw.nor.filter (fun g => g.component != u.boot.rcvComponent) ++ [imageOf u.boot.rcvComponent (memReadN u.store.host u.boot.rcvSrc.toNat u.boot.rcvLen)] }, boot := { u.boot with rcvBusy := false, rcvReason := 0, failed := failed, resetAt := if failed = 0 then some (u.stb + 3072) else none } })))
  ∧ (∀ (s u : State) (n : Nat), u = sweep s → u.boot.recovery = true → u.boot.resetAt = some n → n ≤ u.stb → exec .recoveryReset s = .next (settle
      (powerOnReset 2 u)))

/-- PERST_N low takes the link down and resets both functions; its rise puts both in D0, lets Detect begin if LINK is ON, and once Laurel is
released demands LINK. A function-level reset with the link up resets its function. D3hot and D3cold set the D-state, D3hot of PF0 also
leaving the group, D3cold also resetting both functions and turning LINK off; the return to D0 releases PEWAKE_N and writes what was held.
The link in L0 releases PEWAKE_N and writes what was held; L1 and L2 only change the link, L1.1 and L1.2 also release CLKREQ_N, and L1.2
sends LINK toward RET. A configuration request is answered Retry before CAPS_VALID and 900 ms, and normally after either or in recovery.
(Derived: 05_command_packets.md R124, 05_command_packets.md R127, 05_command_packets.md R128, 19_start_up.md R410, 19_start_up.md R412.) -/
def Obligations.HostLinkEvents : Prop :=
  (∀ (s u : State) (x : State), u = sweep s → u.boot.inReset = false → x =
      { u with pins := { u.pins with perstN := false }, pcie := { u.pcie with link := .down, detect := false, perstRise := none, answer := .none } } →
      exec .perstNAssert s = .next (settle (linkOff (resetFunction (resetFunction x .pf0) .pf1))))
  ∧ (∀ (s u : State) (x : State), u = sweep s → u.pins.perstN = false → u.boot.laurelReleased = true → x =
      { u with pins := { u.pins with perstN := true }, pcie := { u.pcie with perstRise := some u.stb, d0 := .d0, d1 := .d0, detect := domOn u domLink && !u.boot.inReset } }
      → exec .perstNRise s = .next (settle (demandDom x domLink 0xFE 0x09)))
  ∧ (∀ (s u : State), u = sweep s → u.pins.perstN = false → u.boot.laurelReleased = false → exec .perstNRise s = .next (settle
      ({ u with pins := { u.pins with perstN := true }, pcie := { u.pcie with perstRise := some u.stb, d0 := .d0, d1 := .d0, detect := domOn u domLink && !u.boot.inReset } })))
  ∧ (∀ (s u : State) (fn : Fn), u = sweep s → u.pcie.link ≠ .down → u.boot.inReset = false → exec (.functionLevelReset fn) s = .next (settle
      (disableAdmin (dropSession u fn) fn)))
  ∧ (∀ (s u : State), u = sweep s → u.boot.inReset = false → exec .d3coldEntry s = .next (settle (linkOff (resetFunction (resetFunction
      { u with pcie := { u.pcie with d0 := .d3cold, d1 := .d3cold } } .pf0) .pf1))))
  ∧ (∀ (s u : State), u = sweep s → u.pcie.d1 = .d0 → u.pcie.link ≠ .down → exec (.d3hotEntry .pf1) s = .next (settle
      ({ u with pcie := { u.pcie with d1 := .d3hot } })))
  ∧ (∀ (s u : State), u = sweep s → u.pcie.d0 = .d0 → u.pcie.link ≠ .down → exec (.d3hotEntry .pf0) s = .next (settle (setDState (abortGroup u) .pf0
      .d3hot)))
  ∧ (∀ (s u : State), u = sweep s → u.pins.perstN = true → u.boot.inReset = false → exec (.d0Return .pf0) s = .next (settle (flushHeld (releasePewake
      { u with pcie := { u.pcie with d0 := .d0 } }) .pf0)))
  ∧ (∀ (s u : State), u = sweep s → u.pins.perstN = true → u.boot.inReset = false → exec (.d0Return .pf1) s = .next (settle (flushHeld (releasePewake
      { u with pcie := { u.pcie with d1 := .d0 } }) .pf1)))
  ∧ (∀ (s u : State), u = sweep s → u.pins.perstN = true → u.pcie.detect = true → domOn u domLink = true → u.boot.inReset = false → exec
      (.linkStateChange .l0) s = .next (settle (flushHeld (flushHeld (releasePewake
      { u with pcie := { u.pcie with link := .l0, exitAsked := false }, pins := { u.pins with clkreqLow := true } }) .pf0) .pf1)))
  ∧ (∀ (s u : State), u = sweep s → u.pins.perstN = true → u.pcie.detect = true → u.boot.inReset = false → exec (.linkStateChange .l1) s = .next
      (settle ({ u with pcie := { u.pcie with link := .l1 }, pins := { u.pins with clkreqLow := true } })))
  ∧ (∀ (s u : State), u = sweep s → u.pins.perstN = true → u.pcie.detect = true → u.boot.inReset = false → exec (.linkStateChange .l11) s = .next
      (settle ({ u with pcie := { u.pcie with link := .l11 }, pins := { u.pins with clkreqLow := false } })))
  ∧ (∀ (s u x : State), u = sweep s → u.pins.perstN = true → u.pcie.detect = true → u.boot.inReset = false →
      x = { u with pcie := { u.pcie with link := .l12 }, pins := { u.pins with clkreqLow := false } } → exec (.linkStateChange .l12) s = .next
      (settle (if (domOf u domLink).state = .on then startEntry x domLink 1 none false else x)))
  ∧ (∀ (s u : State), u = sweep s → u.boot.inReset = false → exec (.linkStateChange .l2) s = .next (settle
      ({ u with pcie := { u.pcie with link := .l2 }, pins := { u.pins with clkreqLow := true } })))
  ∧ (∀ (s : State), s.pcie.link ≠ .down → s.boot.inReset = false → s.boot.recovery = true → exec (.configRequest .pf0) s = .next
      ({ s with pcie := { s.pcie with answer := .normal } }))
  ∧ (∀ (s : State) (fn : Fn) (n : Nat), s.pcie.link ≠ .down → s.boot.inReset = false → s.boot.recovery = false → s.boot.capsValid = false →
      s.pcie.perstRise = some n → s.stb < n + 2764800 → exec (.configRequest fn) s = .next ({ s with pcie := { s.pcie with answer := .retry } }))
  ∧ (∀ (s : State) (fn : Fn) (n : Nat), s.pcie.link ≠ .down → s.boot.inReset = false → s.boot.recovery = false → s.pcie.perstRise = some n →
      s.boot.capsValid = true ∨ n + 2764800 ≤ s.stb → exec (.configRequest fn) s = .next ({ s with pcie := { s.pcie with answer := .normal } }))

/-- Laurel's renewal falls due every 2,048 tk while the lease is granted, and is sent where the link is trained. A valid one moves the
expiry to 6,144 tk after it and is acknowledged; one with another epoch revokes with cause EPOCH_MISMATCH. The acknowledgement moves
Laurel's own expiry, and one that ends Laurel's stop lets held records be written; 16 tk before the expiry Laurel stops. An expiry passed
revokes with cause MISSED_RENEWAL: the state REVOKED, the line low, one revocation more. On the revoke Laurel latches the ring tails, takes
back what a killed command installed, completes the contested commands, discards the steps and reports quiet; the quiet report, or a request
to be granted, grants the next epoch; after a FATAL or a late quiet report Laurel is reset. A relinquish in CTRL's entry sets RELINQUISHED
with no cause, one with another epoch revokes. That a new grant counts as an acknowledgement is the model's choice
(notes/assumptions/66.md). (Derived: 01_gorse_laurel_and_the_cascade.md R18, 01_gorse_laurel_and_the_cascade.md R19,
01_gorse_laurel_and_the_cascade.md R20, 01_gorse_laurel_and_the_cascade.md R21, 01_gorse_laurel_and_the_cascade.md R24,
01_gorse_laurel_and_the_cascade.md R25, 01_gorse_laurel_and_the_cascade.md Table 1.8.) -/
def Obligations.CustodyLease : Prop :=
  (∀ (s : State), laurelRuns s = true → s.custody.state = .granted → s.custody.line = true → s.custody.quiescing = false → s.custody.renewAt ≤ ctrlStamp s →
      exec .renewalDue s = .next ({ s with custody := { s.custody with renewAt := s.custody.renewAt + 2048, renewals := if s.dlink.trained then s.custody.renewals ++ [s.custody.epoch] else s.custody.renewals } }))
  ∧ (∀ (s u : State) (epoch : U32), u = sweep s → gorseRuns u = true → u.fault.haltGorse = false → u.custody.state = .granted → u.dlink.trained = true
      → epoch = u.custody.epoch → u.stb ≤ u.custody.expiry → exec (.renewal epoch) s = .next (settle
      ({ u with custody := { u.custody with expiry := u.stb + 6144, renewals := u.custody.renewals.drop 1, acks := u.custody.acks ++ [u.stb + 6144] } })))
  ∧ (∀ (s u : State) (epoch : U32), u = sweep s → gorseRuns u = true → u.fault.haltGorse = false → u.custody.state = .granted → u.dlink.trained = true
      → epoch ≠ u.custody.epoch → exec (.renewal epoch) s = .next (settle
      ({ u with custody := { u.custody with state := .revoked, cause := 1, revocations := min (u.custody.revocations + 1) (2 ^ 24 - 1), line := false, quiescing := true, revokedAt := some u.stb, revokeSeen := false, quietSent := false, renewals := [], acks := [] } })))
  ∧ (∀ (s u x : State) (e : Nat), u = sweep s → u.boot.laurelReleased = true → u.dlink.trained = true → u.custody.acks.contains e = true → x =
      { u with custody := { u.custody with laurelExpiry := max u.custody.laurelExpiry e, acks := u.custody.acks.erase e, stopped := u.custody.stopped && !(u.custody.line && decide (ctrlStamp u + 16 < max u.custody.laurelExpiry e)) } } →
      exec (.acknowledgement e) s = .next (settle (if u.custody.stopped && !x.custody.stopped then wakeModelNow (flushHeld (flushHeld x .pf0) .pf1) else x)))
  ∧ (∀ (s u : State), u = sweep s → leaseHeld u = true → u.custody.laurelExpiry ≤ ctrlStamp u + 16 → exec .leaseGuard s = .next (settle
      ({ u with custody := { u.custody with stopped := true } })))
  ∧ (∀ (s u : State), u = sweep s → u.custody.state = .granted → u.custody.expiry ≤ u.stb → exec .leaseExpiry s = .next (settle
      ({ u with custody := { u.custody with state := .revoked, cause := 2, revocations := min (u.custody.revocations + 1) (2 ^ 24 - 1), line := false, quiescing := true, revokedAt := some u.stb, revokeSeen := false, quietSent := false, renewals := [], acks := [] } })))
  ∧ (∀ (s u : State) (n : Nat) (v x y z : State), u = sweep s → u.custody.state = .revoked → u.custody.revokedAt = some n → u.custody.revokeSeen = false
      → u.dlink.trained = true → u.boot.laurelReleased = true → v = { u with rings := u.rings.map (fun r => if r.enabled then { r with latched := some r.fetched } else r) } →
      x = endAll ((contested v).foldl undoInstall v) (contested v) .contested → y = forgetAll x (x.cmds.map (·.id)) → z =
      y.work.steps.foldl discardStep y → exec .revoke s = .next (settle
      ({ z with custody := { z.custody with revokeSeen := true, quietSent := true } })))
  ∧ (∀ (s u : State), u = sweep s → u.custody.state = .revoked → u.custody.quietSent = true → u.dlink.trained = true → u.custody.cause < 4 →
      u.fault.laurelFatal = false → u.fault.gorseFatal = false → exec .quiet s = .next (settle (grantLease u)))
  ∧ (∀ (s u : State), u = sweep s → u.custody.state = .revoked → u.custody.quietSent = true → u.dlink.trained = true → 4 ≤ u.custody.cause ∨
      u.fault.laurelFatal = true ∨ u.fault.gorseFatal = true → exec
      .quiet s = .next (settle (laurelReset u)))
  ∧ (∀ (s u : State) (n : Nat), u = sweep s → u.custody.state = .revoked → u.custody.revokedAt = some n → n + 4096 ≤ u.stb → exec .quietTimeout s =
      .next (settle (laurelReset u)))
  ∧ (∀ (s u : State), u = sweep s → u.custody.grantAsked = true → u.dlink.trained = true → u.custody.state ≠ .granted → u.custody.noReturn = false →
      gorseRuns u = true → u.fault.haltGorse = false → exec .grant s = .next (settle (grantLease u)))
  ∧ (∀ s : State, s.custody.heldWake = false → s.heldOut = [] → s.listen.stage3 = false → (grantLease s).custody.epoch = s.custody.epoch + 1 ∧
      (grantLease s).custody.state = .granted ∧ (grantLease s).custody.line = true ∧ (grantLease s).custody.expiry = s.stb + 6144)
  ∧ (∀ (s u : State) (epoch : U32), u = sweep s → u.custody.state = .granted → u.dlink.trained = true → epoch ≠ u.custody.epoch →
      exec (.relinquish epoch) s = .next (settle (revokeLease u 1)))
  ∧ (∀ (s u : State) (epoch : U32), u = sweep s → u.custody.state = .granted → u.dlink.trained = true → epoch = u.custody.epoch → (domOf u
      domCtrl).state = .entering → (domOf u domCtrl).entryAt + 4 ≤ u.stb → exec (.relinquish epoch) s = .next (settle
      ({ u with custody := { u.custody with state := .relinquished, line := false } })))

/-- A good flit clears its direction's replay count, and one of Laurel's brings its message, which revokes the lease where it disagrees with
the epoch, acts on what is Gorse's, or claims a domain in transition; a bad one, or one made bad by an injection, counts a replay, and the
eighth puts the link into retraining with a limit of 8,192 tk. An attempt that succeeds trains the link. The limit passed untrained raises
the FATAL of source 0x10 and revokes. A check message that differs from the mirror logs a fault and marks the mirror uncertain until the
exact value is loaded, after which it stands at the STB. A lost strobe is FATAL. NOT_BEFORE reached lets its packet start; a deadline passed
ends its command with the status of where it waits. The kinds of message are the model's reading (notes/assumptions/67.md). (Derived:
01_gorse_laurel_and_the_cascade.md R9, 01_gorse_laurel_and_the_cascade.md R20, 01_gorse_laurel_and_the_cascade.md Table 1.9,
02_sensor_time_and_order.md R32, 02_sensor_time_and_order.md R34, 02_sensor_time_and_order.md R36, 02_sensor_time_and_order.md R42,
02_sensor_time_and_order.md R43.) -/
def Obligations.DieLinkAndMirrors : Prop :=
  (∀ (s u : State) (k : LinkMsg), u = sweep s → u.dlink.trained = true → u.fault.haltLaurel = false → armed u 0x10 0 (fun _ => true) = none → exec
      (.flitReceived 0 { crcOk := true, msg := k }) s = .next (settle ({ u with dlink := { u.dlink with replaysGL := 0, seqGL := u.dlink.seqGL + 1 } })))
  ∧ (∀ (s u x : State) (k : LinkMsg), u = sweep s → u.dlink.trained = true → u.fault.haltLaurel = false → armed u 0x10 1 (fun _ => true) = none →
      x = { u with dlink := { u.dlink with replaysLG := 0, seqLG := u.dlink.seqLG + 1 } } →
      exec (.flitReceived 1 { crcOk := true, msg := k }) s = .next (settle (controlMessage x k)))
  ∧ (∀ (s : State), controlMessage s .data = s)
  ∧ (∀ (s : State) (e : U32), gorseRuns s = true → s.fault.haltGorse = false →
      controlMessage s (.control e) = if e = s.custody.epoch then s else revokeLease s 1)
  ∧ (∀ (s : State), gorseRuns s = true → s.fault.haltGorse = false → controlMessage s .gorseAct = revokeLease s 3)
  ∧ (∀ (s : State) (d : Nat), gorseRuns s = true → s.fault.haltGorse = false → d < 0x10 ∨ (domOf s d).state = .entering ∨ (domOf s d).state = .returning →
      controlMessage s (.domainClaim d) = revokeLease s 3)
  ∧ (∀ (s u x : State) (k : LinkMsg) (dir : Nat), u = sweep s → u.dlink.trained = true → u.fault.haltLaurel = false →
      armed u 0x10 dir (fun _ => true) = none → x = countUp (raise u (capture u 0x10 dir 0)) 0x0020 dir 1 → dir = 0 → x.dlink.replaysGL < 7 →
      exec (.flitReceived dir { crcOk := false, msg := k }) s = .next (settle ({ x with dlink := { x.dlink with replaysGL := x.dlink.replaysGL + 1 } })))
  ∧ (∀ (s u x : State) (k : LinkMsg) (dir : Nat), u = sweep s → u.dlink.trained = true → u.fault.haltLaurel = false →
      armed u 0x10 dir (fun _ => true) = none → x = countUp (raise u (capture u 0x10 dir 0)) 0x0020 dir 1 → dir = 1 → x.dlink.replaysLG < 7 →
      exec (.flitReceived dir { crcOk := false, msg := k }) s = .next (settle ({ x with dlink := { x.dlink with replaysLG := x.dlink.replaysLG + 1 } })))
  ∧ (∀ (s u x y : State) (k : LinkMsg) (dir : Nat), u = sweep s → u.dlink.trained = true → u.fault.haltLaurel = false →
      armed u 0x10 dir (fun _ => true) = none → x = countUp (raise u (capture u 0x10 dir 0)) 0x0020 dir 1 → dir < 2 →
      7 ≤ (if dir = 0 then x.dlink.replaysGL else x.dlink.replaysLG) →
      y = { x with dlink := { x.dlink with trained := false, limitAt := some (x.stb + 8192), limitDir := dir, replaysGL := 0, replaysLG := 0 } } →
      exec (.flitReceived dir { crcOk := false, msg := k }) s = .next (settle (raise y (capture x 0x10 dir 0))))
  ∧ (∀ (s u : State) (dir : Nat) (ok : Bool) (k : LinkMsg) (i : Injection), u = sweep s → u.dlink.trained = true → u.fault.haltLaurel = false →
      dir < 2 → armed u 0x10 dir (fun _ => true) = some i → i.bits = 1 → exec (.flitReceived dir { crcOk := ok, msg := k }) s = .next (settle (badFlit dir (some i) u)))
  ∧ (∀ (s u : State), u = sweep s → u.dlink.trained = false → u.boot.laurelReleased = true → exec (.retrainingAttempt true) s = .next (settle
      ({ u with dlink := { u.dlink with trained := true, limitAt := none, replaysGL := 0, replaysLG := 0 }, fault := { u.fault with healthAt := u.stb } })))
  ∧ (∀ (s u : State), u = sweep s → exec (.retrainingAttempt false) s = .next (settle (u)))
  ∧ (∀ (s u : State) (n : Nat) (x : State), u = sweep s → u.dlink.limitAt = some n → n ≤ u.stb → u.dlink.trained = false → x =
      { u with dlink := { u.dlink with limitAt := none }, fault := { u.fault with firstSource := if u.fault.firstSource = 0 then 0x10 else u.fault.firstSource } }
      → exec .retrainLimit s = .next (settle (revokeLease (laurelFatalWith x (capture x 0x10 x.dlink.limitDir 2)) 4)))
  ∧ (∀ (s u : State) (d : Nat), u = sweep s → u.dlink.trained = true → domOn u d = true → 0x10 ≤ d → u.stb % 4096 = 0 → stampOf u d ≠ u.stb →
      exec (.checkMessage d u.stb) s = .next (settle (setMirror (raise u (capture u 0x20 d 0)) { mirrorOf u d with uncertain := true })))
  ∧ (∀ (s u : State) (d : Nat), u = sweep s → stampOf u d = u.stb → exec (.checkMessage d u.stb) s = .next (settle u))
  ∧ (∀ (s u : State) (d v : Nat), u = sweep s → (mirrorOf u d).uncertain = true → u.dlink.trained = true → v ≤ u.stb →
      exec (.exactReload d v) s = .next (settle (setMirror u { mirrorOf u d with offset := 0, uncertain := false })))
  ∧ (∀ (s u : State) (d : Nat), u = sweep s → domOn u d = true → 0x10 ≤ d → domPresent u.fuse.part d = true → exec (.strobeLost d) s = .next (settle
      (laurelFatalWith u (capture u 0x1F d 2))))
  ∧ (∀ (s u : State) (id : Nat), u = sweep s → nbReached s id = true → exec (.notBeforeReached id) s = .next (settle (u)))
  ∧ (∀ (s : State) (id : Nat) (c : Cmd), cmdOf s id = some c → laurelRuns s = true → overdue s c = true → exec (.deadlinePassed id) s = .next (settle
      (endCmd s c (deadlineStatus c.phase))))
  ∧ (∀ s : State, s.cmds = [] → ∀ id, exec (.deadlinePassed id) s = .next (settle s))

/-- A health message renews the time of the last one, and with Laurel not halted it ends a Laurel FATAL. 3,072 tk without one is the FATAL
of source 0x1E; 3,072 tk without a kick is the FATAL of source 0x1D or 0x1C. A forwarded capture is logged, and revokes the lease when its
class is FATAL. A FATAL or INTEGRITY event of a source that has that class raises it. A low rail or a clock out of range raises source 0x1A
or 0x18 on Laurel, 0x1B or 0x19 on Gorse. Laurel's and Gorse's captures carry their source, instance and class. (Derived: 14_faults.md R330,
14_faults.md R332, 14_faults.md R335, 14_faults.md R336, 14_faults.md R350, 20_balls_and_electrical.md R421, 20_balls_and_electrical.md
R426.) -/
def Obligations.FaultReports : Prop :=
  (∀ (s : State), s.boot.laurelReleased = true → s.dlink.trained = true → domOn s domCtrl = true → s.fault.haltLaurel = true → exec .healthMessage s =
      .next ({ s with fault := { s.fault with healthAt := s.stb } }))
  ∧ (∀ (s : State), s.boot.laurelReleased = true → s.dlink.trained = true → domOn s domCtrl = true → s.fault.haltLaurel = false → s.fault.gorseFatal =
      false → s.fault.integrity = false → exec .healthMessage s = .next
      ({ s with fault := { s.fault with healthAt := s.stb, laurelFatal := false, suppressFrom := none } }))
  ∧ (∀ (s u : State), u = sweep s → healthOwed u = true → u.fault.laurelFatal = false → u.fault.healthAt + 3072 ≤ u.stb → exec .healthLost s = .next
      (settle (laurelFatalWith u (capture u 0x1E 0 2))))
  ∧ (∀ (s u : State) (x : State), u = sweep s → gorseRuns u = true → u.fault.kickGorse + 3072 ≤ u.stb → x =
      { u with fault := { u.fault with gorseWdt := true } } → exec (.watchdogExpiry .gorse) s = .next (settle (gorseFatalWith x (capture x 0x1C 0
      2))))
  ∧ (∀ (s u : State), u = sweep s → laurelRuns u = true → u.custody.state ≠ .relinquished → u.fault.kickCp0 + 3072 ≤ u.stb → exec (.watchdogExpiry
      .cp0) s = .next (settle (laurelFatalWith u (capture u 0x1D 0 2))))
  ∧ (∀ (s u : State), u = sweep s → laurelRuns u = true → u.custody.state ≠ .relinquished → u.fault.kickCp1 + 3072 ≤ u.stb → exec (.watchdogExpiry
      .cp1) s = .next (settle (laurelFatalWith u (capture u 0x1D 1 2))))
  ∧ (∀ (s u : State) (c : Capture) (rest : List Capture), u = sweep s → u.fault.forward = c :: rest → u.dlink.trained = true → u.boot.inReset = false
      → c.cls ≠ 2 → exec .captureForward s = .next (settle (finishInjections (logCapture { u with fault := { u.fault with forward := rest } } c)
      c.source c.inst)))
  ∧ (∀ (s u : State) (c : Capture) (rest : List Capture), u = sweep s → u.fault.forward = c :: rest → u.dlink.trained = true → u.boot.inReset = false
      → c.cls = 2 → exec .captureForward s = .next (settle (revokeLease (finishInjections (logCapture
      { u with fault := { u.fault with forward := rest } } c) c.source c.inst) 4)))
  ∧ (∀ (s u : State) (src inst : Nat), u = sweep s → u.boot.laurelReleased = true → src ∈ [0x02, 0x04, 0x0B, 0x10, 0x18, 0x1A, 0x1D, 0x1E, 0x1F] →
      inst < 256 → exec (.laurelFatal src inst) s = .next (settle (laurelFatalWith u (capture u src inst 2))))
  ∧ (∀ (s u : State) (src inst : Nat), u = sweep s → gorseRuns u = true → src ∈ [0x03, 0x04] → inst < 256 → exec (.gorseFatal src inst) s = .next
      (settle (gorseFatalWith u (capture u src inst 2))))
  ∧ (∀ (s u x : State) (inst : Nat), u = sweep s → gorseRuns u = true → inst < 256 → x = { u with fault := { u.fault with gorseWdt := true } } →
      exec (.gorseFatal 0x1C inst) s = .next (settle (gorseFatalWith x (capture x 0x1C inst 2))))
  ∧ (∀ (s u : State) (src inst : Nat), u = sweep s → u.boot.inReset = false → src ∈ [0x03, 0x04, 0x0D, 0x19, 0x1B, 0x22, 0x23, 0x24] → inst < 256 →
      exec (.integrityFault src inst) s = .next (settle (integrityWith u (capture u src inst 3))))
  ∧ (∀ (s u : State) (rail : Rail), u = sweep s → u.boot.inReset = false → rail = .vddAon ∨ rail = .vddGorse ∨ rail = .vddSram → exec
      (.voltageMonitorTrip rail) s = .next (settle (integrityWith u (capture u 0x1B 0 3))))
  ∧ (∀ (s u : State) (rail : Rail), u = sweep s → u.boot.inReset = false → rail ≠ .vddAon → rail ≠ .vddGorse → rail ≠ .vddSram → exec
      (.voltageMonitorTrip rail) s = .next (settle (laurelFatalWith u (capture u 0x1A 0 2))))
  ∧ (∀ (s u : State) (clk : ClockMon), u = sweep s → u.boot.inReset = false → clk = .crystal ∨ clk = .gorse → exec (.clockMonitorTrip clk) s = .next
      (settle (integrityWith u (capture u 0x19 0 3))))
  ∧ (∀ (s u : State), u = sweep s → u.boot.inReset = false → u.boot.laurelReleased = true → exec (.clockMonitorTrip .laurel) s = .next (settle
      (laurelFatalWith u (capture u 0x18 0 2))))
  ∧ (∀ (s : State) (src inst cls : Nat), (capture s src inst cls).source = src ∧ (capture s src inst cls).inst = inst ∧ (capture s src inst cls).cls =
      cls)

/-- A Laurel FATAL sets FATAL_LAUREL and halts Laurel; one that Gorse finds revokes a granted lease at once. A Gorse FATAL halts Gorse,
revokes a granted lease with cause 5 and keeps Laurel from being granted it again. An INTEGRITY fault closes the gates, wipes the audio and
image memories and takes the custody line low with no lease. A revoke of a granted lease sets REVOKED with its cause, counts it and takes
the line low; of another it changes nothing. (Derived: 14_faults.md R332, 14_faults.md R335, 14_faults.md R336,
01_gorse_laurel_and_the_cascade.md R20, 01_gorse_laurel_and_the_cascade.md R21.) -/
def Obligations.FatalFaultsHaltTheirDie : Prop :=
  (∀ (s : State) (c : Capture), (laurelFatalWith s c).fault.laurelFatal = true ∧ (laurelFatalWith s c).fault.haltLaurel = true)
  ∧ (∀ (s : State) (c : Capture), c.laurel = false → (laurelFatalWith s c).custody.state ≠ .granted)
  ∧ (∀ (s : State) (c : Capture), (gorseFatalWith s c).fault.gorseFatal = true ∧ (gorseFatalWith s c).fault.haltGorse = true ∧ (gorseFatalWith s
      c).custody.noReturn = true ∧ (gorseFatalWith s c).custody.state ≠ .granted)
  ∧ (∀ (s : State) (c : Capture), (integrityWith s c).custody.state = .none ∧ (integrityWith s c).custody.line = false ∧ (integrityWith s c).pcie.link =
      s.pcie.link)
  ∧ (∀ (s x y : State) (c : Capture), x = raiseAt (suppressAlive s) c.source c.inst c → y = wipeCams (wipeAudio
      { x with fault := { x.fault with integrity := true } }) → integrityWith s c =
      { laurelReset y with pcie := y.pcie, custody := { (laurelReset y).custody with state := .none, line := false, heldWake := false } })
  ∧ (∀ s : State, (wipeAudio s).listen.gateOpen = false ∧ (wipeAudio s).listen.frames = [] ∧ (wipeAudio s).listen.candidate = none ∧ (wipeCams
      s).cam0.gateOpen = false ∧ (wipeCams s).cam0.frames = [] ∧ (wipeCams s).cam1.gateOpen = false ∧ (wipeCams s).cam1.frames = [])
  ∧ (∀ (s : State) (cause : Nat), s.custody.state = .granted → (revokeLease s cause).custody.state = .revoked ∧ (revokeLease s cause).custody.cause =
      cause
     ∧ (revokeLease s cause).custody.revocations = min (s.custody.revocations + 1) 16777215 ∧ (revokeLease s cause).custody.line = false)
  ∧ (∀ (s : State) (cause : Nat), s.custody.state ≠ .granted → revokeLease s cause = s)

/-- A retired tile, or a row of a tile with a row to spare, logs source 0x28 and moves the map generation on; a tile command that runs on
the unit is run again. A scrubbed line with one error logs source 0x04 as CORRECTED with the stamp of its region; with two it is CONTAINED
in a buffer, FATAL in Laurel's control or Gorse's memories, INTEGRITY at the gate boundary and in ROOT, and a coppice buffer's line is
poisoned. At 100 degrees the cap is set, below 95 it is cleared, between them it stays; a junction temperature outside the part's range is
outside the model and stops it. (Derived: 01_gorse_laurel_and_the_cascade.md R12, 14_faults.md R338, 15_power_domains.md R364, 00_scope.md
R5.) -/
def Obligations.RetirementScrubAndThermalCap : Prop :=
  (∀ (s u : State) (tile : Nat), u = sweep s → gorseRuns u = true → u.fault.haltGorse = false → coppicePresent u (tile / 10) = true → (copTiles u
      (tile / 10)).retired.contains tile = false → exec (.tileRetirement tile false) s = .next (settle (bumpMap (raise (retireTile u tile) (capture u
      0x28 tile 0)))))
  ∧ (∀ (s u y : State) (tile : Nat) (x : CopTiles), u = sweep s → gorseRuns u = true → u.fault.haltGorse = false → coppicePresent u (tile / 10) = true →
      x = copTiles u (tile / 10) → x.retired.contains tile = false → (x.rowsUsed.filter (· == tile)).length < 2 →
      y = (match x.logical.findIdx? (· == tile) with | some n => rerunOn u (tile / 10) n | none => u) → exec (.tileRetirement tile true) s = .next
      (settle (bumpMap (raise (setCopTiles y (tile / 10) { x with rowsUsed := x.rowsUsed ++ [tile] }) (capture y 0x28 tile 0)))))
  ∧ (∀ (s u : State) (unit addr : Nat), u = sweep s → scrubRuns u .tileBuffer unit = true → u.fault.integrity = false →
      exec (.sramScrub .tileBuffer unit 1 addr) s = .next (settle (raiseAt u 0x04 unit
      { (capture u 0x04 unit 0).inRegion u (domTile unit) with address := BitVec.ofNat 64 (addr % 2 ^ 60), device := false, tenant1 := t1Coppice u (unit / 10) })))
  ∧ (∀ (s u : State) (unit addr : Nat), u = sweep s → scrubRuns u .coppiceBuffer unit = true → u.fault.integrity = false →
      exec (.sramScrub .coppiceBuffer unit 1 addr) s = .next (settle (raiseAt u 0x04 unit
      { (capture u 0x04 unit 0).inRegion u (domCop unit) with address := BitVec.ofNat 64 (addr % 2 ^ 60), device := false, tenant1 := t1Coppice u unit })))
  ∧ (∀ (s u : State) (reg : SramRegion) (unit addr : Nat), u = sweep s → scrubRuns u reg unit = true → u.fault.integrity = false → reg ≠ .tileBuffer →
      reg ≠ .coppiceBuffer → exec (.sramScrub reg unit 1 addr) s = .next (settle (raiseAt u 0x04 0
      { (capture u 0x04 0 0).inRegion u (if reg = .laurelControl then domCtrl else 0x00) with address := BitVec.ofNat 64 (addr % 2 ^ 60), device := true, tenant1 := false })))
  ∧ (∀ (s u : State) (unit addr : Nat) (x : State), u = sweep s → scrubRuns u .coppiceBuffer unit = true → u.fault.integrity = false → x =
      { u with store := { u.store with poison1 := u.store.poison1 ++ [(unit * 33554432 + addr % 33554432) / 64] } } → exec (.sramScrub .coppiceBuffer
      unit 2 addr) s = .next (settle (raiseAt x 0x04 unit
      { (capture x 0x04 unit 1).inRegion x (domCop unit) with address := BitVec.ofNat 64 (addr % 2 ^ 60), device := false, tenant1 := t1Coppice x unit })))
  ∧ (∀ (s u : State) (unit addr : Nat), u = sweep s → scrubRuns u .tileBuffer unit = true → u.fault.integrity = false → exec (.sramScrub .tileBuffer
      unit 2 addr) s = .next (settle (raiseAt u 0x04 unit
      { (capture u 0x04 unit 1).inRegion u (domTile unit) with address := BitVec.ofNat 64 (addr % 2 ^ 60), device := false, tenant1 := t1Coppice u (unit / 10) })))
  ∧ (∀ (s u : State) (unit addr : Nat), u = sweep s → scrubRuns u .laurelControl unit = true → u.fault.integrity = false → exec (.sramScrub
      .laurelControl unit 2 addr) s = .next (settle (laurelFatalWith u
      { (capture u 0x04 0 2).inRegion u domCtrl with address := BitVec.ofNat 64 (addr % 2 ^ 60), device := true, tenant1 := false })))
  ∧ (∀ (s u : State) (unit addr : Nat), u = sweep s → scrubRuns u .gorse unit = true → u.fault.integrity = false → exec (.sramScrub .gorse unit 2
      addr) s = .next (settle (gorseFatalWith u
      { (capture u 0x04 0 2).inRegion u 0x00 with address := BitVec.ofNat 64 (addr % 2 ^ 60), device := true, tenant1 := false })))
  ∧ (∀ (s u : State) (reg : SramRegion) (unit addr : Nat), u = sweep s → scrubRuns u reg unit = true → u.fault.integrity = false → reg = .gateBoundary
      ∨ reg = .rootEngine → exec (.sramScrub reg unit 2 addr) s = .next (settle (integrityWith u
      { (capture u 0x04 0 3).inRegion u 0x00 with address := BitVec.ofNat 64 (addr % 2 ^ 60), device := true, tenant1 := false })))
  ∧ (∀ (s : State) (t : Int), s.boot.inReset = false → (if s.fuse.gradeE then -40 else -10) ≤ t → t ≤ 105 → 100 ≤ t → exec (.thermalCap t) s = .next
      ({ s with power := { s.power with cap := true } }))
  ∧ (∀ (s : State) (t : Int), s.boot.inReset = false → (if s.fuse.gradeE then -40 else -10) ≤ t → t < 95 → exec (.thermalCap t) s = .next
      ({ s with power := { s.power with cap := false } }))
  ∧ (∀ (s : State) (t : Int), s.boot.inReset = false → 95 ≤ t → t < 100 → exec (.thermalCap t) s = .next (s))
  ∧ (∀ (s : State) (t : Int), s.boot.inReset = false → 105 < t ∨ t < (if s.fuse.gradeE then -40 else -10) → exec (.thermalCap t) s = .fault
      .junctionOutOfRange)

/-- PRIV_N low sets PRIVACY, forces the sensor domains OFF, withdraws a wake not yet open, wipes the audio and image memories, kills
convolutions over frames and ends the commands it blocks with PRIVACY_BLOCK; it is released after it has read high for 61,440 tk. A TALK_N
press 15,360 tk after its edge is counted under PRIVACY, is a wake at the next boundary when armed, and is otherwise only noted; its release
with the gate open marks the frame in which it falls END_OF_TURN. At a boundary the frame is recorded, the stages run, reads are served, a
gate due to close closes and held changes apply. A score at S1_THRESHOLD opens a candidate under the policy in force; a second stage at its
thresholds makes it a wake with the direction found, one below drops it, and 6,144,000 tk end it. The gate opens for a decided wake over
frames from the release point on; when RELEASE_MAX has elapsed it becomes due to close. (Derived: 03_listening.md R51, 03_listening.md R53,
03_listening.md R54, 03_listening.md R55, 03_listening.md R59, 03_listening.md R60, 03_listening.md R62, 03_listening.md R63,
03_listening.md R65, 03_listening.md R66, 03_listening.md R67.) -/
def Obligations.ListeningEvents : Prop :=
  (∀ (s u : State), u = sweep s → u.boot.inReset = true → exec .privNLow s = .next (settle { u with pins := { u.pins with privN := false } }))
  ∧ (∀ (s u x y z : State), u = sweep s → u.boot.inReset = false →
      x = zeroStores (wipeAudio (withdrawWake (forceSensors { u with listen := { u.listen with priv := true, privLowAt := u.stb, privReturn := false } }))) →
      y = markReads { x with cam0 := privCam x.cam0, cam1 := privCam x.cam1 } →
      z = killImages y ((y.cmds.filter (fun c => readsFrames 0 c || readsFrames 1 c)).map (·.id)) →
      exec .privNLow s = .next (settle (endAll z ((z.cmds.filter privEnds).map (·.id)) .privacyBlock)))
  ∧ (∀ (s u : State), u = sweep s → u.boot.inReset = false → u.listen.priv = true → u.listen.privLowAt + 61440 ≤ u.stb → exec .privNRelease s = .next
      (settle { u with pins := { u.pins with privN := true }, listen := { u.listen with priv := false, privReturn := true, privLowAt := u.stb } }))
  ∧ (∀ (s u : State), u = sweep s → u.boot.inReset = false → (u.listen.priv = false ∨ u.stb < u.listen.privLowAt + 61440) →
      exec .privNRelease s = .next (settle u))
  ∧ (∀ (s u : State) (t : Nat), u = sweep s → u.boot.inReset = false → t + 15360 ≤ u.stb → u.pins.talkN = true → u.listen.priv = true → exec
      (.talkNPress t) s = .next (settle
      { u with pins := { u.pins with talkN := false }, listen := { u.listen with privPresses := min (u.listen.privPresses + 1) 65535 } }))
  ∧ (∀ (s u : State) (t : Nat), u = sweep s → u.boot.inReset = false → t + 15360 ≤ u.stb → u.pins.talkN = true → u.listen.priv = false →
      u.listen.armed.getLsbD 1 = true → exec (.talkNPress t) s = .next (settle (wake { u with pins := { u.pins with talkN := false } } .talk
      (boundaryAfter t) u.listen.policy 0xFFFF)))
  ∧ (∀ (s u : State) (t : Nat), u = sweep s → u.boot.inReset = false → t + 15360 ≤ u.stb → u.pins.talkN = true → u.listen.priv = false →
      u.listen.armed.getLsbD 1 = false → exec (.talkNPress t) s = .next (settle { u with pins := { u.pins with talkN := false } }))
  ∧ (∀ (s u : State) (t : Nat), u = sweep s → u.stb < t + 15360 → exec (.talkNPress t) s = .next (settle u))
  ∧ (∀ (s u : State) (t : Nat), u = sweep s → u.boot.inReset = false → t + 15360 ≤ u.stb → u.pins.talkN = false → u.listen.gateOpen = false → exec
      (.talkNRelease t) s = .next (settle { u with pins := { u.pins with talkN := true } }))
  ∧ (∀ (s u : State) (t f : Nat) (mark : List AudioFrame → List AudioFrame), u = sweep s → u.boot.inReset = false → t + 15360 ≤ u.stb →
      u.pins.talkN = false → u.listen.gateOpen = true → f = t / 30720 * 30720 →
      mark = (fun l => l.map (fun x => if x.stamp = f then { x with endOfTurn := true } else x)) →
      exec (.talkNRelease t) s = .next (settle
      { u with pins := { u.pins with talkN := true }, listen := { u.listen with frames := mark u.listen.frames, frames48 := mark u.listen.frames48, endOfTurnAt := if u.listen.frames.any (fun x => x.stamp == f) then u.listen.endOfTurnAt else some f } }))
  ∧ (∀ (s u : State) (a : AudioIn) (x y : State), u = sweep s → u.stb % 30720 = 0 → u.boot.inReset = false → u.listen.boundaryAt ≠ some u.stb → x =
      runStages a (recordFrame a { u with listen := { u.listen with boundaryAt := some u.stb } }) → y = closeAudio (serveAudio x) →
      exec (.audioFrameBoundary a) s = .next (settle (settleAudio (privCams (if listens y then applyHolds y else y)))))
  ∧ (∀ (s u : State) (a : AudioIn), u = sweep s → u.stb % 30720 ≠ 0 → exec (.audioFrameBoundary a) s = .next (settle u))
  ∧ (∀ (s u : State) (score : Nat) (x : State), u = sweep s → listens u = true → u.listen.priv = false → u.listen.stage1 = true → domOn u 0x04 = true →
      u.listen.candidate = none → u.listen.policy.s1Threshold ≤ score → x = raiseAudio
      { u with listen := { u.listen with candidate := some u.stb, candAt := u.stb, candPolicy := u.listen.policy, workArea := natLe 2 score } } →
      exec (.candidateOpen score) s = .next (settle (setAudioPins x (arrayMode x))))
  ∧ (∀ (s u : State) (score : Nat), u = sweep s → score < u.listen.policy.s1Threshold → exec (.candidateOpen score) s = .next (settle u))
  ∧ (∀ (s u : State) (ver spk t n d : Nat) (dir : Option Nat) (p : ListenPolicy), u = sweep s → u.listen.candidate = some n → listens u = true →
      domOn u 0x04 = true → t ≤ u.stb → u.stb ≤ t + 460800 → u.stb ≤ n + 6144000 → p = u.listen.candPolicy → p.s2Threshold ≤ ver →
      p.spkProfile = 0 ∨ p.spkThreshold ≤ spk → d = (if arrayHeard u then (match dir with | some d => if d < 360 then d else 0xFFFF | none => 0xFFFF) else 0xFFFF) →
      exec (.stage2Decision ver spk t dir) s = .next (settle
        (wake { u with listen := { u.listen with candidate := none, closedAt := some u.stb } } .phrase (boundaryAfter t) p d)))
  ∧ (∀ (s u : State) (ver spk t n : Nat) (dir : Option Nat) (p : ListenPolicy), u = sweep s → u.listen.candidate = some n → listens u = true →
      domOn u 0x04 = true → t ≤ u.stb → u.stb ≤ t + 460800 → u.stb ≤ n + 6144000 → p = u.listen.candPolicy →
      (ver < p.s2Threshold ∨ (p.spkProfile ≠ 0 ∧ spk < p.spkThreshold)) → exec (.stage2Decision ver spk t dir) s = .next (settle
      { u with listen := { u.listen with candidate := none, closedAt := some u.stb } }))
  ∧ (∀ (s u : State) (n : Nat), u = sweep s → u.listen.candidate = some n → n + 6144000 ≤ u.stb → exec .candidateTimeout s = .next (settle
      { u with listen := { u.listen with candidate := none, closedAt := some u.stb } }))
  ∧ (∀ (s u : State) (r : Nat), u = sweep s → u.listen.wakeDecided = some r → u.listen.priv = false → listens u = true → exec .gateOpen s = .next
      (settle { u with listen := { dropBefore r u.listen with gateOpen := true, wakeDecided := none, unread := r, gateSession := u.sess0.number } }))
  ∧ (∀ (s u : State), u = sweep s → u.listen.gateOpen = true → u.listen.release + 307200 * (if u.listen.wakePolicy.releaseMax = 0 then 300 else
      u.listen.wakePolicy.releaseMax) ≤ u.stb → exec .releaseMaxElapsed s = .next (settle { u with listen := { u.listen with closeDue := true } }))

/-- A wake with none under way takes the next wake ID, its source, its release point, its policy and the direction found, drops older frames
and requests the third stage; with one under way it only adds 1 to the extra wakes. At a boundary with no candidate open, and none closed on
its tick, a held LISTEN_POLICY becomes the policy and arms its sources, and completes with the boundary's stamp; a held WAKE_ARM whose
sources are the policy's arms them and completes. One that started while the open candidate was open waits, 6,144,000 tk at most. (Derived:
03_listening.md R56, 03_listening.md R60, 03_listening.md R61, 03_listening.md R63, 03_listening.md R69, 03_listening.md R70.) -/
def Obligations.WakesAndPoliciesTakeEffect : Prop :=
  (∀ (s : State) (src : WakeSource) (r d : Nat) (p : ListenPolicy), listens s = true → s.listen.priv = false → wakeUnderWay s = true →
      wake s src r p d = { s with listen := { s.listen with extraWakes := min (s.listen.extraWakes + 1) 65535 } })
  ∧ (∀ (s x : State) (src : WakeSource) (r d : Nat) (p : ListenPolicy), listens s = true → s.listen.priv = false → wakeUnderWay s = false → x =
      { s with listen := { dropBefore r s.listen with wakeId := s.listen.wakeId + 1, lastSource := src, wakePending := true, wakeDecided := some r, release := r, candidate := none, closedAt := if s.listen.candidate.isSome then some s.stb else s.listen.closedAt, wokeAt := some s.stb, stage3 := true, wakePolicy := p, direction := d, overMain := 0, over48 := 0, start48 := 0, endOfTurnAt := none, closeDue := false } }
      → wake s src r p d = requestStage3 (raiseAudio (assertPewake x)))
  ∧ (∀ (s : State) (c : Cmd), holdOver s c = true → c.op = .listenPolicy → applyHeld s c = complete
      { s with listen := { s.listen with policy := askedPolicy c, armed := (askedPolicy c).sources } } c .ok (natLe 8 s.stb))
  ∧ (∀ (s : State) (c : Cmd), holdOver s c = true → c.op = .wakeArm → arg c 25 1 &&& s.listen.policy.sources.toNat = arg c 25 1 →
      applyHeld s c = complete { s with listen := { s.listen with armed := BitVec.ofNat 3 (arg c 25 1) } } c .ok
        (zeroBytes 8 ++ natLe 2 s.listen.wakeId.toNat))
  ∧ (∀ (s : State) (c : Cmd), holdOver s c = false → applyHeld s c = s)
  ∧ (∀ (s : State) (c : Cmd), s.listen.candidate = none → s.listen.closedAt ≠ some s.stb → holdOver s c = true)
  ∧ (∀ (s : State) (c : Cmd) (t : Nat), s.listen.candidate = some t → s.listen.candAt ≤ c.startStamp → s.stb < c.startStamp + 6144000 →
      holdOver s c = false)

/-- A packet outside a frame, or of a type or channel that the port does not take, is discarded and counted; one whose header cannot be
corrected drops the remainder of the frame; a corrected header is counted; a line of an exposure and embedded data of the frame are taken. A
frame start on a channel the port does not name is discarded and counted; one of the first exposure's channel ends a frame still under way,
judges the image gate and begins a frame where the port still runs; of another channel it is only counted. A frame end ends the frame. Four
frame periods with no start are logged once. A trigger pulses on its phase. INIT_WAIT puts the initialisation list on the bus. A transfer
done takes the next entry of the list, or its setting; a failed setting is tried again twice and then fails with a fault. A presence score
below the threshold marks the person absent; one that reaches it asks for stage 2 where the port may release by itself and tenant 0 owns the
coppice. ABSENT_HOLD stops stage 1, and makes a gate that stage 2 opened due to close. (Derived: 04_looking.md R74, 04_looking.md R77,
04_looking.md R78, 04_looking.md R82, 04_looking.md R88, 04_looking.md R90, 04_looking.md R91, 04_looking.md R93, 04_looking.md R94,
02_sensor_time_and_order.md R37.) -/
def Obligations.CameraEvents : Prop :=
  (∀ (s u : State) (port : Nat) (k : CsiPacket) (x : Cam), u = sweep s → camRuns u port = true → x = camOf u port → x.armedRx = true →
      k.dataType ≠ 2 → k.dataType ≠ 3 → k.ecc ≠ .bad → x.inFrame = false →
      exec (.csi2Packet port k) s = .next (settle (setCam u port { x with discarded := x.discarded + 1 })))
  ∧ (∀ (s u : State) (port : Nat) (k : CsiPacket) (x : Cam), u = sweep s → camRuns u port = true → x = camOf u port → x.armedRx = true →
      k.dataType ≠ 2 → k.dataType ≠ 3 → k.ecc = .bad → exec (.csi2Packet port k) s = .next (settle (setCam u port
        (if x.inFrame then dropRemainder x else { x with discarded := x.discarded + 1 }))))
  ∧ (∀ (s u : State) (port i : Nat) (k : CsiPacket) (x y : Cam), u = sweep s → camRuns u port = true → x = camOf u port → x.armedRx = true →
      k.dataType ≠ 2 → k.dataType ≠ 3 → k.dataType ≠ 0x12 → k.ecc ≠ .bad → x.inFrame = true →
      y = (if k.ecc = .corrected then { x with eccCorrected := x.eccCorrected + 1 } else x) → k.dataType = x.cfg.dataType →
      (List.range x.cfg.exposures).find? (fun i => vcOf x i == k.vc) = some i →
      exec (.csi2Packet port k) s = .next (settle (setCam u port (takeLine u y i k))))
  ∧ (∀ (s u : State) (port : Nat) (k : CsiPacket) (x y : Cam), u = sweep s → camRuns u port = true → x = camOf u port → x.armedRx = true →
      k.dataType = 0x12 → k.ecc ≠ .bad → x.inFrame = true → y = (if k.ecc = .corrected then { x with eccCorrected := x.eccCorrected + 1 } else x) →
      vcOf x 3 = k.vc → exec (.csi2Packet port k) s = .next (settle (setCam u port (takeEmb y k))))
  ∧ (∀ (s u : State) (port : Nat) (k : CsiPacket) (x y : Cam), u = sweep s → camRuns u port = true → x = camOf u port → x.armedRx = true →
      k.dataType ≠ 2 → k.dataType ≠ 3 → k.ecc ≠ .bad → x.inFrame = true →
      y = (if k.ecc = .corrected then { x with eccCorrected := x.eccCorrected + 1 } else x) → (k.dataType = 0x12 ∧ vcOf x 3 ≠ k.vc) ∨ (k.dataType ≠ 0x12 ∧
        (k.dataType ≠ x.cfg.dataType ∨ (List.range x.cfg.exposures).find? (fun i => vcOf x i == k.vc) = none)) →
      exec (.csi2Packet port k) s = .next (settle (setCam u port { y with discarded := y.discarded + 1 })))
  ∧ (∀ (s u : State) (port vc : Nat) (ecc : HeaderEcc) (x : Cam), u = sweep s → camRuns u port = true → x = camOf u port → x.armedRx = true →
      vc < 4 → ecc ≠ .bad → (List.range x.cfg.exposures ++ [3]).any (fun i => vcOf x i == vc) = false →
      exec (.frameStart port { vc := vc, ecc := ecc }) s = .next (settle (updCam (updCam u port (fun x => shortEcc x ecc)) port
        (fun x => { x with discarded := x.discarded + 1 }))))
  ∧ (∀ (s u : State) (port vc : Nat) (x : Cam), u = sweep s → camRuns u port = true → x = camOf u port → x.armedRx = true → vc < 4 →
      exec (.frameStart port { vc := vc, ecc := .bad }) s = .next (settle (updCam u port (fun x => shortEcc x .bad))))
  ∧ (∀ (s u : State) (port vc : Nat) (ecc : HeaderEcc) (x : Cam), u = sweep s → camRuns u port = true → x = camOf u port → x.armedRx = true →
      vc < 4 → ecc ≠ .bad → (List.range x.cfg.exposures ++ [3]).any (fun i => vcOf x i == vc) = true → vc ≠ vcOf x 0 →
      exec (.frameStart port { vc := vc, ecc := ecc }) s = .next (settle (updCam (updCam u port (fun x => shortEcc x ecc)) port (fun x => countVc x vc))))
  ∧ (∀ (s u y z : State) (port vc : Nat) (ecc : HeaderEcc) (x : Cam), u = sweep s → camRuns u port = true → x = camOf u port → x.armedRx = true →
      vc < 4 → ecc ≠ .bad → (List.range x.cfg.exposures ++ [3]).any (fun i => vcOf x i == vc) = true → vc = vcOf x 0 →
      y = updCam u port (fun x => shortEcc x ecc) → z = gateAtStart (if x.inFrame then endFrame y port true else y) port →
      exec (.frameStart port { vc := vc, ecc := ecc }) s = .next (settle (if camRuns z port && (camOf z port).armedRx then
        beginNumbered (updCam z port (fun x => countVc x vc)) port else z)))
  ∧ (∀ (s u v : State) (port : Nat) (ecc : HeaderEcc), u = sweep s → camRuns u port = true → (camOf u port).armedRx = true → ecc ≠ .bad →
      v = updCam u port (fun x => shortEcc x ecc) → (camOf v port).inFrame = true →
      exec (.frameEnd port ecc) s = .next (settle (endFrame v port false)))
  ∧ (∀ (s u : State) (port : Nat), u = sweep s → camRuns u port = true → (camOf u port).armedRx = true →
      exec (.frameEnd port .bad) s = .next (settle (updCam u port (fun x => shortEcc x .bad))))
  ∧ (∀ (s u : State) (port : Nat), u = sweep s → camRuns u port = true → (camOf u port).armedRx = true → (camOf u port).stalled = false → (camOf u
      port).lastStart + ceilDiv (4 * 3072000) (max 1 (camOf u port).cfg.fpsMax) ≤ u.stb → exec (.streamStall port) s = .next (settle (raise (setCam u
      port { camOf u port with stalled := true }) (capture u 0x26 port 0))))
  ∧ (∀ (s u : State) (port : Nat) (x : CamConfig), u = sweep s → camRuns u port = true → x = (camOf u port).cfg → x.syncMode = 1 →
      u.stb % x.syncPeriod = x.syncPhase → exec (.cameraTrigger port) s = .next (settle
      { u with pins := if port = 0 then { u.pins with camSync0 := some u.stb } else { u.pins with camSync1 := some u.stb } }))
  ∧ (∀ (s u : State) (port n : Nat) (x : Cam), u = sweep s → camRuns u port = true → x = camOf u port → x.initAt = some n → n ≤ u.stb →
      exec (.initWait port) s = .next (settle (pumpBus (armAfterInit (setCam u port
      { x with initAt := none, initLeft := initEntries x.cfg.init.length x.cfg.init, initGo := some u.stb, initTries := 0 }) port))))
  ∧ (∀ (s u : State) (port : Nat) (ok late : Bool) (x : Cam) (e : CamInit) (rest : List CamInit), u = sweep s → camRuns u port = true →
      (camOf u port).onBus = true → x = { camOf u port with onBus := false } → x.initLeft = e :: rest →
      exec (.i2cTransferDone port ok late) s = .next (settle (pumpBus (armAfterInit (initTransfer u port x e rest ok) port))))
  ∧ (∀ (s u : State) (port : Nat) (ok late : Bool) (x : Cam) (w : CamWrite), u = sweep s → camRuns u port = true →
      (camOf u port).onBus = true → x = { camOf u port with onBus := false } → x.initLeft = [] → dueWrite x = some w →
      exec (.i2cTransferDone port ok late) s = .next (settle (pumpBus (armAfterInit (paramTransfer u port x w ok late) port))))
  ∧ (∀ (s : State) (port : Nat) (x : Cam) (w : CamWrite) (late : Bool), paramTransfer s port x w true late = finishParams (setCam s port
      { x with writes := x.writes.filter (fun y => decide (y ≠ w)), settings := x.settings ++ [{ kind := w.kind, value := w.value, frame := w.effect + b2n (lateNow x w late), paramId := w.paramId, cmd := w.cmd, seq := w.seq }], i2cOut := x.i2cOut ++ [i2cWrite x.cfg (settingReg x.cfg w.kind) (settingData x.cfg w.kind w.value)] }) port)
  ∧ (∀ (s : State) (port : Nat) (x : Cam) (w : CamWrite) (late : Bool), w.tries < 2 → paramTransfer s port x w false late = setCam s port
      { x with writes := x.writes.map (fun y => if y = w then { y with tries := y.tries + 1 } else y) })
  ∧ (∀ (s : State) (port : Nat) (x : Cam) (w : CamWrite) (late : Bool) (c : Cmd), 2 ≤ w.tries → cmdOf s w.cmd = some c →
      paramTransfer s port x w false late = finishParams (setCam (raise s (captureCmd s c 0x25 port 1)) port
      { x with writes := x.writes.filter (fun y => decide (y ≠ w)), failed := x.failed ++ [w.cmd] }) port)
  ∧ (∀ (s u : State) (port score att faces : Nat) (x : Cam), u = sweep s → camRuns u port = true → (camOf u port).stage1 = true →
      listens u = true → domOn u 0x04 = true → (camOf u port).presFrame.isSome = true → att ≤ 3 → faces ≤ 255 →
      x = { camOf u port with presFrame := none } → score < x.presenceThreshold → exec (.presenceScore port score att faces) s = .next (settle (setCam u port
      { x with presLow := some (x.presLow.getD u.stb), stage2 := false, attn := if 2 ≤ x.cascadeTop then 1 else 0, faces := 0 })))
  ∧ (∀ (s u v : State) (port score att faces : Nat) (x : Cam), u = sweep s → camRuns u port = true → (camOf u port).stage1 = true →
      listens u = true → domOn u 0x04 = true → (camOf u port).presFrame.isSome = true → att ≤ 3 → faces ≤ 255 →
      x = { camOf u port with presFrame := none } → x.presenceThreshold ≤ score → 2 ≤ x.cascadeTop → x.autoRelease = true →
      ownsCoppice u .pf0 x.attendCoppice = true → v = setCam u port { x with presLow := none, stage2 := true, attn := if attends u x then att else 0, faces := if attends u x then faces else 0, openDue := x.openDue || !x.gateOpen || x.closeDue, openDueStage2 := if x.openDue then x.openDueStage2 else true } →
      exec (.presenceScore port score att faces) s = .next (settle ((attendDoms (wantGroups v (groupsOf v .pf0)) x).foldl
        (fun s d => demandDom s d 0x00 0x06) (wantGroups v (groupsOf v .pf0)))))
  ∧ (∀ (s u : State) (port score att faces : Nat) (x : Cam), u = sweep s → camRuns u port = true → (camOf u port).stage1 = true →
      listens u = true → domOn u 0x04 = true → (camOf u port).presFrame.isSome = true → att ≤ 3 → faces ≤ 255 →
      x = { camOf u port with presFrame := none } → x.presenceThreshold ≤ score →
      (x.cascadeTop < 2 ∨ x.autoRelease = false ∨ ownsCoppice u .pf0 x.attendCoppice = false) →
      exec (.presenceScore port score att faces) s = .next (settle (setCam u port { x with presLow := none })))
  ∧ (∀ (s u : State) (port score att faces : Nat), u = sweep s → camRuns u port = true → (camOf u port).stage1 = false → exec (.presenceScore port
      score att faces) s = .next (settle u))
  ∧ (∀ (s u v : State) (port : Nat) (x : Cam), u = sweep s → camRuns u port = true → x = camOf u port → x.stage1 = true →
      heldFor u x x.motionLow = true → x.gateOpen = false → v = setCam u port { x with stage1 := false, stage2 := false, attn := 0, faces := 0, presTake := false, presFrame := none } →
      exec (.absentHold port) s = .next (settle (if audioWant v 0x04 ≠ .on ∧ (domOf v 0x04).state ≠ .off then cascadeState v 0x04 (audioWant v 0x04) else v)))
  ∧ (∀ (s u : State) (port : Nat) (x : Cam), u = sweep s → camRuns u port = true → x = camOf u port → x.stage1 = false → x.gateOpen = true →
      x.gateStage2 = true → heldFor u x x.presLow = true → exec (.absentHold port) s = .next (settle (setCam u port { x with closeDue := true })))

/-- A scrubbed clean line only moves the scrub on, a corrected one is counted and above 1,024 retires its rank, an uncorrectable one is also
treated as a bad line, and one with an injection armed fires it. A migration unit copied first treats its bad lines, then moves the
watermark of its migration on, and after the last the spare takes the rank's addresses. A training check of a good channel changes nothing;
a bad rank is logged and retired, and drift starts the retraining. A channel whose retraining ends moves its data back. A window's end
clears the bank's activate table. A refreshed block's reads are forgotten. A failed block is retired with a free share of spare blocks left,
and below 10 per mille the channel becomes read-only. The end of clearing empties the moved units and PART_BUSY. (Derived:
12_memory_tiers.md R293, 12_memory_tiers.md R294, 12_memory_tiers.md R295, 12_memory_tiers.md R296, 12_memory_tiers.md R299,
12_memory_tiers.md R302, 13_tenants_and_trust.md R307.) -/
def Obligations.MemoryEvents : Prop :=
  (∀ (s u : State) (line : Nat), u = sweep s → groupRuns u (line * 64 / groupSize) = true → u.fault.injections = [] → exec (.patrolScrub line .clean)
      s = .next (settle ({ u with dram := { u.dram with scrubPos := line, corrected := if line < u.dram.scrubPos then [] else u.dram.corrected } })))
  ∧ (∀ (s u : State) (line : Nat) (x : State), u = sweep s → groupRuns u (line * 64 / groupSize) = true → u.fault.injections = [] → x =
      { u with dram := { u.dram with scrubPos := line, corrected := if line < u.dram.scrubPos then [] else u.dram.corrected } } → exec (.patrolScrub
      line .uncorrectable) s = .next (settle (badLine x (line * 64) 5 (capture x))))
  ∧ (∀ (s u x y z : State) (line ch r n : Nat) (l : List (Nat × Nat × Nat)), u = sweep s → groupRuns u (line * 64 / groupSize) = true →
      u.fault.injections = [] → x = { u with dram := { u.dram with scrubPos := line, corrected := if line < u.dram.scrubPos then [] else u.dram.corrected } } →
      ch = channelOf u (line * 64) → r = rankOf u (line * 64) → y = correctedLine x (line * 64) 5 (capture x) → l = y.dram.corrected →
      n = (match l.find? (fun e => e.1 == ch && e.2.1 == r) with | some e => e.2.2 + 1 | none => 1) →
      z = { y with dram := { y.dram with corrected := (ch, r, n) :: l.filter (fun e => !(e.1 == ch && e.2.1 == r)) } } →
      exec (.patrolScrub line .corrected) s = .next (settle (if 1024 < n then startRetire z ch r else z)))
  ∧ (∀ (s u x y : State) (line : Nat) (k : LineResult) (i : Injection), u = sweep s → groupRuns u (line * 64 / groupSize) = true →
      x = { u with dram := { u.dram with scrubPos := line, corrected := if line < u.dram.scrubPos then [] else u.dram.corrected } } →
      u.fault.injections.find? (fun i => i.target == 0x11 && i.unit == channelOf u (line * 64) && (i.address == 0 || offOf i.address.toNat / 64 == line)) =
      some i → y = fireInjection x i (captureAt (capture x 0x11 (channelOf u (line * 64)) (if i.bits = 1 then 0 else 1)) 2 (line * 64) 5) →
      exec (.patrolScrub line k) s = .next (settle (if i.bits = 1 then countUp y 0x0021 (line * 64 / groupSize) 1 else
      startRetire (poisonRange y (line * 64) 64) (channelOf u (line * 64)) (rankOf u (line * 64)))))
  ∧ (∀ (s u : State) (line : Nat) (r : LineResult), u = sweep s → groupRuns u (line * 64 / groupSize) = false → exec (.patrolScrub line r) s = .next
      (settle (u)))
  ∧ (∀ (s u : State) (ch rank : Nat) (m : Migration), u = sweep s → u.dram.migrations.find? (fun m => m.ch == ch && m.rank == rank) = some m →
      groupRuns u (ch / 8) = true → m.watermark + 1 ≠ 15872 → exec (.migrationUnit ch rank []) s = .next (settle
      ({ u with dram := { u.dram with migrations := u.dram.migrations.map (fun x => if x = m then { m with watermark := m.watermark + 1 } else x) } })))
  ∧ (∀ (s u : State) (ch rank : Nat) (m : Migration), u = sweep s → u.dram.migrations.find? (fun m => m.ch == ch && m.rank == rank) = some m →
      groupRuns u (ch / 8) = true → m.watermark + 1 = 15872 → exec (.migrationUnit ch rank []) s = .next (settle (migrationEnd u m)))
  ∧ (∀ (s u x : State) (ch rank : Nat) (bad : List Nat) (m : Migration), u = sweep s →
      u.dram.migrations.find? (fun m => m.ch == ch && m.rank == rank) = some m → groupRuns u (ch / 8) = true →
      x = (bad.filter (fun l => channelOf u (l * 64) == ch && rankOf u (l * 64) == rank && unitOfRank u (l * 64) == m.watermark)).foldl
      (fun s l => badLine s (l * 64) 0 (capture s)) u → exec (.migrationUnit ch rank bad) s = .next (settle (if m.watermark + 1 = 15872 then
      migrationEnd x m else { x with dram := { x.dram with migrations := x.dram.migrations.map (fun y => if y = m then { m with watermark := m.watermark + 1 } else y) } })))
  ∧ (∀ (s u : State) (ch : Nat), u = sweep s → exec (.trainingCheck ch none false) s = .next (settle (u)))
  ∧ (∀ (s u : State) (ch r : Nat), u = sweep s → groupRuns u (ch / 8) = true → ch < 32 → r < 2 → exec (.trainingCheck ch (some r) false) s = .next
      (settle (startRetire (raise u (capture u 0x12 ch 0)) ch r)))
  ∧ (∀ (s u x : State) (ch r : Nat), u = sweep s → groupRuns u (ch / 8) = true → ch < 32 → r < 2 → x = startRetire (raise u (capture u 0x12 ch 0)) ch r →
      exec (.trainingCheck ch (some r) true) s = .next (settle (startRetraining (raise x (capture x 0x12 ch 0)) ch)))
  ∧ (∀ (s u : State) (ch : Nat), u = sweep s → groupRuns u (ch / 8) = true → ch < 32 → exec (.trainingCheck ch none true) s = .next (settle
      (startRetraining (raise u (capture u 0x12 ch 0)) ch)))
  ∧ (∀ (s u : State) (ch i : Nat), u = sweep s → (List.range 2).find? (fun i => (spareOf u i).retraining && (spareOf u i).rank0 == some (ch, 0)) =
      some i → u.dram.migrations.any (fun m => m.ch == ch && m.retraining) = false → exec (.retrainingDone ch) s = .next (settle
      ({ u with dram := { u.dram with migrations := u.dram.migrations ++ [{ ch := ch, rank := 0, spare := i, spareRank := 0, retraining := true, back := true }] } })))
  ∧ (∀ (s : State) (ch bank : Nat), exec (.disturbWindow ch bank) s = .next
      ({ s with dram := { s.dram with rows := s.dram.rows.filter (fun r => !(r.ch == ch && r.bank == bank)) } }))
  ∧ (∀ (s : State) (ch block : Nat), nandPresent s ch = true → (nandCh s ch).inService = true → exec (.readRefresh ch block) s = .next (updNand s ch
      (fun x => { x with reads := x.reads.filter (fun r => r.1 != block) })))
  ∧ (∀ (s u : State) (ch block left : Nat) (x : State), u = sweep s → nandPresent u ch = true → (nandCh u ch).inService = true → (nandCh u
      ch).retired.contains block = false → left = min (nandCh u ch).sparePermille (Config.freeNat u.freeCtr) → 10 ≤ left → x = updNand (bumpFree u) ch
      (fun x => { x with retired := x.retired ++ [block], sparePermille := left }) → exec (.programFailure ch block) s = .next (settle (x)))
  ∧ (∀ (s u : State) (ch block left : Nat) (x : State), u = sweep s → nandPresent u ch = true → (nandCh u ch).inService = true → (nandCh u
      ch).retired.contains block = false → (nandCh u ch).readOnly = false → left = min (nandCh u ch).sparePermille (Config.freeNat u.freeCtr) → left <
      10 → x = updNand (bumpFree u) ch (fun x => { x with retired := x.retired ++ [block], sparePermille := left, readOnly := true }) → exec
      (.programFailure ch block) s = .next (settle (bumpMap (raise x (capture x 0x15 ch 0)))))
  ∧ (∀ (s u : State) (x : State), u = sweep s → u.regs.clearing ≠ 0 → u.boot.inReset = false → x = (maskList (bits u.regs.clearing.toNat 11 8)).foldl
      clearNand ((maskList (bits u.regs.clearing.toNat 7 4)).foldl clearGroup ((maskList (u.regs.clearing.toNat % 16)).foldl clearCoppice u)) → exec
      .partitionClearDone s = .next (settle ({ x with regs := { x.regs with clearing := 0 } })))

/-- A busy edge marks the domain busy, undoes a later expiry and demands it; an idle edge starts the timers from its stamp. An expired timer
within the ceiling is noted, and 8 tk later the entry starts, or is refused with the link untrained. 8 tk into the entry the clocks stop,
and CTRL gives up a granted lease there. The stopped domain completes the entry in RET or OFF, and with it the command that asked for it. A
return completed puts the domain ON, on Laurel with its mirror set to coarse time, and at the listen core with the look-back of a stage 1
that waits; retained firmware with another digest is reported and loaded again. (Derived: 15_power_domains.md R353, 15_power_domains.md
R355, 15_power_domains.md R358, 01_gorse_laurel_and_the_cascade.md R16, 01_gorse_laurel_and_the_cascade.md R24, 02_sensor_time_and_order.md
R36.) -/
def Obligations.PowerEvents : Prop :=
  (∀ (s u : State) (d t : Nat) (k : Demand), u = sweep s → gorseRuns u = true → domPresent u.fuse.part d = true → t ≤ u.stb → d < 0x10 ∨
      u.dlink.trained = true → exec (.busyEdge d t k) s = .next (settle (demandDom (updDom u d (fun x =>
      { x with busy := true, expiredAt := match x.expiredAt with | some e => if t ≤ e then none else some e | none => none })) d (demandOf k).1
      (demandOf k).2)))
  ∧ (∀ (s u : State) (d t : Nat) (k : Demand), u = sweep s → u.stb < t → exec (.busyEdge d t k) s = .next (settle (u)))
  ∧ (∀ (s u : State) (d t : Nat), u = sweep s → gorseRuns u = true → domPresent u.fuse.part d = true → t ≤ u.stb → d < 0x10 ∨ u.dlink.trained = true →
      exec (.idleEdge d t) s = .next (settle (updDom u d (fun x => { x with busy := false, idleAt := t, expiredAt := none }))))
  ∧ (∀ (s u : State) (d n t : Nat), u = sweep s → gorseRuns u = true → domPresent u.fuse.part d = true → (domOf u d).busy = false → (domOf u
      d).expiredAt = none → timerOf (domOf u d) = some (n, t) → t ≤ u.stb → n ≤ (domOf u d).ceiling → exec (.idleTimerExpiry d) s = .next (settle
      (updDom u d (fun x => { x with expiredAt := some t }))))
  ∧ (∀ (s u : State) (d : Nat), u = sweep s → (domOf u d).busy = true → exec (.idleTimerExpiry d) s = .next (settle (u)))
  ∧ (∀ (s u : State) (d e n t : Nat), u = sweep s → (domOf u d).expiredAt = some e → timerOf (domOf u d) = some (n, t) → e + 8 ≤ u.stb → gorseRuns u =
      true → u.fault.haltGorse = false → d < 0x10 ∨ u.dlink.trained = true → exec (.entryStart d) s = .next (settle (startEntry u d n none false)))
  ∧ (∀ (s u : State) (d e n t : Nat), u = sweep s → (domOf u d).expiredAt = some e → timerOf (domOf u d) = some (n, t) → e + 8 ≤ u.stb → gorseRuns u =
      true → u.fault.haltGorse = false → 0x10 ≤ d → u.dlink.trained = false → exec (.entryStart d) s = .next (settle (refuseEntry u d d 8)))
  ∧ (∀ (s u : State) (d : Nat), u = sweep s → (domOf u d).state = .entering → (domOf u d).stopped = false → (domOf u d).entryAt + 8 ≤ u.stb → d ≠
      domCtrl → exec (.clockStopPoint d) s = .next (settle (updDom u d (fun x => { x with stopped := true, frozenAt := u.stb }))))
  ∧ (∀ (s u : State), u = sweep s → (domOf u domCtrl).state = .entering → (domOf u domCtrl).stopped = false → (domOf u domCtrl).entryAt + 8 ≤ u.stb →
      u.custody.state = .granted → exec (.clockStopPoint domCtrl) s = .next (settle (relinquishLease (updDom u domCtrl (fun x =>
      { x with stopped := true, frozenAt := u.stb })))))
  ∧ (∀ (s u : State) (d : Nat) (x : State), u = sweep s → (domOf u d).state = .entering → (domOf u d).stopped = true → (domOf u d).byHost = none → x =
      traceDomain (updDom u d (fun x =>
      { bookTime u x with state := if x.target = 2 then .off else .ret, entries := x.entries + 1, stopped := false, fromRet := false, byHost := none }))
      d → exec (.entryComplete d) s = .next (settle (pumpReturns (entered x d (domOf u d).target))))
  ∧ (∀ (s u x y : State) (d n : Nat) (c : Cmd), u = sweep s → (domOf u d).state = .entering → (domOf u d).stopped = true → (domOf u d).byHost = some n →
      x = traceDomain (updDom u d (fun x =>
      { bookTime u x with state := if x.target = 2 then .off else .ret, entries := x.entries + 1, stopped := false, fromRet := false, byHost := none })) d →
      y = entered x d (domOf u d).target → cmdOf y n = some c → exec (.entryComplete d) s = .next (settle (pumpReturns
      (if c.aux = 2 ∧ d ≠ domCtrl then y else policyDone y c 0 0xFF))))
  ∧ (∀ (s u : State) (d : Nat) (x : State), u = sweep s → (domOf u d).state = .returning → gorseRuns u = true → badRetained u (domOf u d) = false →
      d < 0x10 → x = traceDomain (updDom u d (fun x => { bookTime u x with state := .on, target := 0, idleAt := u.stb, expiredAt := none })) d → exec
      (.returnComplete d) s = .next (settle (pumpReturns (returned (if d = domListen && x.listen.stage1 then startLookBack x else x) d (domOf u d).target))))
  ∧ (∀ (s u : State) (d : Nat) (x : State), u = sweep s → (domOf u d).state = .returning → gorseRuns u = true → badRetained u (domOf u d) = false →
      0x10 ≤ d → x = traceDomain (updDom u d (fun x => { bookTime u x with state := .on, target := 0, idleAt := u.stb, expiredAt := none })) d → exec
      (.returnComplete d) s = .next (settle (pumpReturns (returned (setMirror x
      { dom := d, offset := (((domOf u d).entryAt + returnDelay u (domOf u d) : Nat) : Int) - x.stb, uncertain := true }) d (domOf u d).target))))
  ∧ (∀ (s u : State) (d : Nat) (x : State), u = sweep s → (domOf u d).state = .returning → gorseRuns u = true → badRetained u (domOf u d) = true → x =
      { u with power := { u.power with fwRetained := false }, store := { u.store with poison := u.store.poison.filter (fun l => !retainedLine l) } } →
      exec (.returnComplete d) s = .next (settle (updDom (raise x (capture u 0x27 0 0)) d (fun y => { y with entryAt := u.stb }))))

/-- A release of a model that may not be released changes nothing; another builds the step of the slots that may join, parks those without
frames, gives the step its class and coppices, pre-empts lower classes, takes their ways and asks for its domains. A cut whose work, unit
and class have their turn is admitted if the power limit allows its energy, and is otherwise deferred. A scan chunk commits, or on a
mismatch is run again. The commit of a step whose tile commands and scan chunks are done commits its sequences in slot order, then its
streams and graphs, and counts 1; that of another changes nothing. Parked sequences are served in class order. The waiting command of the
highest class takes a slot. A prefetch places the state in tier 2, and the waiting chunk notes a narrowed state. A residency copies the
model to the pool and makes it resident, or ends its waiting commands POISON. A NOR write ends with the read-back's state. (Derived:
09_attention_and_pages.md R219, 10_recurrence.md R248, 10_recurrence.md R250, 11_steps_and_models.md R254, 11_steps_and_models.md R255,
11_steps_and_models.md R258, 11_steps_and_models.md R271, 13_tenants_and_trust.md R327, 15_power_domains.md R362.) -/
def Obligations.WorkEvents : Prop :=
  (∀ (s u : State) (fn : Fn) (id : Nat) (m : Model), u = sweep s → modelOf u fn id = some m →
      (mayRelease u fn m = false ∨ builtCoppices u fn id [] = []) → exec (.stepRelease fn id) s = .next (settle u))
  ∧ (∀ (s u w : State) (fn : Fn) (id n : Nat) (m : Model), u = sweep s → modelOf u fn id = some m → mayRelease u fn m = true →
      builtCoppices u fn id [] ≠ [] → (candidates u fn id).foldl (buildSlot m (policyOf u fn id)) (u, [], 0) = (w, [], n) →
      exec (.stepRelease fn id) s = .next (settle w))
  ∧ (∀ (s u : State) (fn : Fn) (id n : Nat) (m : Model) (w x y z : State) (ms : List Member) (cops : List Nat) (t : Step), u = sweep s →
      modelOf u fn id = some m → mayRelease u fn m = true → builtCoppices u fn id [] ≠ [] →
      (candidates u fn id).foldl (buildSlot m (policyOf u fn id)) (u, [], 0) = (w, ms, n) → ms ≠ [] → cops = builtCoppices w fn id ms → t =
      { fn := fn, model := id, release := ctrlStamp w, members := ms, cls := ((ms.filterMap (fun k => (w.work.slots.find? (fun x => x.num == k.slot)).map (·.effCls))).min?).getD 3, coppices := BitVec.ofNat 4 (cops.map (2 ^ ·)).sum, est := max 1 (Config.soloEstimate m.image ms.length n cops.length) } →
      x = { w with work := { w.work with steps := w.work.steps ++ [t] } } → y = cops.foldl (takeWays t) (w.work.steps.foldl (preemptStep t) x) →
      z = demandWork y fn (stepDoms y t) → exec (.stepRelease fn id) s = .next (settle
        (if fn = .pf0 then traceEvent z domCtrl 0x10 0x03 0x10 0 0 0 (id + 2 ^ 16 * ms.length + 2 ^ 32 * n) else z)))
  ∧ (∀ (s u : State) (t : WorkCut) (k : Energies) (e : Bool), u = sweep s →
      e = edgeWork u t →
      laurelRuns u = true → u.custody.quiescing = false → jobAdmits u t e = true → workNames u t e = true → unitReady u t e = true →
      classTurn u t = true → powerAdmits u t (cutEnergy u t) k = true → exec (.tileCommandAdmit t k) s = .next (settle (admitCut u t e)))
  ∧ (∀ (s : State) (t : WorkCut) (e : Bool), (admitCut s t e).work.admitted =
        s.work.admitted ++ [{ cut := t, edge := e, retried := s.work.retried.contains (anywhere t) }]
      ∧ (admitCut s t e).work.steps = s.work.steps.map (fun x => if WorkRef.step x.fn x.model = t.work then { x with suspended := false } else x)
      ∧ (admitCut s t e).power.lastAdmit = (t.coppice, s.stb) :: s.power.lastAdmit.filter (fun k => k.1 != t.coppice)
      ∧ (admitCut s t e).cmds = s.cmds ∧ (admitCut s t e).store = s.store)
  ∧ (∀ (s u : State) (t : WorkCut) (k : Energies) (e : Bool), u = sweep s →
      e = edgeWork u t →
      laurelRuns u = true → u.custody.quiescing = false → jobAdmits u t e = true → workNames u t e = true → unitReady u t e = true →
      classTurn u t = true → powerAdmits u t (cutEnergy u t) k = false → exec (.tileCommandAdmit t k) s = .next (settle
      { u with power := { u.power with deferrals := (u.stb / 30720) :: (u.power.deferrals.filter (fun x => x != u.stb / 30720)).take 1 } }))
  ∧ (∀ (s u : State) (id : Nat) (ok : Bool) (c : Cmd) (t : Step) (b : Member) (x : Stream) (m : Model), u = sweep s → cmdOf u id = some c →
      stepWith u id = some (t, b) → streamOf u t.fn b.handle = some x → modelOf u t.fn t.model = some m → c.op = .streamChunk →
      c.cnt < c.first + b.n → u.fault.integrity = false → u.custody.quiescing = false → allOn u (t.cops.map domCop) = true →
      u.fault.injections = [] → inputErr u (descAt c.pkt.block 64) c.cnt (c.cnt + (scanChunk c m.chunk c.cnt).1) = none →
      statePoisoned u x = false → exec (.scanChunkCommit id ok) s = .next
      (settle (if ok then commitScan u c m x else scanMismatch u c (t.cops.headD 0))))
  ∧ (∀ (s u : State) (fn : Fn) (id : Nat) (t : Step), u = sweep s → stepOf u fn id = some t → stepDone u t = false →
      exec (.stepCommit fn id) s = .next (settle u))
  ∧ (∀ (s u : State) (fn : Fn) (id : Nat) (t : Step) (m : Model) (ms : List Member) (v x y z : State) (pool : List Nat), u = sweep s →
      stepOf u fn id = some t → u.fault.integrity = false → u.custody.quiescing = false → stepDone u t = true →
      allOn u (t.cops.map domCop ++ memDomsOf u fn) = true → ms = sortOn (·.slot) t.members → v = clearChunks
      { u with work := { u.work with steps := u.work.steps.filter (fun x => !(x.fn == fn && x.model == id)) } } t → modelOf v fn id = some m →
      x = setModel v { m with lastUse := ctrlStamp v } →
      (ms.filter (fun m => decide (m.kind = 1))).foldl (fun x m => commitSeq t m x) (x, t.freed ++ t.members.flatMap (fun m => m.frames)) = (y, pool) →
      z = countUp (ms.foldl (fun s m => if m.kind = 2 then commitStream t m s else if m.kind = 3 then commitGraph t m s else s) (returnFrames y pool))
        0x0007 (if fn = .pf0 then 0 else 1) 1 → exec (.stepCommit fn id) s = .next (settle (if fn = .pf0 then
        traceEvent z domCtrl 0x10 0x04 0x10 0 0 0 (id + 2 ^ 32 * slowdown (ctrlStamp u - t.release) t.est) else z)))
  ∧ (∀ (s u : State) (fn : Fn), u = sweep s → laurelRuns u = true → exec (.pageWaitEnd fn) s = .next (settle ((sortOn (·.effCls) (sortOn (·.parkStamp)
      (u.work.slots.filter (fun x => x.fn == fn && x.parked)))).foldl servePage u)))
  ∧ (∀ (s u : State) (fn : Fn) (c : Cmd) (cls k h m : Nat), u = sweep s → (sortOn (fun c => ((slotWant u c).map (·.1)).getD 4) (sortOn (·.startStamp)
      (u.cmds.filter (fun c => c.fn == fn && c.phase == .parked .slot)))).head? = some c → slotWant u c = some (cls, k, h, m) → exec (.slotGrant fn) s
      = .next (settle (enterTable u c k h cls m)))
  ∧ (∀ (s u : State) (h : Nat) (x y : Stream) (m : Model) (z : State) (e : Bool), u = sweep s → u.work.streams.find? (fun x => x.handle == h) = some x →
      x.prefetch = true → laurelRuns u = true → u.custody.quiescing = false → allOn u (domNand :: memDomsOf u x.fn) = true →
      modelOf u x.fn x.model = some m → u.fault.injections = [] → statePoisoned u x = false → frontChunk u x = none →
      placeState u m x false = some (z, y, e) → exec (.prefetchCommit h) s = .next (settle z))
  ∧ (∀ (s u z : State) (h : Nat) (x y : Stream) (m : Model) (c d f : Cmd) (e : Bool), u = sweep s →
      u.work.streams.find? (fun x => x.handle == h) = some x → x.prefetch = true → laurelRuns u = true → u.custody.quiescing = false →
      allOn u (domNand :: memDomsOf u x.fn) = true → modelOf u x.fn x.model = some m → u.fault.injections = [] → statePoisoned u x = false →
      frontChunk u x = some c → placeDemoting u m x (u.work.streams.length + 1) = some (z, y, e) → cmdOf z c.id = some d →
      f = { (d.warns e warnEvicted).warns y.narrow warnNarrow with
        misc := [d.misc.getD 0 0, max (d.misc.getD 1 0) (b2n y.narrow), d.misc.getD 2 0] } →
      exec (.prefetchCommit h) s = .next (settle (setCmd z { f with res := chunkResult f })))
  ∧ (∀ (s u v : State) (fn : Fn) (id : Nat) (m : Model) (src dst : List Nat), u = sweep s → modelOf u fn id = some m → m.loading = true →
      laurelRuns u = true → allOn u (residencyDoms u m) = true → u.fault.injections = [] →
      src = (u.store.allocs.filter (fun a => a.fn == fn && a.tier == 3 && a.obj == 22 && a.owner == id)).map (·.base) →
      dst = (u.store.allocs.filter (fun a => a.fn == fn && a.tier == 2 && a.obj == 20 && a.owner == id)).map (·.base) →
      (loadRanges u m src).any (fun r => (firstPoison u 3 r.2.1 r.2.2).isSome) = false → v = copyPieces u m src dst →
      exec (.modelResident fn id) s = .next (settle (setModel v
      { m with loading := false, resident := some (dst.headD 0), lastUse := ctrlStamp v, wasEvicted := false, tables := tablesOf m.image })))
  ∧ (∀ (s u v : State) (fn : Fn) (id : Nat) (m : Model) (src : List Nat), u = sweep s → modelOf u fn id = some m → m.loading = true →
      laurelRuns u = true → allOn u (residencyDoms u m) = true → u.fault.injections = [] →
      src = (u.store.allocs.filter (fun a => a.fn == fn && a.tier == 3 && a.obj == 22 && a.owner == id)).map (·.base) →
      (loadRanges u m src).any (fun r => (firstPoison u 3 r.2.1 r.2.2).isSome) = true → v = dropAllocs (setModel u { m with loading := false }) fn [20] id →
      exec (.modelResident fn id) s = .next (settle (endAll v ((v.cmds.filter (fun c =>
        c.fn == fn && c.phase == .parked .residency && modelNeeded v c == id)).map (·.id)) .poison)))
  ∧ (∀ (s u : State) (ok : Bool) (i : Nat) (f : FwImage) (x : State), u = sweep s → u.fw.activating = some i → u.boot.inReset = false → f =
      { runningOf u i with valid := ok } → x =
      { u with fw := { u.fw with activating := none, norState := u.fw.norState.set (i - 1) (if ok then 0 else 2), nor := u.fw.nor.map (fun g => if g.component = i then f else g) } }
      → exec (.norWriteDone ok) s = .next (settle (if ok then raiseSvn x else x)))

/-- With no injection armed and inputs that can be delivered: a SEQ_APPEND's positions are written into the pages of its lists, its sequence
grows by them, its outputs and statistics are committed, and its result counts what is done. A STREAM_CHUNK's scan chunks have committed
before, and its step is booked. A GRAPH_RUN's outputs are committed and its result formed. A TRAIN_STEP runs the backward passes of the
layers and writes the gradient, added to what stands there with ACCUMULATE, and its result. Each writes its STEP_COMMIT record; with the
last of its positions the command completes OK with its result, else it stays for the next step. The release and commit of a step itself are
in WorkEvents. (Derived: 09_attention_and_pages.md R205, 09_attention_and_pages.md R207, 09_attention_and_pages.md R210,
09_attention_and_pages.md R224, 09_attention_and_pages.md R231, 10_recurrence.md R248, 11_steps_and_models.md R258, 11_steps_and_models.md
R276, 11_steps_and_models.md R278.) -/
def Obligations.MembersCommitWithTheirStep : Prop :=
  (∀ (t : Step) (m : Member) (s u : State) (c : Cmd) (q : Stream), cmdOf s m.cmd = some c → streamOf s t.fn m.handle = some q →
      u = setStream s { q with lastRun := ctrlStamp s } →
      commitStream t m s = afterStep u (bookStep u c t) (decide (blk c 4 4 ≤ c.cnt)))
  ∧ (∀ (t : Step) (m : Member) (s w : State) (c : Cmd) (md : Model), cmdOf s m.cmd = some c → s.fault.injections = [] → memberBad s c m = none →
      modelOf s t.fn t.model = some md → c.op ≠ .trainStep →
      w = (memberOuts c m).zipIdx.foldl (fun s o => commitOut s c o.2 o.1.1 o.1.2) s →
      commitGraph t m s = afterStep (bumpFree w) { bookStep w c t with res := graphResult c t.tileCmds (openFlags w.freeCtr) } true)
  ∧ (∀ (t : Step) (m : Member) (s : State) (c : Cmd) (md : Model), cmdOf s m.cmd = some c → s.fault.injections = [] → memberBad s c m = none →
      modelOf s t.fn t.model = some md → c.op = .trainStep → commitGraph t m s = commitTrain t c md s)
  ∧ (∀ (t : Step) (s v : State) (c : Cmd) (m : Model) (n per rows : Nat) (g : KvGeom) (grads : List (List (List (List U32)))),
      n = blk c 8 4 → m.kv = some g → per = layerDraws m.image g n →
      grads = (List.range g.layers).map (fun l => layerBackward s m.image g ((trainPrefix s c).map (fun q => (q, c.aux))) l n (s.freeCtr + l * per)) →
      v = commitGrad { s with freeCtr := s.freeCtr + g.layers * per } c grads m.image → rows = emptyRowsOf m.image g.layers c.aux (c.aux + n) →
      commitTrain t c m s = afterStep { v with freeCtr := v.freeCtr + 2 } { (bookStep v c t).warns (rows != 0) warnEmptyRow with
        res := natLe 4 n ++ natLe 4 (Config.freeBits v.freeCtr).toNat ++ natLe 2 (min rows 65535) ++ natLe 2 (openFlags (v.freeCtr + 1)) } true)
  ∧ (∀ (t : Step) (m : Member) (s u v : State) (pool : List Nat) (c d : Cmd) (q : Seqn) (md : Model) (a b : Nat) (w : PageWork), cmdOf s m.cmd = some c →
      seqOf s t.fn m.handle = some q → modelOf s t.fn t.model = some md → s.fault.injections = [] → memberBad s c m = none →
      rangesPoisoned s (seqRanges s q) = false → a = q.length → b = a + m.n →
      w = (q.geom.lists.flatMap (fun l => ((List.range (ceilDiv b q.geom.tokens - a / q.geom.tokens)).map (a / q.geom.tokens + ·)).map
        (fun i => (l, i)))).foldl (commitPage a b) { s := s, pool := pool, q := q, cow := false } →
      u = (memberOuts c m).foldl (fun s o => if o.1.present then commitOut s c 0 o.1 o.2 else s) (setSeq w.s { w.q with length := b, lastRun := ctrlStamp s }) →
      v = commitStats u c md c.cnt (c.cnt + m.n) a →
      d = { bookStep v (c.warns (emptyRowsOf md.image q.geom.layers a b != 0) warnEmptyRow) t with
        cnt := c.cnt + m.n, misc := [max (c.misc.headD 0) (b2n w.sat), max (c.misc.getD 1 0) (b2n w.cow)] } →
      commitSeq t m (s, pool) = (afterStep v { d with res := appendResult d b } (decide (blk c 4 4 ≤ c.cnt + m.n)), w.pool))
  ∧ (∀ (s v : State) (c : Cmd), v = progress (setCmd s c) c 0x0006 c.steps true → afterStep s c true = finishCmd v c)
  ∧ (∀ (s v : State) (c : Cmd), v = progress (setCmd s c) c 0x0006 c.steps true → afterStep s c false = setCmd v { c with phase := .parked .step })
  ∧ (∀ (s : State) (c : Cmd), finishCmd s c = complete (dropWork (watchRecord s c false) c) c .ok c.res)

/-- For an admitted cut of an operator: where its comparisons hold and its operands can be delivered, its outputs are committed, its
counters count, and the command completes with its last output. Where a comparison fails, by an error of the hardware or an armed injection,
nothing is committed: the cut is run again, and one that fails a second time ends its command POISON. With an uncorrectable line of the
tile's buffer, or an operand that cannot be delivered, the command ends POISON. A cut of a batch step commits its part of a member's output.
A cut that was not admitted changes nothing. (Derived: 06_tiles_and_arithmetic.md R144, 06_tiles_and_arithmetic.md R146,
06_tiles_and_arithmetic.md R155, 06_tiles_and_arithmetic.md R156, 06_tiles_and_arithmetic.md R447, 14_faults.md R339.) -/
def Obligations.TileCommandsCommit : Prop :=
  (∀ (s u : State) (t : WorkCut) (up : Option Upset), u = sweep s → admittedAs u t false = none → exec (.tileCommandCommit t up) s = .next (settle u))
  ∧ (∀ (s u : State) (t : WorkCut) (up : Option Upset), u = sweep s → admittedAs u t true = none → exec (.edgeCommandCommit t up) s = .next (settle u))
  ∧ (∀ (i : Instr) (e : Bool) (s u v w y : State) (t : WorkCut) (up : Option Upset) (a : Admitted) (k : Nat × Nat) (id : Nat) (c : Cmd)
      (j q : Job) (pr qr : Prob), (i, e) = (.tileCommandCommit t up, false) ∨ (i, e) = (.edgeCommandCommit t up, true) → u = sweep s →
      admittedAs u t e = some a → u.fault.integrity = false → k = checkerOf u t e → armed u k.1 k.2 (fun _ => true) = none →
      tileEcc u t e = (v, false) → t.work = .cmd id → cmdOf u id = some c → jobOf u id = some j → probOf u c j = some pr →
      cutFails pr j t up = false → w = strikeCut v c j t e → probOf w c j = some qr → cutBad qr t = none → commitCut (removeCut w t) pr j t = (y, q) →
      exec i s = .next (settle (afterCommit (countCommit (setJob y q) (some c) e k.2 (pr.products t) (pr.skipped t)) c q)))
  ∧ (∀ (i : Instr) (e : Bool) (s u : State) (t : WorkCut) (up : Option Upset) (a : Admitted) (k : Nat × Nat) (id : Nat) (c : Cmd)
      (j : Job) (pr : Prob), (i, e) = (.tileCommandCommit t up, false) ∨ (i, e) = (.edgeCommandCommit t up, true) → u = sweep s →
      admittedAs u t e = some a → u.fault.integrity = false → k = checkerOf u t e → t.work = .cmd id → cmdOf u id = some c → jobOf u id = some j →
      probOf u c j = some pr → (armed u k.1 k.2 (fun _ => true)).isSome = true ∨ cutFails pr j t up = true →
      exec i s = .next (settle (mismatch u t a k.1 k.2)))
  ∧ (∀ (i : Instr) (e : Bool) (s u v : State) (t : WorkCut) (up : Option Upset) (a : Admitted) (k : Nat × Nat) (id : Nat) (c : Cmd)
      (j : Job) (pr : Prob), (i, e) = (.tileCommandCommit t up, false) ∨ (i, e) = (.edgeCommandCommit t up, true) → u = sweep s →
      admittedAs u t e = some a → u.fault.integrity = false → k = checkerOf u t e → armed u k.1 k.2 (fun _ => true) = none →
      tileEcc u t e = (v, true) → t.work = .cmd id → cmdOf u id = some c → jobOf u id = some j → probOf u c j = some pr →
      cutFails pr j t up = false → exec i s = .next (settle (eccCut v a)))
  ∧ (∀ (i : Instr) (e : Bool) (s u v w : State) (t : WorkCut) (up : Option Upset) (a : Admitted) (k : Nat × Nat) (id : Nat) (c : Cmd)
      (j : Job) (pr qr : Prob) (b : ReadError), (i, e) = (.tileCommandCommit t up, false) ∨ (i, e) = (.edgeCommandCommit t up, true) → u = sweep s →
      admittedAs u t e = some a → u.fault.integrity = false → k = checkerOf u t e → armed u k.1 k.2 (fun _ => true) = none →
      tileEcc u t e = (v, false) → t.work = .cmd id → cmdOf u id = some c → jobOf u id = some j → probOf u c j = some pr →
      cutFails pr j t up = false → w = strikeCut v c j t e → probOf w c j = some qr → cutBad qr t = some b →
      exec i s = .next (settle (poisonCut w c j a b)))
  ∧ (∀ (s u v x : State) (t : WorkCut) (up : Option Upset) (a : Admitted) (k : Nat × Nat) (fn : Fn) (m : Nat) (st : Step), u = sweep s →
      admittedAs u t false = some a → u.fault.integrity = false → k = checkerOf u t false → armed u k.1 k.2 (fun _ => true) = none →
      tileEcc u t false = (v, false) → t.work = .step fn m → (∀ z, up = some z → z.delta = 0) →
      x = countCommit (removeCut v t) (traceOwner v t.work) false k.2 (Config.freeNat v.freeCtr) 0 → stepOf v fn m = some st →
      stepCutBad v st t = none → exec (.tileCommandCommit t up) s = .next (settle (countStepCut (commitStepCut (bumpFree x) st t) st)))
  ∧ (∀ (s : State) (c d : Cmd) (j : Job), d = { c with res := jobResult c j, warn := c.warn ||| (if 0 < j.emptyRows then warnEmptyRow else 0) } →
      j.poisoned = false → afterCommit s c j = (if j.done.length = j.total then finishCmd (setCmd s d) d else setCmd s d))
  ∧ (∀ (s x y : State) (t : WorkCut) (a : Admitted) (src unit id : Nat), t.work = .cmd id → a.retried = true →
      y = discardTrace (raiseAt s src unit (match cmdOf s id with | some c => captureCmd s c src unit 1 | none => capture s src unit 1)) a 6 →
      x = bumpFree (if a.edge then y else countUp (countUp y 0x0005 unit 1) 0x0003 unit (Config.freeNat y.freeCtr)) →
      x.fault.haltLaurel = false → mismatch s t a src unit = endAll (removeCut x t) [id] .poison)
  ∧ (∀ (s : State) (t : WorkCut) (a : Admitted) (src unit : Nat), a.retried = false →
      (mismatch s t a src unit).work.admitted.filter (fun x => decide (x.cut = t) && !x.retried) = [])

/-- A unit in a group whose Laurel runs writes its control block to its peers. A block of a peer updates the peer and ends its absence's
commands if it is still absent; one of no peer is ignored and counted. A slot header out of sequence, or beyond the receive area, breaks the
pair; a good one is received: its unit is written, or its range poisoned where the payload is bad, the pair moves on with the sender's
stamp, and the semaphore is signalled; a broken pair takes none. 9,216 tk without a block make a peer absent, and a join with no deadline
ends GROUP_ABSENT after 3,072,000 tk. (Derived: 16_kraotas_groups.md R372, 16_kraotas_groups.md R373, 16_kraotas_groups.md R374,
16_kraotas_groups.md R379, 16_kraotas_groups.md R380.) -/
def Obligations.ControlBlocksJoinAndRepair : Prop :=
  (∀ (s u : State), u = sweep s → u.group.state ≠ 0 → laurelRuns u = true → exec .controlBlockWrite s = .next (settle (writeBlocks u)))
  ∧ (∀ (s u : State), u = sweep s → u.group.state = 0 → exec .controlBlockWrite s = .next (settle (u)))
  ∧ (∀ (s u : State) (w : Nat) (b : ControlBlock) (p q : Peer), u = sweepOld s → laurelRuns u = true → peerOf u w = some p → q = takeBlock u p b →
      exec (.controlBlock w b) s = .next (settleLate (endAbsent (if p.broken ≠ q.broken ∨ p.rxNext ≠ q.rxNext ∨ p.returned ≠ q.returned then
      writeBlocks (setPeer u q) else setPeer u q) w)))
  ∧ (∀ (s u : State) (w : Nat) (b : ControlBlock), u = sweepOld s → laurelRuns u = true → peerOf u w = none →
      exec (.controlBlock w b) s = .next (settleLate (ignoreWrite u)))
  ∧ (∀ (s u : State) (w : Nat) (h : SlotHeader) (d : List Byte) (p : Peer), u = sweepOld s → laurelRuns u = true → peerOf u w = some p →
      p.present = true → p.broken = false → h.pseq = p.rxNext → (crc32c d = h.ucrc → h.dstOff + unitSpan h.dstFmt d ≤ p.rxLen) →
      exec (.slotHeader w h d) s = .next (settleLate (receiveUnit u p h d)))
  ∧ (∀ (s u : State) (w : Nat) (h : SlotHeader) (d : List Byte) (p : Peer), u = sweepOld s → laurelRuns u = true → peerOf u w = some p →
      p.present = true → p.broken = false → h.pseq ≠ p.rxNext ∨ (crc32c d = h.ucrc ∧ p.rxLen < h.dstOff + unitSpan h.dstFmt d) →
      exec (.slotHeader w h d) s = .next (settleLate (breakPair u p)))
  ∧ (∀ (s u : State) (w : Nat) (h : SlotHeader) (d : List Byte) (p : Peer), u = sweepOld s → laurelRuns u = true → peerOf u w = some p →
      p.present = true → p.broken = true → exec (.slotHeader w h d) s = .next (settleLate u))
  ∧ (∀ (s u : State) (w : Nat) (h : SlotHeader) (d : List Byte), u = sweepOld s → laurelRuns u = true → (peerOf u w).filter (·.present) = none →
      exec (.slotHeader w h d) s = .next (settleLate (ignoreWrite u)))
  ∧ (∀ (s x : State) (p : Peer) (h : SlotHeader) (d bs : List Byte), crc32c d = h.ucrc → decodeUnit h.dstFmt d = some bs →
      x = tierWrite s 2 (offOf p.rxBase.toNat + h.dstOff) bs →
      receiveUnit s p h d = tracePeer (writeBlocks (signalSem (setPeer x
      { p with rxNext := p.rxNext + 1, stamp := (peerStamp x.group p.unit h.stamp).1, foreign := (peerStamp x.group p.unit h.stamp).2 }) p.rxSem))
      0x0A h.layerId h.opId h.xseq h.pseq p.unit)
  ∧ (∀ (s x : State) (p : Peer) (h : SlotHeader) (d : List Byte), crc32c d ≠ h.ucrc →
      x = poisonRange s (offOf p.rxBase.toNat + h.dstOff) (min (unitSpan h.dstFmt d) (p.rxLen - h.dstOff)) →
      receiveUnit s p h d = tracePeer (writeBlocks (signalSem (setPeer x
      { p with rxNext := p.rxNext + 1, stamp := (peerStamp x.group p.unit h.stamp).1, foreign := (peerStamp x.group p.unit h.stamp).2 }) p.rxSem))
      0x0A h.layerId h.opId h.xseq h.pseq p.unit)
  ∧ (∀ (s u : State) (w : Nat) (p : Peer), u = sweepOld s → peerOf u w = some p → p.present = true → p.lastBlock + 9216 ≤ ctrlStamp u →
      exec (.peerAbsent w) s = .next (settleLate (endAbsent (setPeer u { p with present := false }) w)))
  ∧ (∀ (s u : State) (w : Nat) (p : Peer), u = sweepOld s → peerOf u w = some p → ctrlStamp u < p.lastBlock + 9216 →
      exec (.peerAbsent w) s = .next (settleLate u))
  ∧ (∀ (s u : State) (n : Nat) (c : Cmd), u = sweep s → u.group.joinCmd = some n → cmdOf u n = some c → c.dl = none → u.group.joinAt + 3072000 ≤
      ctrlStamp u → exec .groupJoinTimeout s = .next (settle (endCmd u c .groupAbsent)))

/-- With OBS on, reads waiting and no snapshot under way: each counter of the catalogue is latched with its domain's arrival, at most 2 tk
after the broadcast, the largest of which is the smear; the snapshot is under way to that tick, and each waiting COUNTER_READ is served from
the latched values. With no read waiting nothing happens. (Derived: 17_observation.md R388, 17_observation.md R389.) -/
def Obligations.SnapshotServesRequests : Prop :=
  (∀ (s u : State) (ar : List (Nat × Nat)) (d : Nat → Nat) (l : List CounterRec) (n : Nat), u = sweep s → laurelRuns u = true → domOn u domObs = true
      → u.obs.snapWaiting ≠ [] → u.obs.snapAt = none → d = (fun k => min 2 (((ar.find? (fun a => a.1 == k)).map (·.2)).getD 0)) → l = (catalogue
      u).map (latchCounter u (fun k => u.stb + d k)) → n = (l.map (fun r => if r.frozen then 0 else d r.dom)).foldl max 0 → exec (.snapshotBroadcast
      ar) s = .next (settle (u.obs.snapWaiting.foldl (serveSnapshot u.stb n l)
      { u with freeCtr := u.freeCtr + counterDraws, obs := { u.obs with snapAt := some (u.stb + n), snapWaiting := [] } })))
  ∧ (∀ (s u : State) (ar : List (Nat × Nat)), u = sweep s → u.obs.snapWaiting = [] → exec (.snapshotBroadcast ar) s = .next (settle (u)))
  ∧ (∀ (s : State) (f : Nat → Nat) (id i : Nat), domOn s (counterDom id i) = true → (latchCounter s f (id, i)).arrival = f (counterDom id i) ∧
      (latchCounter s f (id, i)).frozen = false)
  ∧ (∀ (s : State) (f : Nat → Nat) (id i : Nat), domOn s (counterDom id i) = false → (latchCounter s f (id, i)).arrival = (domOf s (counterDom id
      i)).frozenAt ∧ (latchCounter s f (id, i)).frozen = true)
  ∧ (∀ (s : State) (f : Nat → Nat) (id i : Nat) (c : Counter), ¬ (0x10 ≤ id ∧ id ≤ 0x15) → s.obs.counters.find? (fun c => c.id == id && c.inst == i) =
      some c → (latchCounter s f (id, i)).value = c.value)

/-- After any event the first command, in fetch order, that waits and can now go on does so, and what can follow follows. A SEM_WAIT first
in line whose value is reached takes its amount from the semaphore; a FENCE whose commands have all ended completes; a MODEL_LOAD whose
model has become resident completes with its result; a GROUP_JOIN whose peers are all present puts the unit into the group. Each of them
stays parked until then. (Derived: 05_command_packets.md R113, 05_command_packets.md R117, 05_command_packets.md R119, 05_command_packets.md
R120, 11_steps_and_models.md R271, 16_kraotas_groups.md R374.) -/
def Obligations.ParkedCommandsGoOn : Prop :=
  (∀ (s v u : State) (c : Cmd), firstResume s = some (c, v) → resumeCmd c v = some u → settle s = following u)
  ∧ (∀ (s : State) (c : Cmd) (x : Sem), c.op = .semWait → semNamed s c = some x → ((semWaiters s x.num).head?.map (·.id)) = some c.id → arg c 26 2 ≤
      x.count.toNat → resumeCmd c s = some (complete (setSem s { x with count := BitVec.ofNat 32 (x.count.toNat - arg c 26 2) }) c .ok (natLe 4
      (x.count.toNat - arg c 26 2))))
  ∧ (∀ (s : State) (c : Cmd) (x : Sem), c.op = .semWait → semNamed s c = some x → x.count.toNat < arg c 26 2 → resumeCmd c s = none)
  ∧ (∀ (s : State) (c : Cmd), c.op = .fence → stillOpen s c.awaited = false → resumeCmd c s = some (complete s c .ok))
  ∧ (∀ (s : State) (c : Cmd), c.op = .fence → stillOpen s c.awaited = true → resumeCmd c s = none)
  ∧ (∀ (s : State) (c : Cmd) (m : Model), c.op = .modelLoad → modelOf s c.fn c.aux = some m → m.resident.isSome = true → resumeCmd c s = some
      (complete s c .ok (loadResult m)))
  ∧ (∀ (s : State) (c : Cmd), c.op = .groupJoin → s.group.joinCmd = some c.id → s.group.peers.all (·.present) = true → resumeCmd c s = some (complete
      (writeBlocks { s with group := { s.group with state := 2, joinCmd := none } }) c .ok c.res))
  ∧ (∀ (s : State) (c : Cmd), c.op = .groupJoin → s.group.joinCmd = some c.id → s.group.peers.all (·.present) = false → resumeCmd c s = none)

/-- In a state in which nothing waits for anything, the settling after an event changes nothing: so the next states that the other
statements give as what follows an effect are that effect itself. No command is overdue either. (Derived: 05_command_packets.md R113,
11_steps_and_models.md R268, 15_power_domains.md R358.) -/
def Obligations.NothingFollowsWhenNothingWaits : Prop :=
  (∀ s : State, Calm s → settle s = s)
  ∧ (∀ s : State, Calm s → sweep s = s)
  ∧ (∀ s : State, Calm s → ensuing s = s)
  ∧ (∀ s : State, Calm s → thereafter s = s)

/-- From a state in which nothing waits, fetching a packet and starting its command change the rings and the turns of their classes, the
open commands and their counts, the host memory that records go to, held records, counters and the trace, and the pins, and nothing else of
the machine; the command is then the only one open. A completion changes the same, and on a resting link asks the device to leave that
state; it takes its command off the open ones. (Derived: 05_command_packets.md R104, 05_command_packets.md R113, 05_command_packets.md R114,
05_command_packets.md R115, 05_command_packets.md Table 5.8.) -/
def Obligations.StartAndCompletionFrames : Prop :=
  (∀ (op : Op) (opc : Nat) (p : Packet) (s w : State) (c : Cmd), Calm s → startOf op opc p s = some (c, w) → w.fuse = s.fuse ∧ w.boot = s.boot ∧ w.stb
      = s.stb ∧ w.mirrors = s.mirrors ∧ w.custody = s.custody ∧ w.dlink = s.dlink ∧ w.pcie = s.pcie ∧ w.regs = s.regs ∧ w.sess0 = s.sess0 ∧ w.sess1 =
      s.sess1 ∧ w.dram = s.dram ∧ w.nand = s.nand ∧ w.work = s.work ∧ w.listen = s.listen ∧ w.cam0 = s.cam0 ∧ w.cam1 = s.cam1 ∧ w.power = s.power ∧
      w.fault = s.fault ∧ w.group = s.group ∧ w.i3c = s.i3c ∧ w.fw = s.fw ∧ w.root = s.root ∧ w.freeCtr = s.freeCtr ∧ w.pending = s.pending ∧
      w.store.t0 = s.store.t0 ∧ w.store.t1 = s.store.t1 ∧ w.store.dram = s.store.dram ∧ w.store.nand = s.store.nand ∧ w.store.poison = s.store.poison
      ∧ w.store.poison1 = s.store.poison1 ∧ w.store.poisonUnits = s.store.poisonUnits ∧ w.store.allocs = s.store.allocs ∧ w.store.frames =
      s.store.frames ∧ w.cmds = [c])
  ∧ (∀ (s : State) (c : Cmd) (st : Status) (r : List Byte), (complete s c st r).fuse = s.fuse ∧ (complete s c st r).boot = s.boot ∧ (complete s c st
      r).stb = s.stb ∧ (complete s c st r).mirrors = s.mirrors ∧ (complete s c st r).custody = s.custody ∧ (complete s c st r).dlink = s.dlink ∧
      (complete s c st r).pcie.link = s.pcie.link ∧ (complete s c st r).pcie.d0 = s.pcie.d0 ∧ (complete s c st r).pcie.d1 = s.pcie.d1 ∧ (complete s c st r).regs = s.regs ∧ (complete s c st r).sess0 = s.sess0 ∧ (complete s c st r).sess1 =
      s.sess1 ∧ (complete s c st r).dram = s.dram ∧ (complete s c st r).nand = s.nand ∧ (complete s c st r).work = s.work ∧ (complete s c st r).listen
      = s.listen ∧ (complete s c st r).cam0 = s.cam0 ∧ (complete s c st r).cam1 = s.cam1 ∧ (complete s c st r).power = s.power ∧ (complete s c st
      r).fault = s.fault ∧ (complete s c st r).group = s.group ∧ (complete s c st r).i3c = s.i3c ∧ (complete s c st r).fw = s.fw ∧ (complete s c st
      r).root = s.root ∧ (complete s c st r).freeCtr = s.freeCtr ∧ (complete s c st r).pending = s.pending ∧ (complete s c st r).store.t0 = s.store.t0
      ∧ (complete s c st r).store.t1 = s.store.t1 ∧ (complete s c st r).store.dram = s.store.dram ∧ (complete s c st r).store.nand = s.store.nand ∧
      (complete s c st r).store.poison = s.store.poison ∧ (complete s c st r).store.poison1 = s.store.poison1 ∧ (complete s c st r).store.poisonUnits
      = s.store.poisonUnits ∧ (complete s c st r).store.allocs = s.store.allocs ∧ (complete s c st r).store.frames = s.store.frames ∧ (complete s c st
      r).cmds = s.cmds.filter (fun d => d.id != c.id))

/-- A completion record is 32 bytes: SEQ in bytes 0-3, STATUS in 4-5, WARN in 6, CFLAGS in 7, STAMP in 8-15, SLOWDOWN in 16-19, each little
endian, and the 12 bytes of the result from 20 on, a shorter result filled with zeros. (Derived: 05_command_packets.md Table 5.8.) -/
def Obligations.CompletionRecordLayout : Prop :=
  ∀ (seq : U32) (st : Nat) (warn cf : BitVec 8) (stamp slow : Nat) (r : List Byte), (recordBytes seq st warn cf stamp slow r).length = 32
    ∧ field (recordBytes seq st warn cf stamp slow r) 0 4 = seq.toNat
    ∧ field (recordBytes seq st warn cf stamp slow r) 4 2 = st % 65536
    ∧ (recordBytes seq st warn cf stamp slow r)[6]? = some warn
    ∧ (recordBytes seq st warn cf stamp slow r)[7]? = some cf
    ∧ field (recordBytes seq st warn cf stamp slow r) 8 8 = stamp % 18446744073709551616
    ∧ field (recordBytes seq st warn cf stamp slow r) 16 4 = slow % 4294967296
    ∧ (recordBytes seq st warn cf stamp slow r).drop 20 = (r ++ zeroBytes 12).take 12

/-- After a write of bytes at a place of a tier, that place reads as those bytes, every other place of the tier and every other memory reads
as before, and the memories keep their form. A poisoned line of 64 bytes, or unit of 4 KiB of tier 3, stays poisoned unless the write covers
the whole of it. A line is poisoned after its range is marked bad exactly when it was before or meets the range. (Derived:
12_memory_tiers.md R282, 12_memory_tiers.md R289, 12_memory_tiers.md R297, 12_memory_tiers.md R303.) -/
def Obligations.TierMemories : Prop :=
  (∀ (s : State) (tier off : Nat) (bs : List Byte), memoriesWf s = true → tier = 1 ∨ tier = 2 ∨ tier = 3 → tierRead (tierWrite s tier off bs) tier off
      bs.length = bs)
  ∧ (∀ (s : State) (tier off a : Nat) (bs : List Byte), memoriesWf s = true → tier = 1 ∨ tier = 2 ∨ tier = 3 → a < off ∨ off + bs.length ≤ a → memRead
      (tierMem (tierWrite s tier off bs) tier) a = memRead (tierMem s tier) a)
  ∧ (∀ (s : State) (tier k off : Nat) (bs : List Byte), tier = 1 ∨ tier = 2 ∨ tier = 3 → k ≤ 3 → k ≠ tier → tierMem (tierWrite s tier off bs) k =
      tierMem s k)
  ∧ (∀ (s : State) (tier off : Nat) (bs : List Byte), memoriesWf s = true → memoriesWf (tierWrite s tier off bs) = true)
  ∧ (∀ (s : State) (off l : Nat) (bs : List Byte), l ∈ (tierWrite s 2 off bs).store.poison ↔ l ∈ s.store.poison ∧ ¬ (off ≤ 64 * l ∧ 64 * l + 64 ≤ off
      + bs.length))
  ∧ (∀ (s : State) (off l : Nat) (bs : List Byte), l ∈ (tierWrite s 1 off bs).store.poison1 ↔ l ∈ s.store.poison1 ∧ ¬ (off ≤ 64 * l ∧ 64 * l + 64 ≤
      off + bs.length))
  ∧ (∀ (s : State) (off l : Nat) (bs : List Byte), l ∈ (tierWrite s 3 off bs).store.poisonUnits ↔ l ∈ s.store.poisonUnits ∧ ¬ (off ≤ 4096 * l ∧ 4096 *
      l + 4096 ≤ off + bs.length))
  ∧ (∀ (s : State) (off len l : Nat), 0 < len → (l ∈ (poisonRange s off len).store.poison ↔ l ∈ s.store.poison ∨ (64 * l < off + len ∧ off < 64 * l +
      64)))

/-- From every state in which each ring's boost is the one that the wait-for edges then standing give it, whatever command is at the front
of the queue, and on the tick of an empty queue, a step that answers a next state answers one in which that still holds: a boost lasts
exactly as long as the edges that it comes from. (Derived: 11_steps_and_models.md R268, 05_command_packets.md R112.) -/
def Obligations.EveryStepKeepsBoosts : Prop :=
  ∀ s t : State, BoostsSettled s → step s = .next t → BoostsSettled t

/-- In reset the boot chain is at stage 0 with CAPS_VALID clear, the STB reads 0, the lease is not held and the custody line low, RING_SPLIT
is 0x400, PARTITION 0 and MEM_CONFIG 0x32_0800_4444, no ring, session or command exists, the listen policy is MODE 0 with TALK_N armed
alone, ALIVE is low and stopped, no fault is logged and no group joined. The memories list nothing, keep their form, and every boost is
settled. That memory that nothing has written reads 0 is the model's choice (notes/assumptions/5.md). (Derived: 19_start_up.md R403,
03_listening.md R69, 05_command_packets.md R97, 12_memory_tiers.md R290, 13_tenants_and_trust.md R306, 21_register_reference.md Table 21.2,
14_faults.md R349, 20_balls_and_electrical.md Table 20.2.) -/
def Obligations.ResetState : Prop :=
  State.reset.boot.inReset = true ∧ State.reset.boot.stage = 0 ∧ State.reset.boot.capsValid = false ∧ State.reset.stb = 0
  ∧ State.reset.custody.state = .none ∧ State.reset.custody.line = false ∧ State.reset.custody.epoch = 0
  ∧ State.reset.regs.ringSplit = 0x400 ∧ State.reset.regs.partition = 0 ∧ State.reset.regs.memConfig = 0x3208004444
  ∧ State.reset.rings = [] ∧ State.reset.cmds = [] ∧ State.reset.sess0.number = 0 ∧ State.reset.sess1.number = 0 ∧ State.reset.pending = []
  ∧ State.reset.listen.policy.mode = 0 ∧ State.reset.listen.policy.sources = 2 ∧ State.reset.listen.armed = 2 ∧ State.reset.listen.wakeId = 0
  ∧ State.reset.fault.level = false ∧ State.reset.fault.aliveRun = false ∧ State.reset.fault.log = [] ∧ State.reset.group.state = 0
  ∧ State.reset.store.dram = [] ∧ State.reset.store.nand = [] ∧ memoriesWf State.reset = true ∧ BoostsSettled State.reset
end

