-- ==== Sys2Proof/Laws/Boosts.lean ====
section
/-! SUPPORT. The boosts of 11 R268 as `boostAll` sets them: what they depend on, and that setting them again changes nothing. -/

namespace Sys2Proof.Machine

/-- What the wait-for edges are read from. -/
def SameWaits (s t : State) : Prop := s.cmds = t.cmds ∧ s.work.sems = t.work.sems ∧ s.rings = t.rings

theorem boostEdges_congr {s t : State} (h : SameWaits s t) : boostEdges s = boostEdges t := by
  obtain ⟨hc, hs, hr⟩ := h
  simp only [boostEdges, semNamed, semOf, waitClass, ringOf, hc, hs, hr]

theorem boostPass_congr {s t : State} (h : SameWaits s t) : SameWaits (boostPass s) (boostPass t) := by
  have he := boostEdges_congr h
  obtain ⟨hc, hs, hr⟩ := h
  refine ⟨hc, hs, ?_⟩
  simp only [boostPass, he, hr]

theorem foldl_congr {α : Type} (l : List α) : ∀ {s t : State}, SameWaits s t →
    SameWaits (l.foldl (fun s _ => boostPass s) s) (l.foldl (fun s _ => boostPass s) t) := by
  induction l with
  | nil => intro s t h; exact h
  | cons _ _ ih => intro s t h; exact ih (boostPass_congr h)

/-- Ring numbers and every field but the boost. -/
def unboosted (l : List Ring) : List Ring := l.map (fun r => { r with boost := none })

theorem boostAll_congr {s t : State} (hc : s.cmds = t.cmds) (hs : s.work.sems = t.work.sems) (hr : unboosted s.rings = unboosted t.rings) :
    (boostAll s).rings = (boostAll t).rings := by
  unfold boostAll
  exact (foldl_congr (List.range 8) (s := { s with rings := unboosted s.rings }) (t := { t with rings := unboosted t.rings }) ⟨hc, hs, hr⟩).2.2

theorem boostPass_frame (s : State) : ∃ l, boostPass s = { s with rings := l } ∧ unboosted l = unboosted s.rings := by
  refine ⟨_, rfl, ?_⟩
  simp only [unboosted, List.map_map, Function.comp_def]

theorem boostFold_frame {α : Type} (l : List α) : ∀ s : State, ∃ rs, l.foldl (fun s _ => boostPass s) s = { s with rings := rs } ∧ unboosted rs = unboosted s.rings := by
  induction l with
  | nil => intro s; exact ⟨s.rings, rfl, rfl⟩
  | cons _ _ ih =>
    intro s
    obtain ⟨l1, h1, e1⟩ := boostPass_frame s
    obtain ⟨l2, h2, e2⟩ := ih (boostPass s)
    refine ⟨l2, ?_, ?_⟩
    · rw [List.foldl_cons, h2, h1]
    · rw [e2, h1, e1]

/-- Setting the boosts changes nothing but the rings' boosts. -/
theorem boostAll_frame (s : State) : ∃ l, boostAll s = { s with rings := l } ∧ unboosted l = unboosted s.rings := by
  obtain ⟨l, h, e⟩ := boostFold_frame (List.range 8) { s with rings := s.rings.map (fun r => { r with boost := none }) }
  refine ⟨l, h, ?_⟩
  rw [e]
  simp only [unboosted, List.map_map, Function.comp_def]

/-- Setting the boosts again changes nothing. -/
theorem boostAll_settled (s : State) : BoostsSettled (boostAll s) := by
  unfold BoostsSettled
  obtain ⟨l, h, e⟩ := boostAll_frame s
  apply boostAll_congr
  · rw [h]
  · rw [h]
  · rw [h]; exact e

/-- After any settling the boosts are those of the wait-for edges. -/
theorem settle_boosts (s : State) : BoostsSettled (settle s) := by
  unfold settle
  exact boostAll_settled _

/-- A change that leaves commands, semaphores and rings alone keeps the boosts settled. -/
theorem boosts_kept {s t : State} (h : BoostsSettled s) (hc : t.cmds = s.cmds) (hs : t.work.sems = s.work.sems) (hr : t.rings = s.rings) :
    BoostsSettled t := by
  unfold BoostsSettled at *
  rw [boostAll_congr hc hs (by rw [hr]), h, hr]

end Sys2Proof.Machine
end

