-- ==== Sys2Proof/Laws/Memory.lean ====
section
/-! SUPPORT. The laws of the sparse memories: reads after writes, and that every memory operation keeps the canonical form. -/

namespace Sys2Proof.Machine

theorem memWfFrom_cons (lo a : Nat) (v : Byte) (m : Mem) :
    memWfFrom lo ((a, v) :: m) = true ↔ lo ≤ a ∧ v ≠ 0 ∧ memWfFrom (a + 1) m = true := by
  simp [memWfFrom, and_assoc]

/-- A lower bound may fall. -/
theorem memWfFrom_mono {lo hi : Nat} (h : lo ≤ hi) : ∀ {m : Mem}, memWfFrom hi m = true → memWfFrom lo m = true
  | [], _ => rfl
  | (a, v) :: t, w => by
    rw [memWfFrom_cons] at w ⊢
    exact ⟨le_trans h w.1, w.2⟩

/-- An address below every listed one reads 0. -/
theorem memRead_below {lo : Nat} : ∀ {m : Mem}, memWfFrom lo m = true → ∀ {a : Nat}, a < lo → memRead m a = 0
  | [], _, _, _ => rfl
  | (b, v) :: t, w, a, h => by
    rw [memWfFrom_cons] at w
    have hb : a < b := lt_of_lt_of_le h w.1
    simp [memRead, hb, Nat.ne_of_lt hb]

theorem memCons_wf {lo a : Nat} {v : Byte} {m : Mem} (h : lo ≤ a) (w : memWfFrom (a + 1) m = true) :
    memWfFrom lo (memCons a v m) = true := by
  unfold memCons
  split
  · exact memWfFrom_mono (by omega) w
  · rename_i hv
    rw [memWfFrom_cons]
    exact ⟨h, hv, w⟩

/-- A write keeps the canonical form above a bound. -/
theorem memWrite_wfFrom {lo : Nat} : ∀ {m : Mem}, memWfFrom lo m = true → ∀ {a : Nat} (v : Byte), lo ≤ a → memWfFrom lo (memWrite m a v) = true
  | [], _, a, v, h => by unfold memWrite; exact memCons_wf h rfl
  | (b, x) :: t, w, a, v, h => by
    rw [memWfFrom_cons] at w
    unfold memWrite
    split
    · rename_i hab
      exact memCons_wf h (by rw [memWfFrom_cons]; exact ⟨by omega, w.2⟩)
    · split
      · rename_i hab
        subst hab
        exact memCons_wf h w.2.2
      · rw [memWfFrom_cons]
        exact ⟨w.1, w.2.1, memWrite_wfFrom w.2.2 v (by omega)⟩

theorem memWrite_wf {m : Mem} (a : Nat) (v : Byte) (w : memWf m = true) : memWf (memWrite m a v) = true :=
  memWrite_wfFrom w v (Nat.zero_le a)

theorem memWriteN_wf (bs : List Byte) : ∀ {m : Mem} (a : Nat), memWf m = true → memWf (memWriteN m a bs) = true := by
  induction bs with
  | nil => exact fun _ w => w
  | cons v t ih => exact fun a w => ih (a + 1) (memWrite_wf a v w)

/-- Leaving entries out keeps the canonical form. -/
theorem memFilter_wfFrom (f : Host.Cell → Bool) {lo : Nat} : ∀ {m : Mem}, memWfFrom lo m = true → memWfFrom lo (m.filter f) = true
  | [], _ => rfl
  | (a, v) :: t, w => by
    rw [memWfFrom_cons] at w
    have ih := memFilter_wfFrom f w.2.2
    rw [List.filter_cons]
    split
    · rw [memWfFrom_cons]; exact ⟨w.1, w.2.1, ih⟩
    · exact memWfFrom_mono (by omega) ih

theorem memClear_wf {m : Mem} (a len : Nat) (w : memWf m = true) : memWf (memClear m a len) = true := memFilter_wfFrom _ w
theorem memOnly_wf {m : Mem} (a len : Nat) (w : memWf m = true) : memWf (memOnly m a len) = true := memFilter_wfFrom _ w

theorem memRead_memCons_same {a : Nat} {v : Byte} {m : Mem} (w : memWfFrom (a + 1) m = true) : memRead (memCons a v m) a = v := by
  unfold memCons
  split
  · rename_i hv
    rw [memRead_below w (by omega), hv]
  · simp [memRead]

theorem memRead_memCons_other {a b : Nat} {v : Byte} {m : Mem} (w : memWfFrom (a + 1) m = true) (h : b ≠ a) :
    memRead (memCons a v m) b = memRead m b := by
  unfold memCons
  split
  · rfl
  · by_cases hb : b < a
    · rw [memRead_below w (by omega)]; simp [memRead, hb, h]
    · simp [memRead, hb, h]

/-- The byte just written reads back. -/
theorem memRead_memWrite_same {lo : Nat} : ∀ {m : Mem}, memWfFrom lo m = true → ∀ (a : Nat) (v : Byte), memRead (memWrite m a v) a = v
  | [], _, a, v => by unfold memWrite; exact memRead_memCons_same rfl
  | (b, x) :: t, w, a, v => by
    rw [memWfFrom_cons] at w
    unfold memWrite
    split
    · exact memRead_memCons_same (by rw [memWfFrom_cons]; exact ⟨by omega, w.2⟩)
    · split
      · rename_i hab
        subst hab
        exact memRead_memCons_same w.2.2
      · rename_i h1 h2
        simp only [memRead, h1, h2, if_false]
        exact memRead_memWrite_same w.2.2 a v

/-- Every other byte is unchanged. -/
theorem memRead_memWrite_other {lo : Nat} :
    ∀ {m : Mem}, memWfFrom lo m = true → ∀ {a b : Nat} (v : Byte), b ≠ a → memRead (memWrite m a v) b = memRead m b
  | [], _, a, b, v, h => by unfold memWrite; exact memRead_memCons_other rfl h
  | (c, x) :: t, w, a, b, v, h => by
    rw [memWfFrom_cons] at w
    unfold memWrite
    split
    · exact memRead_memCons_other (by rw [memWfFrom_cons]; exact ⟨by omega, w.2⟩) h
    · split
      · rename_i hac
        subst hac
        rw [memRead_memCons_other w.2.2 h]
        by_cases hb : b < a
        · rw [memRead_below w.2.2 (by omega)]; simp [memRead, h, hb]
        · simp [memRead, h, hb]
      · simp only [memRead]
        rw [memRead_memWrite_other w.2.2 v h]

/-- Bytes outside a written range are unchanged. -/
theorem memRead_memWriteN_other (bs : List Byte) :
    ∀ {m : Mem} {a b : Nat}, memWf m = true → (b < a ∨ a + bs.length ≤ b) → memRead (memWriteN m a bs) b = memRead m b := by
  induction bs with
  | nil => intros; rfl
  | cons v t ih =>
    intro m a b w h
    simp only [List.length_cons] at h
    rw [memWriteN, ih (memWrite_wf a v w) (by omega), memRead_memWrite_other w v (by omega)]

/-- A written range reads back. -/
theorem memReadN_memWriteN (bs : List Byte) : ∀ {m : Mem} {a : Nat}, memWf m = true → memReadN (memWriteN m a bs) a bs.length = bs := by
  induction bs with
  | nil => intros; rfl
  | cons v t ih =>
    intro m a w
    have w1 := memWrite_wf a v w
    simp only [memWriteN, List.length_cons, memReadN]
    rw [ih w1, memRead_memWriteN_other t w1 (by omega), memRead_memWrite_same w]

end Sys2Proof.Machine
end

