-- ==== Sys2Proof/Laws/State.lean ====
section
/-! SUPPORT. One lemma per field and named update of the state: an update leaves every field it does not name as it was. -/

namespace Sys2Proof.Machine

@[simp] theorem setRing_fuse (s : State) (x : Ring) : (setRing s x).fuse = s.fuse := rfl
@[simp] theorem setRing_boot (s : State) (x : Ring) : (setRing s x).boot = s.boot := rfl
@[simp] theorem setRing_stb (s : State) (x : Ring) : (setRing s x).stb = s.stb := rfl
@[simp] theorem setRing_mirrors (s : State) (x : Ring) : (setRing s x).mirrors = s.mirrors := rfl
@[simp] theorem setRing_custody (s : State) (x : Ring) : (setRing s x).custody = s.custody := rfl
@[simp] theorem setRing_dlink (s : State) (x : Ring) : (setRing s x).dlink = s.dlink := rfl
@[simp] theorem setRing_pcie (s : State) (x : Ring) : (setRing s x).pcie = s.pcie := rfl
@[simp] theorem setRing_pins (s : State) (x : Ring) : (setRing s x).pins = s.pins := rfl
@[simp] theorem setRing_regs (s : State) (x : Ring) : (setRing s x).regs = s.regs := rfl
@[simp] theorem setRing_sess0 (s : State) (x : Ring) : (setRing s x).sess0 = s.sess0 := rfl
@[simp] theorem setRing_sess1 (s : State) (x : Ring) : (setRing s x).sess1 = s.sess1 := rfl
@[simp] theorem setRing_cmds (s : State) (x : Ring) : (setRing s x).cmds = s.cmds := rfl
@[simp] theorem setRing_fetchedLog (s : State) (x : Ring) : (setRing s x).fetchedLog = s.fetchedLog := rfl
@[simp] theorem setRing_nextCmd (s : State) (x : Ring) : (setRing s x).nextCmd = s.nextCmd := rfl
@[simp] theorem setRing_turns (s : State) (x : Ring) : (setRing s x).turns = s.turns := rfl
@[simp] theorem setRing_heldOut (s : State) (x : Ring) : (setRing s x).heldOut = s.heldOut := rfl
@[simp] theorem setRing_store (s : State) (x : Ring) : (setRing s x).store = s.store := rfl
@[simp] theorem setRing_dram (s : State) (x : Ring) : (setRing s x).dram = s.dram := rfl
@[simp] theorem setRing_nand (s : State) (x : Ring) : (setRing s x).nand = s.nand := rfl
@[simp] theorem setRing_work (s : State) (x : Ring) : (setRing s x).work = s.work := rfl
@[simp] theorem setRing_listen (s : State) (x : Ring) : (setRing s x).listen = s.listen := rfl
@[simp] theorem setRing_cam0 (s : State) (x : Ring) : (setRing s x).cam0 = s.cam0 := rfl
@[simp] theorem setRing_cam1 (s : State) (x : Ring) : (setRing s x).cam1 = s.cam1 := rfl
@[simp] theorem setRing_power (s : State) (x : Ring) : (setRing s x).power = s.power := rfl
@[simp] theorem setRing_fault (s : State) (x : Ring) : (setRing s x).fault = s.fault := rfl
@[simp] theorem setRing_obs (s : State) (x : Ring) : (setRing s x).obs = s.obs := rfl
@[simp] theorem setRing_group (s : State) (x : Ring) : (setRing s x).group = s.group := rfl
@[simp] theorem setRing_i3c (s : State) (x : Ring) : (setRing s x).i3c = s.i3c := rfl
@[simp] theorem setRing_fw (s : State) (x : Ring) : (setRing s x).fw = s.fw := rfl
@[simp] theorem setRing_root (s : State) (x : Ring) : (setRing s x).root = s.root := rfl
@[simp] theorem setRing_freeCtr (s : State) (x : Ring) : (setRing s x).freeCtr = s.freeCtr := rfl
@[simp] theorem setRing_pending (s : State) (x : Ring) : (setRing s x).pending = s.pending := rfl

@[simp] theorem setDom_fuse (s : State) (x : Dom) : (setDom s x).fuse = s.fuse := rfl
@[simp] theorem setDom_boot (s : State) (x : Dom) : (setDom s x).boot = s.boot := rfl
@[simp] theorem setDom_stb (s : State) (x : Dom) : (setDom s x).stb = s.stb := rfl
@[simp] theorem setDom_mirrors (s : State) (x : Dom) : (setDom s x).mirrors = s.mirrors := rfl
@[simp] theorem setDom_custody (s : State) (x : Dom) : (setDom s x).custody = s.custody := rfl
@[simp] theorem setDom_dlink (s : State) (x : Dom) : (setDom s x).dlink = s.dlink := rfl
@[simp] theorem setDom_pcie (s : State) (x : Dom) : (setDom s x).pcie = s.pcie := rfl
@[simp] theorem setDom_pins (s : State) (x : Dom) : (setDom s x).pins = s.pins := rfl
@[simp] theorem setDom_regs (s : State) (x : Dom) : (setDom s x).regs = s.regs := rfl
@[simp] theorem setDom_rings (s : State) (x : Dom) : (setDom s x).rings = s.rings := rfl
@[simp] theorem setDom_sess0 (s : State) (x : Dom) : (setDom s x).sess0 = s.sess0 := rfl
@[simp] theorem setDom_sess1 (s : State) (x : Dom) : (setDom s x).sess1 = s.sess1 := rfl
@[simp] theorem setDom_cmds (s : State) (x : Dom) : (setDom s x).cmds = s.cmds := rfl
@[simp] theorem setDom_fetchedLog (s : State) (x : Dom) : (setDom s x).fetchedLog = s.fetchedLog := rfl
@[simp] theorem setDom_nextCmd (s : State) (x : Dom) : (setDom s x).nextCmd = s.nextCmd := rfl
@[simp] theorem setDom_turns (s : State) (x : Dom) : (setDom s x).turns = s.turns := rfl
@[simp] theorem setDom_heldOut (s : State) (x : Dom) : (setDom s x).heldOut = s.heldOut := rfl
@[simp] theorem setDom_store (s : State) (x : Dom) : (setDom s x).store = s.store := rfl
@[simp] theorem setDom_dram (s : State) (x : Dom) : (setDom s x).dram = s.dram := rfl
@[simp] theorem setDom_nand (s : State) (x : Dom) : (setDom s x).nand = s.nand := rfl
@[simp] theorem setDom_work (s : State) (x : Dom) : (setDom s x).work = s.work := rfl
@[simp] theorem setDom_listen (s : State) (x : Dom) : (setDom s x).listen = s.listen := rfl
@[simp] theorem setDom_cam0 (s : State) (x : Dom) : (setDom s x).cam0 = s.cam0 := rfl
@[simp] theorem setDom_cam1 (s : State) (x : Dom) : (setDom s x).cam1 = s.cam1 := rfl
@[simp] theorem setDom_fault (s : State) (x : Dom) : (setDom s x).fault = s.fault := rfl
@[simp] theorem setDom_obs (s : State) (x : Dom) : (setDom s x).obs = s.obs := rfl
@[simp] theorem setDom_group (s : State) (x : Dom) : (setDom s x).group = s.group := rfl
@[simp] theorem setDom_i3c (s : State) (x : Dom) : (setDom s x).i3c = s.i3c := rfl
@[simp] theorem setDom_fw (s : State) (x : Dom) : (setDom s x).fw = s.fw := rfl
@[simp] theorem setDom_root (s : State) (x : Dom) : (setDom s x).root = s.root := rfl
@[simp] theorem setDom_freeCtr (s : State) (x : Dom) : (setDom s x).freeCtr = s.freeCtr := rfl
@[simp] theorem setDom_pending (s : State) (x : Dom) : (setDom s x).pending = s.pending := rfl

@[simp] theorem updDom_fuse (s : State) (d : Nat) (f : Dom → Dom) : (updDom s d f).fuse = s.fuse := rfl
@[simp] theorem updDom_boot (s : State) (d : Nat) (f : Dom → Dom) : (updDom s d f).boot = s.boot := rfl
@[simp] theorem updDom_stb (s : State) (d : Nat) (f : Dom → Dom) : (updDom s d f).stb = s.stb := rfl
@[simp] theorem updDom_mirrors (s : State) (d : Nat) (f : Dom → Dom) : (updDom s d f).mirrors = s.mirrors := rfl
@[simp] theorem updDom_custody (s : State) (d : Nat) (f : Dom → Dom) : (updDom s d f).custody = s.custody := rfl
@[simp] theorem updDom_dlink (s : State) (d : Nat) (f : Dom → Dom) : (updDom s d f).dlink = s.dlink := rfl
@[simp] theorem updDom_pcie (s : State) (d : Nat) (f : Dom → Dom) : (updDom s d f).pcie = s.pcie := rfl
@[simp] theorem updDom_pins (s : State) (d : Nat) (f : Dom → Dom) : (updDom s d f).pins = s.pins := rfl
@[simp] theorem updDom_regs (s : State) (d : Nat) (f : Dom → Dom) : (updDom s d f).regs = s.regs := rfl
@[simp] theorem updDom_rings (s : State) (d : Nat) (f : Dom → Dom) : (updDom s d f).rings = s.rings := rfl
@[simp] theorem updDom_sess0 (s : State) (d : Nat) (f : Dom → Dom) : (updDom s d f).sess0 = s.sess0 := rfl
@[simp] theorem updDom_sess1 (s : State) (d : Nat) (f : Dom → Dom) : (updDom s d f).sess1 = s.sess1 := rfl
@[simp] theorem updDom_cmds (s : State) (d : Nat) (f : Dom → Dom) : (updDom s d f).cmds = s.cmds := rfl
@[simp] theorem updDom_fetchedLog (s : State) (d : Nat) (f : Dom → Dom) : (updDom s d f).fetchedLog = s.fetchedLog := rfl
@[simp] theorem updDom_nextCmd (s : State) (d : Nat) (f : Dom → Dom) : (updDom s d f).nextCmd = s.nextCmd := rfl
@[simp] theorem updDom_turns (s : State) (d : Nat) (f : Dom → Dom) : (updDom s d f).turns = s.turns := rfl
@[simp] theorem updDom_heldOut (s : State) (d : Nat) (f : Dom → Dom) : (updDom s d f).heldOut = s.heldOut := rfl
@[simp] theorem updDom_store (s : State) (d : Nat) (f : Dom → Dom) : (updDom s d f).store = s.store := rfl
@[simp] theorem updDom_dram (s : State) (d : Nat) (f : Dom → Dom) : (updDom s d f).dram = s.dram := rfl
@[simp] theorem updDom_nand (s : State) (d : Nat) (f : Dom → Dom) : (updDom s d f).nand = s.nand := rfl
@[simp] theorem updDom_work (s : State) (d : Nat) (f : Dom → Dom) : (updDom s d f).work = s.work := rfl
@[simp] theorem updDom_listen (s : State) (d : Nat) (f : Dom → Dom) : (updDom s d f).listen = s.listen := rfl
@[simp] theorem updDom_cam0 (s : State) (d : Nat) (f : Dom → Dom) : (updDom s d f).cam0 = s.cam0 := rfl
@[simp] theorem updDom_cam1 (s : State) (d : Nat) (f : Dom → Dom) : (updDom s d f).cam1 = s.cam1 := rfl
@[simp] theorem updDom_fault (s : State) (d : Nat) (f : Dom → Dom) : (updDom s d f).fault = s.fault := rfl
@[simp] theorem updDom_obs (s : State) (d : Nat) (f : Dom → Dom) : (updDom s d f).obs = s.obs := rfl
@[simp] theorem updDom_group (s : State) (d : Nat) (f : Dom → Dom) : (updDom s d f).group = s.group := rfl
@[simp] theorem updDom_i3c (s : State) (d : Nat) (f : Dom → Dom) : (updDom s d f).i3c = s.i3c := rfl
@[simp] theorem updDom_fw (s : State) (d : Nat) (f : Dom → Dom) : (updDom s d f).fw = s.fw := rfl
@[simp] theorem updDom_root (s : State) (d : Nat) (f : Dom → Dom) : (updDom s d f).root = s.root := rfl
@[simp] theorem updDom_freeCtr (s : State) (d : Nat) (f : Dom → Dom) : (updDom s d f).freeCtr = s.freeCtr := rfl
@[simp] theorem updDom_pending (s : State) (d : Nat) (f : Dom → Dom) : (updDom s d f).pending = s.pending := rfl

@[simp] theorem bumpMap_fuse (s : State) : (bumpMap s).fuse = s.fuse := rfl
@[simp] theorem bumpMap_stb (s : State) : (bumpMap s).stb = s.stb := rfl
@[simp] theorem bumpMap_mirrors (s : State) : (bumpMap s).mirrors = s.mirrors := rfl
@[simp] theorem bumpMap_custody (s : State) : (bumpMap s).custody = s.custody := rfl
@[simp] theorem bumpMap_dlink (s : State) : (bumpMap s).dlink = s.dlink := rfl
@[simp] theorem bumpMap_pcie (s : State) : (bumpMap s).pcie = s.pcie := rfl
@[simp] theorem bumpMap_pins (s : State) : (bumpMap s).pins = s.pins := rfl
@[simp] theorem bumpMap_regs (s : State) : (bumpMap s).regs = s.regs := rfl
@[simp] theorem bumpMap_rings (s : State) : (bumpMap s).rings = s.rings := rfl
@[simp] theorem bumpMap_sess0 (s : State) : (bumpMap s).sess0 = s.sess0 := rfl
@[simp] theorem bumpMap_sess1 (s : State) : (bumpMap s).sess1 = s.sess1 := rfl
@[simp] theorem bumpMap_cmds (s : State) : (bumpMap s).cmds = s.cmds := rfl
@[simp] theorem bumpMap_fetchedLog (s : State) : (bumpMap s).fetchedLog = s.fetchedLog := rfl
@[simp] theorem bumpMap_nextCmd (s : State) : (bumpMap s).nextCmd = s.nextCmd := rfl
@[simp] theorem bumpMap_turns (s : State) : (bumpMap s).turns = s.turns := rfl
@[simp] theorem bumpMap_heldOut (s : State) : (bumpMap s).heldOut = s.heldOut := rfl
@[simp] theorem bumpMap_store (s : State) : (bumpMap s).store = s.store := rfl
@[simp] theorem bumpMap_dram (s : State) : (bumpMap s).dram = s.dram := rfl
@[simp] theorem bumpMap_nand (s : State) : (bumpMap s).nand = s.nand := rfl
@[simp] theorem bumpMap_work (s : State) : (bumpMap s).work = s.work := rfl
@[simp] theorem bumpMap_listen (s : State) : (bumpMap s).listen = s.listen := rfl
@[simp] theorem bumpMap_cam0 (s : State) : (bumpMap s).cam0 = s.cam0 := rfl
@[simp] theorem bumpMap_cam1 (s : State) : (bumpMap s).cam1 = s.cam1 := rfl
@[simp] theorem bumpMap_power (s : State) : (bumpMap s).power = s.power := rfl
@[simp] theorem bumpMap_fault (s : State) : (bumpMap s).fault = s.fault := rfl
@[simp] theorem bumpMap_obs (s : State) : (bumpMap s).obs = s.obs := rfl
@[simp] theorem bumpMap_group (s : State) : (bumpMap s).group = s.group := rfl
@[simp] theorem bumpMap_i3c (s : State) : (bumpMap s).i3c = s.i3c := rfl
@[simp] theorem bumpMap_fw (s : State) : (bumpMap s).fw = s.fw := rfl
@[simp] theorem bumpMap_root (s : State) : (bumpMap s).root = s.root := rfl
@[simp] theorem bumpMap_freeCtr (s : State) : (bumpMap s).freeCtr = s.freeCtr := rfl
@[simp] theorem bumpMap_pending (s : State) : (bumpMap s).pending = s.pending := rfl

@[simp] theorem bumpFree_fuse (s : State) : (bumpFree s).fuse = s.fuse := rfl
@[simp] theorem bumpFree_boot (s : State) : (bumpFree s).boot = s.boot := rfl
@[simp] theorem bumpFree_stb (s : State) : (bumpFree s).stb = s.stb := rfl
@[simp] theorem bumpFree_mirrors (s : State) : (bumpFree s).mirrors = s.mirrors := rfl
@[simp] theorem bumpFree_custody (s : State) : (bumpFree s).custody = s.custody := rfl
@[simp] theorem bumpFree_dlink (s : State) : (bumpFree s).dlink = s.dlink := rfl
@[simp] theorem bumpFree_pcie (s : State) : (bumpFree s).pcie = s.pcie := rfl
@[simp] theorem bumpFree_pins (s : State) : (bumpFree s).pins = s.pins := rfl
@[simp] theorem bumpFree_regs (s : State) : (bumpFree s).regs = s.regs := rfl
@[simp] theorem bumpFree_rings (s : State) : (bumpFree s).rings = s.rings := rfl
@[simp] theorem bumpFree_sess0 (s : State) : (bumpFree s).sess0 = s.sess0 := rfl
@[simp] theorem bumpFree_sess1 (s : State) : (bumpFree s).sess1 = s.sess1 := rfl
@[simp] theorem bumpFree_cmds (s : State) : (bumpFree s).cmds = s.cmds := rfl
@[simp] theorem bumpFree_fetchedLog (s : State) : (bumpFree s).fetchedLog = s.fetchedLog := rfl
@[simp] theorem bumpFree_nextCmd (s : State) : (bumpFree s).nextCmd = s.nextCmd := rfl
@[simp] theorem bumpFree_turns (s : State) : (bumpFree s).turns = s.turns := rfl
@[simp] theorem bumpFree_heldOut (s : State) : (bumpFree s).heldOut = s.heldOut := rfl
@[simp] theorem bumpFree_store (s : State) : (bumpFree s).store = s.store := rfl
@[simp] theorem bumpFree_dram (s : State) : (bumpFree s).dram = s.dram := rfl
@[simp] theorem bumpFree_nand (s : State) : (bumpFree s).nand = s.nand := rfl
@[simp] theorem bumpFree_work (s : State) : (bumpFree s).work = s.work := rfl
@[simp] theorem bumpFree_listen (s : State) : (bumpFree s).listen = s.listen := rfl
@[simp] theorem bumpFree_cam0 (s : State) : (bumpFree s).cam0 = s.cam0 := rfl
@[simp] theorem bumpFree_cam1 (s : State) : (bumpFree s).cam1 = s.cam1 := rfl
@[simp] theorem bumpFree_power (s : State) : (bumpFree s).power = s.power := rfl
@[simp] theorem bumpFree_fault (s : State) : (bumpFree s).fault = s.fault := rfl
@[simp] theorem bumpFree_obs (s : State) : (bumpFree s).obs = s.obs := rfl
@[simp] theorem bumpFree_group (s : State) : (bumpFree s).group = s.group := rfl
@[simp] theorem bumpFree_i3c (s : State) : (bumpFree s).i3c = s.i3c := rfl
@[simp] theorem bumpFree_fw (s : State) : (bumpFree s).fw = s.fw := rfl
@[simp] theorem bumpFree_root (s : State) : (bumpFree s).root = s.root := rfl
@[simp] theorem bumpFree_pending (s : State) : (bumpFree s).pending = s.pending := rfl

@[simp] theorem setAdmin_fuse (s : State) (fn : Fn) (a : Admin) : (setAdmin s fn a).fuse = s.fuse := by cases fn <;> rfl
@[simp] theorem setAdmin_boot (s : State) (fn : Fn) (a : Admin) : (setAdmin s fn a).boot = s.boot := by cases fn <;> rfl
@[simp] theorem setAdmin_stb (s : State) (fn : Fn) (a : Admin) : (setAdmin s fn a).stb = s.stb := by cases fn <;> rfl
@[simp] theorem setAdmin_mirrors (s : State) (fn : Fn) (a : Admin) : (setAdmin s fn a).mirrors = s.mirrors := by cases fn <;> rfl
@[simp] theorem setAdmin_custody (s : State) (fn : Fn) (a : Admin) : (setAdmin s fn a).custody = s.custody := by cases fn <;> rfl
@[simp] theorem setAdmin_dlink (s : State) (fn : Fn) (a : Admin) : (setAdmin s fn a).dlink = s.dlink := by cases fn <;> rfl
@[simp] theorem setAdmin_pcie (s : State) (fn : Fn) (a : Admin) : (setAdmin s fn a).pcie = s.pcie := by cases fn <;> rfl
@[simp] theorem setAdmin_pins (s : State) (fn : Fn) (a : Admin) : (setAdmin s fn a).pins = s.pins := by cases fn <;> rfl
@[simp] theorem setAdmin_rings (s : State) (fn : Fn) (a : Admin) : (setAdmin s fn a).rings = s.rings := by cases fn <;> rfl
@[simp] theorem setAdmin_sess0 (s : State) (fn : Fn) (a : Admin) : (setAdmin s fn a).sess0 = s.sess0 := by cases fn <;> rfl
@[simp] theorem setAdmin_sess1 (s : State) (fn : Fn) (a : Admin) : (setAdmin s fn a).sess1 = s.sess1 := by cases fn <;> rfl
@[simp] theorem setAdmin_cmds (s : State) (fn : Fn) (a : Admin) : (setAdmin s fn a).cmds = s.cmds := by cases fn <;> rfl
@[simp] theorem setAdmin_fetchedLog (s : State) (fn : Fn) (a : Admin) : (setAdmin s fn a).fetchedLog = s.fetchedLog := by cases fn <;> rfl
@[simp] theorem setAdmin_nextCmd (s : State) (fn : Fn) (a : Admin) : (setAdmin s fn a).nextCmd = s.nextCmd := by cases fn <;> rfl
@[simp] theorem setAdmin_turns (s : State) (fn : Fn) (a : Admin) : (setAdmin s fn a).turns = s.turns := by cases fn <;> rfl
@[simp] theorem setAdmin_heldOut (s : State) (fn : Fn) (a : Admin) : (setAdmin s fn a).heldOut = s.heldOut := by cases fn <;> rfl
@[simp] theorem setAdmin_store (s : State) (fn : Fn) (a : Admin) : (setAdmin s fn a).store = s.store := by cases fn <;> rfl
@[simp] theorem setAdmin_dram (s : State) (fn : Fn) (a : Admin) : (setAdmin s fn a).dram = s.dram := by cases fn <;> rfl
@[simp] theorem setAdmin_nand (s : State) (fn : Fn) (a : Admin) : (setAdmin s fn a).nand = s.nand := by cases fn <;> rfl
@[simp] theorem setAdmin_work (s : State) (fn : Fn) (a : Admin) : (setAdmin s fn a).work = s.work := by cases fn <;> rfl
@[simp] theorem setAdmin_listen (s : State) (fn : Fn) (a : Admin) : (setAdmin s fn a).listen = s.listen := by cases fn <;> rfl
@[simp] theorem setAdmin_cam0 (s : State) (fn : Fn) (a : Admin) : (setAdmin s fn a).cam0 = s.cam0 := by cases fn <;> rfl
@[simp] theorem setAdmin_cam1 (s : State) (fn : Fn) (a : Admin) : (setAdmin s fn a).cam1 = s.cam1 := by cases fn <;> rfl
@[simp] theorem setAdmin_power (s : State) (fn : Fn) (a : Admin) : (setAdmin s fn a).power = s.power := by cases fn <;> rfl
@[simp] theorem setAdmin_fault (s : State) (fn : Fn) (a : Admin) : (setAdmin s fn a).fault = s.fault := by cases fn <;> rfl
@[simp] theorem setAdmin_obs (s : State) (fn : Fn) (a : Admin) : (setAdmin s fn a).obs = s.obs := by cases fn <;> rfl
@[simp] theorem setAdmin_group (s : State) (fn : Fn) (a : Admin) : (setAdmin s fn a).group = s.group := by cases fn <;> rfl
@[simp] theorem setAdmin_i3c (s : State) (fn : Fn) (a : Admin) : (setAdmin s fn a).i3c = s.i3c := by cases fn <;> rfl
@[simp] theorem setAdmin_fw (s : State) (fn : Fn) (a : Admin) : (setAdmin s fn a).fw = s.fw := by cases fn <;> rfl
@[simp] theorem setAdmin_root (s : State) (fn : Fn) (a : Admin) : (setAdmin s fn a).root = s.root := by cases fn <;> rfl
@[simp] theorem setAdmin_freeCtr (s : State) (fn : Fn) (a : Admin) : (setAdmin s fn a).freeCtr = s.freeCtr := by cases fn <;> rfl
@[simp] theorem setAdmin_pending (s : State) (fn : Fn) (a : Admin) : (setAdmin s fn a).pending = s.pending := by cases fn <;> rfl

@[simp] theorem setSess_fuse (s : State) (fn : Fn) (x : Sess) : (setSess s fn x).fuse = s.fuse := by cases fn <;> rfl
@[simp] theorem setSess_boot (s : State) (fn : Fn) (x : Sess) : (setSess s fn x).boot = s.boot := by cases fn <;> rfl
@[simp] theorem setSess_stb (s : State) (fn : Fn) (x : Sess) : (setSess s fn x).stb = s.stb := by cases fn <;> rfl
@[simp] theorem setSess_mirrors (s : State) (fn : Fn) (x : Sess) : (setSess s fn x).mirrors = s.mirrors := by cases fn <;> rfl
@[simp] theorem setSess_custody (s : State) (fn : Fn) (x : Sess) : (setSess s fn x).custody = s.custody := by cases fn <;> rfl
@[simp] theorem setSess_dlink (s : State) (fn : Fn) (x : Sess) : (setSess s fn x).dlink = s.dlink := by cases fn <;> rfl
@[simp] theorem setSess_pcie (s : State) (fn : Fn) (x : Sess) : (setSess s fn x).pcie = s.pcie := by cases fn <;> rfl
@[simp] theorem setSess_pins (s : State) (fn : Fn) (x : Sess) : (setSess s fn x).pins = s.pins := by cases fn <;> rfl
@[simp] theorem setSess_regs (s : State) (fn : Fn) (x : Sess) : (setSess s fn x).regs = s.regs := by cases fn <;> rfl
@[simp] theorem setSess_rings (s : State) (fn : Fn) (x : Sess) : (setSess s fn x).rings = s.rings := by cases fn <;> rfl
@[simp] theorem setSess_cmds (s : State) (fn : Fn) (x : Sess) : (setSess s fn x).cmds = s.cmds := by cases fn <;> rfl
@[simp] theorem setSess_fetchedLog (s : State) (fn : Fn) (x : Sess) : (setSess s fn x).fetchedLog = s.fetchedLog := by cases fn <;> rfl
@[simp] theorem setSess_nextCmd (s : State) (fn : Fn) (x : Sess) : (setSess s fn x).nextCmd = s.nextCmd := by cases fn <;> rfl
@[simp] theorem setSess_turns (s : State) (fn : Fn) (x : Sess) : (setSess s fn x).turns = s.turns := by cases fn <;> rfl
@[simp] theorem setSess_heldOut (s : State) (fn : Fn) (x : Sess) : (setSess s fn x).heldOut = s.heldOut := by cases fn <;> rfl
@[simp] theorem setSess_store (s : State) (fn : Fn) (x : Sess) : (setSess s fn x).store = s.store := by cases fn <;> rfl
@[simp] theorem setSess_dram (s : State) (fn : Fn) (x : Sess) : (setSess s fn x).dram = s.dram := by cases fn <;> rfl
@[simp] theorem setSess_nand (s : State) (fn : Fn) (x : Sess) : (setSess s fn x).nand = s.nand := by cases fn <;> rfl
@[simp] theorem setSess_work (s : State) (fn : Fn) (x : Sess) : (setSess s fn x).work = s.work := by cases fn <;> rfl
@[simp] theorem setSess_listen (s : State) (fn : Fn) (x : Sess) : (setSess s fn x).listen = s.listen := by cases fn <;> rfl
@[simp] theorem setSess_cam0 (s : State) (fn : Fn) (x : Sess) : (setSess s fn x).cam0 = s.cam0 := by cases fn <;> rfl
@[simp] theorem setSess_cam1 (s : State) (fn : Fn) (x : Sess) : (setSess s fn x).cam1 = s.cam1 := by cases fn <;> rfl
@[simp] theorem setSess_power (s : State) (fn : Fn) (x : Sess) : (setSess s fn x).power = s.power := by cases fn <;> rfl
@[simp] theorem setSess_fault (s : State) (fn : Fn) (x : Sess) : (setSess s fn x).fault = s.fault := by cases fn <;> rfl
@[simp] theorem setSess_obs (s : State) (fn : Fn) (x : Sess) : (setSess s fn x).obs = s.obs := by cases fn <;> rfl
@[simp] theorem setSess_group (s : State) (fn : Fn) (x : Sess) : (setSess s fn x).group = s.group := by cases fn <;> rfl
@[simp] theorem setSess_i3c (s : State) (fn : Fn) (x : Sess) : (setSess s fn x).i3c = s.i3c := by cases fn <;> rfl
@[simp] theorem setSess_fw (s : State) (fn : Fn) (x : Sess) : (setSess s fn x).fw = s.fw := by cases fn <;> rfl
@[simp] theorem setSess_root (s : State) (fn : Fn) (x : Sess) : (setSess s fn x).root = s.root := by cases fn <;> rfl
@[simp] theorem setSess_freeCtr (s : State) (fn : Fn) (x : Sess) : (setSess s fn x).freeCtr = s.freeCtr := by cases fn <;> rfl
@[simp] theorem setSess_pending (s : State) (fn : Fn) (x : Sess) : (setSess s fn x).pending = s.pending := by cases fn <;> rfl

@[simp] theorem setCmd_fuse (s : State) (c : Cmd) : (setCmd s c).fuse = s.fuse := rfl
@[simp] theorem setCmd_boot (s : State) (c : Cmd) : (setCmd s c).boot = s.boot := rfl
@[simp] theorem setCmd_stb (s : State) (c : Cmd) : (setCmd s c).stb = s.stb := rfl
@[simp] theorem setCmd_mirrors (s : State) (c : Cmd) : (setCmd s c).mirrors = s.mirrors := rfl
@[simp] theorem setCmd_custody (s : State) (c : Cmd) : (setCmd s c).custody = s.custody := rfl
@[simp] theorem setCmd_dlink (s : State) (c : Cmd) : (setCmd s c).dlink = s.dlink := rfl
@[simp] theorem setCmd_pcie (s : State) (c : Cmd) : (setCmd s c).pcie = s.pcie := rfl
@[simp] theorem setCmd_pins (s : State) (c : Cmd) : (setCmd s c).pins = s.pins := rfl
@[simp] theorem setCmd_regs (s : State) (c : Cmd) : (setCmd s c).regs = s.regs := rfl
@[simp] theorem setCmd_rings (s : State) (c : Cmd) : (setCmd s c).rings = s.rings := rfl
@[simp] theorem setCmd_sess0 (s : State) (c : Cmd) : (setCmd s c).sess0 = s.sess0 := rfl
@[simp] theorem setCmd_sess1 (s : State) (c : Cmd) : (setCmd s c).sess1 = s.sess1 := rfl
@[simp] theorem setCmd_fetchedLog (s : State) (c : Cmd) : (setCmd s c).fetchedLog = s.fetchedLog := rfl
@[simp] theorem setCmd_nextCmd (s : State) (c : Cmd) : (setCmd s c).nextCmd = s.nextCmd := rfl
@[simp] theorem setCmd_turns (s : State) (c : Cmd) : (setCmd s c).turns = s.turns := rfl
@[simp] theorem setCmd_heldOut (s : State) (c : Cmd) : (setCmd s c).heldOut = s.heldOut := rfl
@[simp] theorem setCmd_store (s : State) (c : Cmd) : (setCmd s c).store = s.store := rfl
@[simp] theorem setCmd_dram (s : State) (c : Cmd) : (setCmd s c).dram = s.dram := rfl
@[simp] theorem setCmd_nand (s : State) (c : Cmd) : (setCmd s c).nand = s.nand := rfl
@[simp] theorem setCmd_work (s : State) (c : Cmd) : (setCmd s c).work = s.work := rfl
@[simp] theorem setCmd_listen (s : State) (c : Cmd) : (setCmd s c).listen = s.listen := rfl
@[simp] theorem setCmd_cam0 (s : State) (c : Cmd) : (setCmd s c).cam0 = s.cam0 := rfl
@[simp] theorem setCmd_cam1 (s : State) (c : Cmd) : (setCmd s c).cam1 = s.cam1 := rfl
@[simp] theorem setCmd_power (s : State) (c : Cmd) : (setCmd s c).power = s.power := rfl
@[simp] theorem setCmd_fault (s : State) (c : Cmd) : (setCmd s c).fault = s.fault := rfl
@[simp] theorem setCmd_obs (s : State) (c : Cmd) : (setCmd s c).obs = s.obs := rfl
@[simp] theorem setCmd_group (s : State) (c : Cmd) : (setCmd s c).group = s.group := rfl
@[simp] theorem setCmd_i3c (s : State) (c : Cmd) : (setCmd s c).i3c = s.i3c := rfl
@[simp] theorem setCmd_fw (s : State) (c : Cmd) : (setCmd s c).fw = s.fw := rfl
@[simp] theorem setCmd_root (s : State) (c : Cmd) : (setCmd s c).root = s.root := rfl
@[simp] theorem setCmd_freeCtr (s : State) (c : Cmd) : (setCmd s c).freeCtr = s.freeCtr := rfl
@[simp] theorem setCmd_pending (s : State) (c : Cmd) : (setCmd s c).pending = s.pending := rfl

@[simp] theorem dropCmd_fuse (s : State) (id : Nat) : (dropCmd s id).fuse = s.fuse := rfl
@[simp] theorem dropCmd_boot (s : State) (id : Nat) : (dropCmd s id).boot = s.boot := rfl
@[simp] theorem dropCmd_stb (s : State) (id : Nat) : (dropCmd s id).stb = s.stb := rfl
@[simp] theorem dropCmd_mirrors (s : State) (id : Nat) : (dropCmd s id).mirrors = s.mirrors := rfl
@[simp] theorem dropCmd_custody (s : State) (id : Nat) : (dropCmd s id).custody = s.custody := rfl
@[simp] theorem dropCmd_dlink (s : State) (id : Nat) : (dropCmd s id).dlink = s.dlink := rfl
@[simp] theorem dropCmd_pcie (s : State) (id : Nat) : (dropCmd s id).pcie = s.pcie := rfl
@[simp] theorem dropCmd_pins (s : State) (id : Nat) : (dropCmd s id).pins = s.pins := rfl
@[simp] theorem dropCmd_regs (s : State) (id : Nat) : (dropCmd s id).regs = s.regs := rfl
@[simp] theorem dropCmd_rings (s : State) (id : Nat) : (dropCmd s id).rings = s.rings := rfl
@[simp] theorem dropCmd_sess0 (s : State) (id : Nat) : (dropCmd s id).sess0 = s.sess0 := rfl
@[simp] theorem dropCmd_sess1 (s : State) (id : Nat) : (dropCmd s id).sess1 = s.sess1 := rfl
@[simp] theorem dropCmd_fetchedLog (s : State) (id : Nat) : (dropCmd s id).fetchedLog = s.fetchedLog := rfl
@[simp] theorem dropCmd_nextCmd (s : State) (id : Nat) : (dropCmd s id).nextCmd = s.nextCmd := rfl
@[simp] theorem dropCmd_turns (s : State) (id : Nat) : (dropCmd s id).turns = s.turns := rfl
@[simp] theorem dropCmd_heldOut (s : State) (id : Nat) : (dropCmd s id).heldOut = s.heldOut := rfl
@[simp] theorem dropCmd_store (s : State) (id : Nat) : (dropCmd s id).store = s.store := rfl
@[simp] theorem dropCmd_dram (s : State) (id : Nat) : (dropCmd s id).dram = s.dram := rfl
@[simp] theorem dropCmd_nand (s : State) (id : Nat) : (dropCmd s id).nand = s.nand := rfl
@[simp] theorem dropCmd_work (s : State) (id : Nat) : (dropCmd s id).work = s.work := rfl
@[simp] theorem dropCmd_listen (s : State) (id : Nat) : (dropCmd s id).listen = s.listen := rfl
@[simp] theorem dropCmd_cam0 (s : State) (id : Nat) : (dropCmd s id).cam0 = s.cam0 := rfl
@[simp] theorem dropCmd_cam1 (s : State) (id : Nat) : (dropCmd s id).cam1 = s.cam1 := rfl
@[simp] theorem dropCmd_power (s : State) (id : Nat) : (dropCmd s id).power = s.power := rfl
@[simp] theorem dropCmd_fault (s : State) (id : Nat) : (dropCmd s id).fault = s.fault := rfl
@[simp] theorem dropCmd_obs (s : State) (id : Nat) : (dropCmd s id).obs = s.obs := rfl
@[simp] theorem dropCmd_group (s : State) (id : Nat) : (dropCmd s id).group = s.group := rfl
@[simp] theorem dropCmd_i3c (s : State) (id : Nat) : (dropCmd s id).i3c = s.i3c := rfl
@[simp] theorem dropCmd_fw (s : State) (id : Nat) : (dropCmd s id).fw = s.fw := rfl
@[simp] theorem dropCmd_root (s : State) (id : Nat) : (dropCmd s id).root = s.root := rfl
@[simp] theorem dropCmd_freeCtr (s : State) (id : Nat) : (dropCmd s id).freeCtr = s.freeCtr := rfl
@[simp] theorem dropCmd_pending (s : State) (id : Nat) : (dropCmd s id).pending = s.pending := rfl

@[simp] theorem park_fuse (s : State) (c : Cmd) (w : Wait) : (park s c w).fuse = s.fuse := rfl
@[simp] theorem park_boot (s : State) (c : Cmd) (w : Wait) : (park s c w).boot = s.boot := rfl
@[simp] theorem park_stb (s : State) (c : Cmd) (w : Wait) : (park s c w).stb = s.stb := rfl
@[simp] theorem park_mirrors (s : State) (c : Cmd) (w : Wait) : (park s c w).mirrors = s.mirrors := rfl
@[simp] theorem park_custody (s : State) (c : Cmd) (w : Wait) : (park s c w).custody = s.custody := rfl
@[simp] theorem park_dlink (s : State) (c : Cmd) (w : Wait) : (park s c w).dlink = s.dlink := rfl
@[simp] theorem park_pcie (s : State) (c : Cmd) (w : Wait) : (park s c w).pcie = s.pcie := rfl
@[simp] theorem park_pins (s : State) (c : Cmd) (w : Wait) : (park s c w).pins = s.pins := rfl
@[simp] theorem park_regs (s : State) (c : Cmd) (w : Wait) : (park s c w).regs = s.regs := rfl
@[simp] theorem park_rings (s : State) (c : Cmd) (w : Wait) : (park s c w).rings = s.rings := rfl
@[simp] theorem park_sess0 (s : State) (c : Cmd) (w : Wait) : (park s c w).sess0 = s.sess0 := rfl
@[simp] theorem park_sess1 (s : State) (c : Cmd) (w : Wait) : (park s c w).sess1 = s.sess1 := rfl
@[simp] theorem park_fetchedLog (s : State) (c : Cmd) (w : Wait) : (park s c w).fetchedLog = s.fetchedLog := rfl
@[simp] theorem park_nextCmd (s : State) (c : Cmd) (w : Wait) : (park s c w).nextCmd = s.nextCmd := rfl
@[simp] theorem park_turns (s : State) (c : Cmd) (w : Wait) : (park s c w).turns = s.turns := rfl
@[simp] theorem park_heldOut (s : State) (c : Cmd) (w : Wait) : (park s c w).heldOut = s.heldOut := rfl
@[simp] theorem park_store (s : State) (c : Cmd) (w : Wait) : (park s c w).store = s.store := rfl
@[simp] theorem park_dram (s : State) (c : Cmd) (w : Wait) : (park s c w).dram = s.dram := rfl
@[simp] theorem park_nand (s : State) (c : Cmd) (w : Wait) : (park s c w).nand = s.nand := rfl
@[simp] theorem park_work (s : State) (c : Cmd) (w : Wait) : (park s c w).work = s.work := rfl
@[simp] theorem park_listen (s : State) (c : Cmd) (w : Wait) : (park s c w).listen = s.listen := rfl
@[simp] theorem park_cam0 (s : State) (c : Cmd) (w : Wait) : (park s c w).cam0 = s.cam0 := rfl
@[simp] theorem park_cam1 (s : State) (c : Cmd) (w : Wait) : (park s c w).cam1 = s.cam1 := rfl
@[simp] theorem park_power (s : State) (c : Cmd) (w : Wait) : (park s c w).power = s.power := rfl
@[simp] theorem park_fault (s : State) (c : Cmd) (w : Wait) : (park s c w).fault = s.fault := rfl
@[simp] theorem park_obs (s : State) (c : Cmd) (w : Wait) : (park s c w).obs = s.obs := rfl
@[simp] theorem park_group (s : State) (c : Cmd) (w : Wait) : (park s c w).group = s.group := rfl
@[simp] theorem park_i3c (s : State) (c : Cmd) (w : Wait) : (park s c w).i3c = s.i3c := rfl
@[simp] theorem park_fw (s : State) (c : Cmd) (w : Wait) : (park s c w).fw = s.fw := rfl
@[simp] theorem park_root (s : State) (c : Cmd) (w : Wait) : (park s c w).root = s.root := rfl
@[simp] theorem park_freeCtr (s : State) (c : Cmd) (w : Wait) : (park s c w).freeCtr = s.freeCtr := rfl
@[simp] theorem park_pending (s : State) (c : Cmd) (w : Wait) : (park s c w).pending = s.pending := rfl

@[simp] theorem hostWrite_fuse (s : State) (a : Nat) (bs : List Byte) : (hostWrite s a bs).fuse = s.fuse := rfl
@[simp] theorem hostWrite_boot (s : State) (a : Nat) (bs : List Byte) : (hostWrite s a bs).boot = s.boot := rfl
@[simp] theorem hostWrite_stb (s : State) (a : Nat) (bs : List Byte) : (hostWrite s a bs).stb = s.stb := rfl
@[simp] theorem hostWrite_mirrors (s : State) (a : Nat) (bs : List Byte) : (hostWrite s a bs).mirrors = s.mirrors := rfl
@[simp] theorem hostWrite_custody (s : State) (a : Nat) (bs : List Byte) : (hostWrite s a bs).custody = s.custody := rfl
@[simp] theorem hostWrite_dlink (s : State) (a : Nat) (bs : List Byte) : (hostWrite s a bs).dlink = s.dlink := rfl
@[simp] theorem hostWrite_pcie (s : State) (a : Nat) (bs : List Byte) : (hostWrite s a bs).pcie = s.pcie := rfl
@[simp] theorem hostWrite_pins (s : State) (a : Nat) (bs : List Byte) : (hostWrite s a bs).pins = s.pins := rfl
@[simp] theorem hostWrite_regs (s : State) (a : Nat) (bs : List Byte) : (hostWrite s a bs).regs = s.regs := rfl
@[simp] theorem hostWrite_rings (s : State) (a : Nat) (bs : List Byte) : (hostWrite s a bs).rings = s.rings := rfl
@[simp] theorem hostWrite_sess0 (s : State) (a : Nat) (bs : List Byte) : (hostWrite s a bs).sess0 = s.sess0 := rfl
@[simp] theorem hostWrite_sess1 (s : State) (a : Nat) (bs : List Byte) : (hostWrite s a bs).sess1 = s.sess1 := rfl
@[simp] theorem hostWrite_cmds (s : State) (a : Nat) (bs : List Byte) : (hostWrite s a bs).cmds = s.cmds := rfl
@[simp] theorem hostWrite_fetchedLog (s : State) (a : Nat) (bs : List Byte) : (hostWrite s a bs).fetchedLog = s.fetchedLog := rfl
@[simp] theorem hostWrite_nextCmd (s : State) (a : Nat) (bs : List Byte) : (hostWrite s a bs).nextCmd = s.nextCmd := rfl
@[simp] theorem hostWrite_turns (s : State) (a : Nat) (bs : List Byte) : (hostWrite s a bs).turns = s.turns := rfl
@[simp] theorem hostWrite_heldOut (s : State) (a : Nat) (bs : List Byte) : (hostWrite s a bs).heldOut = s.heldOut := rfl
@[simp] theorem hostWrite_dram (s : State) (a : Nat) (bs : List Byte) : (hostWrite s a bs).dram = s.dram := rfl
@[simp] theorem hostWrite_nand (s : State) (a : Nat) (bs : List Byte) : (hostWrite s a bs).nand = s.nand := rfl
@[simp] theorem hostWrite_work (s : State) (a : Nat) (bs : List Byte) : (hostWrite s a bs).work = s.work := rfl
@[simp] theorem hostWrite_listen (s : State) (a : Nat) (bs : List Byte) : (hostWrite s a bs).listen = s.listen := rfl
@[simp] theorem hostWrite_cam0 (s : State) (a : Nat) (bs : List Byte) : (hostWrite s a bs).cam0 = s.cam0 := rfl
@[simp] theorem hostWrite_cam1 (s : State) (a : Nat) (bs : List Byte) : (hostWrite s a bs).cam1 = s.cam1 := rfl
@[simp] theorem hostWrite_power (s : State) (a : Nat) (bs : List Byte) : (hostWrite s a bs).power = s.power := rfl
@[simp] theorem hostWrite_fault (s : State) (a : Nat) (bs : List Byte) : (hostWrite s a bs).fault = s.fault := rfl
@[simp] theorem hostWrite_obs (s : State) (a : Nat) (bs : List Byte) : (hostWrite s a bs).obs = s.obs := rfl
@[simp] theorem hostWrite_group (s : State) (a : Nat) (bs : List Byte) : (hostWrite s a bs).group = s.group := rfl
@[simp] theorem hostWrite_i3c (s : State) (a : Nat) (bs : List Byte) : (hostWrite s a bs).i3c = s.i3c := rfl
@[simp] theorem hostWrite_fw (s : State) (a : Nat) (bs : List Byte) : (hostWrite s a bs).fw = s.fw := rfl
@[simp] theorem hostWrite_root (s : State) (a : Nat) (bs : List Byte) : (hostWrite s a bs).root = s.root := rfl
@[simp] theorem hostWrite_freeCtr (s : State) (a : Nat) (bs : List Byte) : (hostWrite s a bs).freeCtr = s.freeCtr := rfl
@[simp] theorem hostWrite_pending (s : State) (a : Nat) (bs : List Byte) : (hostWrite s a bs).pending = s.pending := rfl

@[simp] theorem writeWord_fuse (s : State) (r : Nat) : (writeWord s r).fuse = s.fuse := rfl
@[simp] theorem writeWord_boot (s : State) (r : Nat) : (writeWord s r).boot = s.boot := rfl
@[simp] theorem writeWord_stb (s : State) (r : Nat) : (writeWord s r).stb = s.stb := rfl
@[simp] theorem writeWord_mirrors (s : State) (r : Nat) : (writeWord s r).mirrors = s.mirrors := rfl
@[simp] theorem writeWord_custody (s : State) (r : Nat) : (writeWord s r).custody = s.custody := rfl
@[simp] theorem writeWord_dlink (s : State) (r : Nat) : (writeWord s r).dlink = s.dlink := rfl
@[simp] theorem writeWord_pcie (s : State) (r : Nat) : (writeWord s r).pcie = s.pcie := rfl
@[simp] theorem writeWord_pins (s : State) (r : Nat) : (writeWord s r).pins = s.pins := rfl
@[simp] theorem writeWord_regs (s : State) (r : Nat) : (writeWord s r).regs = s.regs := rfl
@[simp] theorem writeWord_rings (s : State) (r : Nat) : (writeWord s r).rings = s.rings := rfl
@[simp] theorem writeWord_sess0 (s : State) (r : Nat) : (writeWord s r).sess0 = s.sess0 := rfl
@[simp] theorem writeWord_sess1 (s : State) (r : Nat) : (writeWord s r).sess1 = s.sess1 := rfl
@[simp] theorem writeWord_cmds (s : State) (r : Nat) : (writeWord s r).cmds = s.cmds := rfl
@[simp] theorem writeWord_fetchedLog (s : State) (r : Nat) : (writeWord s r).fetchedLog = s.fetchedLog := rfl
@[simp] theorem writeWord_nextCmd (s : State) (r : Nat) : (writeWord s r).nextCmd = s.nextCmd := rfl
@[simp] theorem writeWord_turns (s : State) (r : Nat) : (writeWord s r).turns = s.turns := rfl
@[simp] theorem writeWord_heldOut (s : State) (r : Nat) : (writeWord s r).heldOut = s.heldOut := rfl
@[simp] theorem writeWord_dram (s : State) (r : Nat) : (writeWord s r).dram = s.dram := rfl
@[simp] theorem writeWord_nand (s : State) (r : Nat) : (writeWord s r).nand = s.nand := rfl
@[simp] theorem writeWord_work (s : State) (r : Nat) : (writeWord s r).work = s.work := rfl
@[simp] theorem writeWord_listen (s : State) (r : Nat) : (writeWord s r).listen = s.listen := rfl
@[simp] theorem writeWord_cam0 (s : State) (r : Nat) : (writeWord s r).cam0 = s.cam0 := rfl
@[simp] theorem writeWord_cam1 (s : State) (r : Nat) : (writeWord s r).cam1 = s.cam1 := rfl
@[simp] theorem writeWord_power (s : State) (r : Nat) : (writeWord s r).power = s.power := rfl
@[simp] theorem writeWord_fault (s : State) (r : Nat) : (writeWord s r).fault = s.fault := rfl
@[simp] theorem writeWord_obs (s : State) (r : Nat) : (writeWord s r).obs = s.obs := rfl
@[simp] theorem writeWord_group (s : State) (r : Nat) : (writeWord s r).group = s.group := rfl
@[simp] theorem writeWord_i3c (s : State) (r : Nat) : (writeWord s r).i3c = s.i3c := rfl
@[simp] theorem writeWord_fw (s : State) (r : Nat) : (writeWord s r).fw = s.fw := rfl
@[simp] theorem writeWord_root (s : State) (r : Nat) : (writeWord s r).root = s.root := rfl
@[simp] theorem writeWord_freeCtr (s : State) (r : Nat) : (writeWord s r).freeCtr = s.freeCtr := rfl
@[simp] theorem writeWord_pending (s : State) (r : Nat) : (writeWord s r).pending = s.pending := rfl

@[simp] theorem forgetRing_fuse (s : State) (rn : Nat) : (forgetRing s rn).fuse = s.fuse := rfl
@[simp] theorem forgetRing_boot (s : State) (rn : Nat) : (forgetRing s rn).boot = s.boot := rfl
@[simp] theorem forgetRing_stb (s : State) (rn : Nat) : (forgetRing s rn).stb = s.stb := rfl
@[simp] theorem forgetRing_mirrors (s : State) (rn : Nat) : (forgetRing s rn).mirrors = s.mirrors := rfl
@[simp] theorem forgetRing_custody (s : State) (rn : Nat) : (forgetRing s rn).custody = s.custody := rfl
@[simp] theorem forgetRing_dlink (s : State) (rn : Nat) : (forgetRing s rn).dlink = s.dlink := rfl
@[simp] theorem forgetRing_pcie (s : State) (rn : Nat) : (forgetRing s rn).pcie = s.pcie := rfl
@[simp] theorem forgetRing_pins (s : State) (rn : Nat) : (forgetRing s rn).pins = s.pins := rfl
@[simp] theorem forgetRing_regs (s : State) (rn : Nat) : (forgetRing s rn).regs = s.regs := rfl
@[simp] theorem forgetRing_rings (s : State) (rn : Nat) : (forgetRing s rn).rings = s.rings := rfl
@[simp] theorem forgetRing_sess0 (s : State) (rn : Nat) : (forgetRing s rn).sess0 = s.sess0 := rfl
@[simp] theorem forgetRing_sess1 (s : State) (rn : Nat) : (forgetRing s rn).sess1 = s.sess1 := rfl
@[simp] theorem forgetRing_cmds (s : State) (rn : Nat) : (forgetRing s rn).cmds = s.cmds := rfl
@[simp] theorem forgetRing_nextCmd (s : State) (rn : Nat) : (forgetRing s rn).nextCmd = s.nextCmd := rfl
@[simp] theorem forgetRing_turns (s : State) (rn : Nat) : (forgetRing s rn).turns = s.turns := rfl
@[simp] theorem forgetRing_heldOut (s : State) (rn : Nat) : (forgetRing s rn).heldOut = s.heldOut := rfl
@[simp] theorem forgetRing_store (s : State) (rn : Nat) : (forgetRing s rn).store = s.store := rfl
@[simp] theorem forgetRing_dram (s : State) (rn : Nat) : (forgetRing s rn).dram = s.dram := rfl
@[simp] theorem forgetRing_nand (s : State) (rn : Nat) : (forgetRing s rn).nand = s.nand := rfl
@[simp] theorem forgetRing_work (s : State) (rn : Nat) : (forgetRing s rn).work = s.work := rfl
@[simp] theorem forgetRing_listen (s : State) (rn : Nat) : (forgetRing s rn).listen = s.listen := rfl
@[simp] theorem forgetRing_cam0 (s : State) (rn : Nat) : (forgetRing s rn).cam0 = s.cam0 := rfl
@[simp] theorem forgetRing_cam1 (s : State) (rn : Nat) : (forgetRing s rn).cam1 = s.cam1 := rfl
@[simp] theorem forgetRing_power (s : State) (rn : Nat) : (forgetRing s rn).power = s.power := rfl
@[simp] theorem forgetRing_fault (s : State) (rn : Nat) : (forgetRing s rn).fault = s.fault := rfl
@[simp] theorem forgetRing_obs (s : State) (rn : Nat) : (forgetRing s rn).obs = s.obs := rfl
@[simp] theorem forgetRing_group (s : State) (rn : Nat) : (forgetRing s rn).group = s.group := rfl
@[simp] theorem forgetRing_i3c (s : State) (rn : Nat) : (forgetRing s rn).i3c = s.i3c := rfl
@[simp] theorem forgetRing_fw (s : State) (rn : Nat) : (forgetRing s rn).fw = s.fw := rfl
@[simp] theorem forgetRing_root (s : State) (rn : Nat) : (forgetRing s rn).root = s.root := rfl
@[simp] theorem forgetRing_freeCtr (s : State) (rn : Nat) : (forgetRing s rn).freeCtr = s.freeCtr := rfl
@[simp] theorem forgetRing_pending (s : State) (rn : Nat) : (forgetRing s rn).pending = s.pending := rfl

@[simp] theorem answer_fuse (s : State) (bs : List Byte) : (answer s bs).fuse = s.fuse := rfl
@[simp] theorem answer_boot (s : State) (bs : List Byte) : (answer s bs).boot = s.boot := rfl
@[simp] theorem answer_stb (s : State) (bs : List Byte) : (answer s bs).stb = s.stb := rfl
@[simp] theorem answer_mirrors (s : State) (bs : List Byte) : (answer s bs).mirrors = s.mirrors := rfl
@[simp] theorem answer_custody (s : State) (bs : List Byte) : (answer s bs).custody = s.custody := rfl
@[simp] theorem answer_dlink (s : State) (bs : List Byte) : (answer s bs).dlink = s.dlink := rfl
@[simp] theorem answer_pcie (s : State) (bs : List Byte) : (answer s bs).pcie = s.pcie := rfl
@[simp] theorem answer_pins (s : State) (bs : List Byte) : (answer s bs).pins = s.pins := rfl
@[simp] theorem answer_rings (s : State) (bs : List Byte) : (answer s bs).rings = s.rings := rfl
@[simp] theorem answer_sess0 (s : State) (bs : List Byte) : (answer s bs).sess0 = s.sess0 := rfl
@[simp] theorem answer_sess1 (s : State) (bs : List Byte) : (answer s bs).sess1 = s.sess1 := rfl
@[simp] theorem answer_cmds (s : State) (bs : List Byte) : (answer s bs).cmds = s.cmds := rfl
@[simp] theorem answer_fetchedLog (s : State) (bs : List Byte) : (answer s bs).fetchedLog = s.fetchedLog := rfl
@[simp] theorem answer_nextCmd (s : State) (bs : List Byte) : (answer s bs).nextCmd = s.nextCmd := rfl
@[simp] theorem answer_turns (s : State) (bs : List Byte) : (answer s bs).turns = s.turns := rfl
@[simp] theorem answer_heldOut (s : State) (bs : List Byte) : (answer s bs).heldOut = s.heldOut := rfl
@[simp] theorem answer_store (s : State) (bs : List Byte) : (answer s bs).store = s.store := rfl
@[simp] theorem answer_dram (s : State) (bs : List Byte) : (answer s bs).dram = s.dram := rfl
@[simp] theorem answer_nand (s : State) (bs : List Byte) : (answer s bs).nand = s.nand := rfl
@[simp] theorem answer_work (s : State) (bs : List Byte) : (answer s bs).work = s.work := rfl
@[simp] theorem answer_listen (s : State) (bs : List Byte) : (answer s bs).listen = s.listen := rfl
@[simp] theorem answer_cam0 (s : State) (bs : List Byte) : (answer s bs).cam0 = s.cam0 := rfl
@[simp] theorem answer_cam1 (s : State) (bs : List Byte) : (answer s bs).cam1 = s.cam1 := rfl
@[simp] theorem answer_power (s : State) (bs : List Byte) : (answer s bs).power = s.power := rfl
@[simp] theorem answer_fault (s : State) (bs : List Byte) : (answer s bs).fault = s.fault := rfl
@[simp] theorem answer_obs (s : State) (bs : List Byte) : (answer s bs).obs = s.obs := rfl
@[simp] theorem answer_group (s : State) (bs : List Byte) : (answer s bs).group = s.group := rfl
@[simp] theorem answer_i3c (s : State) (bs : List Byte) : (answer s bs).i3c = s.i3c := rfl
@[simp] theorem answer_fw (s : State) (bs : List Byte) : (answer s bs).fw = s.fw := rfl
@[simp] theorem answer_root (s : State) (bs : List Byte) : (answer s bs).root = s.root := rfl
@[simp] theorem answer_freeCtr (s : State) (bs : List Byte) : (answer s bs).freeCtr = s.freeCtr := rfl
@[simp] theorem answer_pending (s : State) (bs : List Byte) : (answer s bs).pending = s.pending := rfl

@[simp] theorem countUp_fuse (s : State) (id inst n : Nat) : (countUp s id inst n).fuse = s.fuse := rfl
@[simp] theorem countUp_boot (s : State) (id inst n : Nat) : (countUp s id inst n).boot = s.boot := rfl
@[simp] theorem countUp_stb (s : State) (id inst n : Nat) : (countUp s id inst n).stb = s.stb := rfl
@[simp] theorem countUp_mirrors (s : State) (id inst n : Nat) : (countUp s id inst n).mirrors = s.mirrors := rfl
@[simp] theorem countUp_custody (s : State) (id inst n : Nat) : (countUp s id inst n).custody = s.custody := rfl
@[simp] theorem countUp_dlink (s : State) (id inst n : Nat) : (countUp s id inst n).dlink = s.dlink := rfl
@[simp] theorem countUp_pcie (s : State) (id inst n : Nat) : (countUp s id inst n).pcie = s.pcie := rfl
@[simp] theorem countUp_pins (s : State) (id inst n : Nat) : (countUp s id inst n).pins = s.pins := rfl
@[simp] theorem countUp_regs (s : State) (id inst n : Nat) : (countUp s id inst n).regs = s.regs := rfl
@[simp] theorem countUp_rings (s : State) (id inst n : Nat) : (countUp s id inst n).rings = s.rings := rfl
@[simp] theorem countUp_sess0 (s : State) (id inst n : Nat) : (countUp s id inst n).sess0 = s.sess0 := rfl
@[simp] theorem countUp_sess1 (s : State) (id inst n : Nat) : (countUp s id inst n).sess1 = s.sess1 := rfl
@[simp] theorem countUp_cmds (s : State) (id inst n : Nat) : (countUp s id inst n).cmds = s.cmds := rfl
@[simp] theorem countUp_fetchedLog (s : State) (id inst n : Nat) : (countUp s id inst n).fetchedLog = s.fetchedLog := rfl
@[simp] theorem countUp_nextCmd (s : State) (id inst n : Nat) : (countUp s id inst n).nextCmd = s.nextCmd := rfl
@[simp] theorem countUp_turns (s : State) (id inst n : Nat) : (countUp s id inst n).turns = s.turns := rfl
@[simp] theorem countUp_heldOut (s : State) (id inst n : Nat) : (countUp s id inst n).heldOut = s.heldOut := rfl
@[simp] theorem countUp_store (s : State) (id inst n : Nat) : (countUp s id inst n).store = s.store := rfl
@[simp] theorem countUp_dram (s : State) (id inst n : Nat) : (countUp s id inst n).dram = s.dram := rfl
@[simp] theorem countUp_nand (s : State) (id inst n : Nat) : (countUp s id inst n).nand = s.nand := rfl
@[simp] theorem countUp_work (s : State) (id inst n : Nat) : (countUp s id inst n).work = s.work := rfl
@[simp] theorem countUp_listen (s : State) (id inst n : Nat) : (countUp s id inst n).listen = s.listen := rfl
@[simp] theorem countUp_cam0 (s : State) (id inst n : Nat) : (countUp s id inst n).cam0 = s.cam0 := rfl
@[simp] theorem countUp_cam1 (s : State) (id inst n : Nat) : (countUp s id inst n).cam1 = s.cam1 := rfl
@[simp] theorem countUp_power (s : State) (id inst n : Nat) : (countUp s id inst n).power = s.power := rfl
@[simp] theorem countUp_fault (s : State) (id inst n : Nat) : (countUp s id inst n).fault = s.fault := rfl
@[simp] theorem countUp_group (s : State) (id inst n : Nat) : (countUp s id inst n).group = s.group := rfl
@[simp] theorem countUp_i3c (s : State) (id inst n : Nat) : (countUp s id inst n).i3c = s.i3c := rfl
@[simp] theorem countUp_fw (s : State) (id inst n : Nat) : (countUp s id inst n).fw = s.fw := rfl
@[simp] theorem countUp_root (s : State) (id inst n : Nat) : (countUp s id inst n).root = s.root := rfl
@[simp] theorem countUp_freeCtr (s : State) (id inst n : Nat) : (countUp s id inst n).freeCtr = s.freeCtr := rfl
@[simp] theorem countUp_pending (s : State) (id inst n : Nat) : (countUp s id inst n).pending = s.pending := rfl

@[simp] theorem setMirror_fuse (s : State) (m : Mirror) : (setMirror s m).fuse = s.fuse := rfl
@[simp] theorem setMirror_boot (s : State) (m : Mirror) : (setMirror s m).boot = s.boot := rfl
@[simp] theorem setMirror_stb (s : State) (m : Mirror) : (setMirror s m).stb = s.stb := rfl
@[simp] theorem setMirror_custody (s : State) (m : Mirror) : (setMirror s m).custody = s.custody := rfl
@[simp] theorem setMirror_dlink (s : State) (m : Mirror) : (setMirror s m).dlink = s.dlink := rfl
@[simp] theorem setMirror_pcie (s : State) (m : Mirror) : (setMirror s m).pcie = s.pcie := rfl
@[simp] theorem setMirror_pins (s : State) (m : Mirror) : (setMirror s m).pins = s.pins := rfl
@[simp] theorem setMirror_regs (s : State) (m : Mirror) : (setMirror s m).regs = s.regs := rfl
@[simp] theorem setMirror_rings (s : State) (m : Mirror) : (setMirror s m).rings = s.rings := rfl
@[simp] theorem setMirror_sess0 (s : State) (m : Mirror) : (setMirror s m).sess0 = s.sess0 := rfl
@[simp] theorem setMirror_sess1 (s : State) (m : Mirror) : (setMirror s m).sess1 = s.sess1 := rfl
@[simp] theorem setMirror_cmds (s : State) (m : Mirror) : (setMirror s m).cmds = s.cmds := rfl
@[simp] theorem setMirror_fetchedLog (s : State) (m : Mirror) : (setMirror s m).fetchedLog = s.fetchedLog := rfl
@[simp] theorem setMirror_nextCmd (s : State) (m : Mirror) : (setMirror s m).nextCmd = s.nextCmd := rfl
@[simp] theorem setMirror_turns (s : State) (m : Mirror) : (setMirror s m).turns = s.turns := rfl
@[simp] theorem setMirror_heldOut (s : State) (m : Mirror) : (setMirror s m).heldOut = s.heldOut := rfl
@[simp] theorem setMirror_store (s : State) (m : Mirror) : (setMirror s m).store = s.store := rfl
@[simp] theorem setMirror_dram (s : State) (m : Mirror) : (setMirror s m).dram = s.dram := rfl
@[simp] theorem setMirror_nand (s : State) (m : Mirror) : (setMirror s m).nand = s.nand := rfl
@[simp] theorem setMirror_work (s : State) (m : Mirror) : (setMirror s m).work = s.work := rfl
@[simp] theorem setMirror_listen (s : State) (m : Mirror) : (setMirror s m).listen = s.listen := rfl
@[simp] theorem setMirror_cam0 (s : State) (m : Mirror) : (setMirror s m).cam0 = s.cam0 := rfl
@[simp] theorem setMirror_cam1 (s : State) (m : Mirror) : (setMirror s m).cam1 = s.cam1 := rfl
@[simp] theorem setMirror_power (s : State) (m : Mirror) : (setMirror s m).power = s.power := rfl
@[simp] theorem setMirror_fault (s : State) (m : Mirror) : (setMirror s m).fault = s.fault := rfl
@[simp] theorem setMirror_obs (s : State) (m : Mirror) : (setMirror s m).obs = s.obs := rfl
@[simp] theorem setMirror_group (s : State) (m : Mirror) : (setMirror s m).group = s.group := rfl
@[simp] theorem setMirror_i3c (s : State) (m : Mirror) : (setMirror s m).i3c = s.i3c := rfl
@[simp] theorem setMirror_fw (s : State) (m : Mirror) : (setMirror s m).fw = s.fw := rfl
@[simp] theorem setMirror_root (s : State) (m : Mirror) : (setMirror s m).root = s.root := rfl
@[simp] theorem setMirror_freeCtr (s : State) (m : Mirror) : (setMirror s m).freeCtr = s.freeCtr := rfl
@[simp] theorem setMirror_pending (s : State) (m : Mirror) : (setMirror s m).pending = s.pending := rfl

@[simp] theorem updNand_fuse (s : State) (n : Nat) (f : NandCh → NandCh) : (updNand s n f).fuse = s.fuse := rfl
@[simp] theorem updNand_boot (s : State) (n : Nat) (f : NandCh → NandCh) : (updNand s n f).boot = s.boot := rfl
@[simp] theorem updNand_stb (s : State) (n : Nat) (f : NandCh → NandCh) : (updNand s n f).stb = s.stb := rfl
@[simp] theorem updNand_mirrors (s : State) (n : Nat) (f : NandCh → NandCh) : (updNand s n f).mirrors = s.mirrors := rfl
@[simp] theorem updNand_custody (s : State) (n : Nat) (f : NandCh → NandCh) : (updNand s n f).custody = s.custody := rfl
@[simp] theorem updNand_dlink (s : State) (n : Nat) (f : NandCh → NandCh) : (updNand s n f).dlink = s.dlink := rfl
@[simp] theorem updNand_pcie (s : State) (n : Nat) (f : NandCh → NandCh) : (updNand s n f).pcie = s.pcie := rfl
@[simp] theorem updNand_pins (s : State) (n : Nat) (f : NandCh → NandCh) : (updNand s n f).pins = s.pins := rfl
@[simp] theorem updNand_regs (s : State) (n : Nat) (f : NandCh → NandCh) : (updNand s n f).regs = s.regs := rfl
@[simp] theorem updNand_rings (s : State) (n : Nat) (f : NandCh → NandCh) : (updNand s n f).rings = s.rings := rfl
@[simp] theorem updNand_sess0 (s : State) (n : Nat) (f : NandCh → NandCh) : (updNand s n f).sess0 = s.sess0 := rfl
@[simp] theorem updNand_sess1 (s : State) (n : Nat) (f : NandCh → NandCh) : (updNand s n f).sess1 = s.sess1 := rfl
@[simp] theorem updNand_cmds (s : State) (n : Nat) (f : NandCh → NandCh) : (updNand s n f).cmds = s.cmds := rfl
@[simp] theorem updNand_fetchedLog (s : State) (n : Nat) (f : NandCh → NandCh) : (updNand s n f).fetchedLog = s.fetchedLog := rfl
@[simp] theorem updNand_nextCmd (s : State) (n : Nat) (f : NandCh → NandCh) : (updNand s n f).nextCmd = s.nextCmd := rfl
@[simp] theorem updNand_turns (s : State) (n : Nat) (f : NandCh → NandCh) : (updNand s n f).turns = s.turns := rfl
@[simp] theorem updNand_heldOut (s : State) (n : Nat) (f : NandCh → NandCh) : (updNand s n f).heldOut = s.heldOut := rfl
@[simp] theorem updNand_store (s : State) (n : Nat) (f : NandCh → NandCh) : (updNand s n f).store = s.store := rfl
@[simp] theorem updNand_dram (s : State) (n : Nat) (f : NandCh → NandCh) : (updNand s n f).dram = s.dram := rfl
@[simp] theorem updNand_work (s : State) (n : Nat) (f : NandCh → NandCh) : (updNand s n f).work = s.work := rfl
@[simp] theorem updNand_listen (s : State) (n : Nat) (f : NandCh → NandCh) : (updNand s n f).listen = s.listen := rfl
@[simp] theorem updNand_cam0 (s : State) (n : Nat) (f : NandCh → NandCh) : (updNand s n f).cam0 = s.cam0 := rfl
@[simp] theorem updNand_cam1 (s : State) (n : Nat) (f : NandCh → NandCh) : (updNand s n f).cam1 = s.cam1 := rfl
@[simp] theorem updNand_power (s : State) (n : Nat) (f : NandCh → NandCh) : (updNand s n f).power = s.power := rfl
@[simp] theorem updNand_fault (s : State) (n : Nat) (f : NandCh → NandCh) : (updNand s n f).fault = s.fault := rfl
@[simp] theorem updNand_obs (s : State) (n : Nat) (f : NandCh → NandCh) : (updNand s n f).obs = s.obs := rfl
@[simp] theorem updNand_group (s : State) (n : Nat) (f : NandCh → NandCh) : (updNand s n f).group = s.group := rfl
@[simp] theorem updNand_i3c (s : State) (n : Nat) (f : NandCh → NandCh) : (updNand s n f).i3c = s.i3c := rfl
@[simp] theorem updNand_fw (s : State) (n : Nat) (f : NandCh → NandCh) : (updNand s n f).fw = s.fw := rfl
@[simp] theorem updNand_root (s : State) (n : Nat) (f : NandCh → NandCh) : (updNand s n f).root = s.root := rfl
@[simp] theorem updNand_freeCtr (s : State) (n : Nat) (f : NandCh → NandCh) : (updNand s n f).freeCtr = s.freeCtr := rfl
@[simp] theorem updNand_pending (s : State) (n : Nat) (f : NandCh → NandCh) : (updNand s n f).pending = s.pending := rfl

@[simp] theorem setSem_fuse (s : State) (x : Sem) : (setSem s x).fuse = s.fuse := rfl
@[simp] theorem setSem_boot (s : State) (x : Sem) : (setSem s x).boot = s.boot := rfl
@[simp] theorem setSem_stb (s : State) (x : Sem) : (setSem s x).stb = s.stb := rfl
@[simp] theorem setSem_mirrors (s : State) (x : Sem) : (setSem s x).mirrors = s.mirrors := rfl
@[simp] theorem setSem_custody (s : State) (x : Sem) : (setSem s x).custody = s.custody := rfl
@[simp] theorem setSem_dlink (s : State) (x : Sem) : (setSem s x).dlink = s.dlink := rfl
@[simp] theorem setSem_pcie (s : State) (x : Sem) : (setSem s x).pcie = s.pcie := rfl
@[simp] theorem setSem_pins (s : State) (x : Sem) : (setSem s x).pins = s.pins := rfl
@[simp] theorem setSem_regs (s : State) (x : Sem) : (setSem s x).regs = s.regs := rfl
@[simp] theorem setSem_rings (s : State) (x : Sem) : (setSem s x).rings = s.rings := rfl
@[simp] theorem setSem_sess0 (s : State) (x : Sem) : (setSem s x).sess0 = s.sess0 := rfl
@[simp] theorem setSem_sess1 (s : State) (x : Sem) : (setSem s x).sess1 = s.sess1 := rfl
@[simp] theorem setSem_cmds (s : State) (x : Sem) : (setSem s x).cmds = s.cmds := rfl
@[simp] theorem setSem_fetchedLog (s : State) (x : Sem) : (setSem s x).fetchedLog = s.fetchedLog := rfl
@[simp] theorem setSem_nextCmd (s : State) (x : Sem) : (setSem s x).nextCmd = s.nextCmd := rfl
@[simp] theorem setSem_turns (s : State) (x : Sem) : (setSem s x).turns = s.turns := rfl
@[simp] theorem setSem_heldOut (s : State) (x : Sem) : (setSem s x).heldOut = s.heldOut := rfl
@[simp] theorem setSem_store (s : State) (x : Sem) : (setSem s x).store = s.store := rfl
@[simp] theorem setSem_dram (s : State) (x : Sem) : (setSem s x).dram = s.dram := rfl
@[simp] theorem setSem_nand (s : State) (x : Sem) : (setSem s x).nand = s.nand := rfl
@[simp] theorem setSem_listen (s : State) (x : Sem) : (setSem s x).listen = s.listen := rfl
@[simp] theorem setSem_cam0 (s : State) (x : Sem) : (setSem s x).cam0 = s.cam0 := rfl
@[simp] theorem setSem_cam1 (s : State) (x : Sem) : (setSem s x).cam1 = s.cam1 := rfl
@[simp] theorem setSem_power (s : State) (x : Sem) : (setSem s x).power = s.power := rfl
@[simp] theorem setSem_fault (s : State) (x : Sem) : (setSem s x).fault = s.fault := rfl
@[simp] theorem setSem_obs (s : State) (x : Sem) : (setSem s x).obs = s.obs := rfl
@[simp] theorem setSem_group (s : State) (x : Sem) : (setSem s x).group = s.group := rfl
@[simp] theorem setSem_i3c (s : State) (x : Sem) : (setSem s x).i3c = s.i3c := rfl
@[simp] theorem setSem_fw (s : State) (x : Sem) : (setSem s x).fw = s.fw := rfl
@[simp] theorem setSem_root (s : State) (x : Sem) : (setSem s x).root = s.root := rfl
@[simp] theorem setSem_freeCtr (s : State) (x : Sem) : (setSem s x).freeCtr = s.freeCtr := rfl
@[simp] theorem setSem_pending (s : State) (x : Sem) : (setSem s x).pending = s.pending := rfl

@[simp] theorem boostPass_fuse (s : State) : (boostPass s).fuse = s.fuse := rfl
@[simp] theorem boostPass_boot (s : State) : (boostPass s).boot = s.boot := rfl
@[simp] theorem boostPass_stb (s : State) : (boostPass s).stb = s.stb := rfl
@[simp] theorem boostPass_mirrors (s : State) : (boostPass s).mirrors = s.mirrors := rfl
@[simp] theorem boostPass_custody (s : State) : (boostPass s).custody = s.custody := rfl
@[simp] theorem boostPass_dlink (s : State) : (boostPass s).dlink = s.dlink := rfl
@[simp] theorem boostPass_pcie (s : State) : (boostPass s).pcie = s.pcie := rfl
@[simp] theorem boostPass_pins (s : State) : (boostPass s).pins = s.pins := rfl
@[simp] theorem boostPass_regs (s : State) : (boostPass s).regs = s.regs := rfl
@[simp] theorem boostPass_sess0 (s : State) : (boostPass s).sess0 = s.sess0 := rfl
@[simp] theorem boostPass_sess1 (s : State) : (boostPass s).sess1 = s.sess1 := rfl
@[simp] theorem boostPass_cmds (s : State) : (boostPass s).cmds = s.cmds := rfl
@[simp] theorem boostPass_fetchedLog (s : State) : (boostPass s).fetchedLog = s.fetchedLog := rfl
@[simp] theorem boostPass_nextCmd (s : State) : (boostPass s).nextCmd = s.nextCmd := rfl
@[simp] theorem boostPass_turns (s : State) : (boostPass s).turns = s.turns := rfl
@[simp] theorem boostPass_heldOut (s : State) : (boostPass s).heldOut = s.heldOut := rfl
@[simp] theorem boostPass_store (s : State) : (boostPass s).store = s.store := rfl
@[simp] theorem boostPass_dram (s : State) : (boostPass s).dram = s.dram := rfl
@[simp] theorem boostPass_nand (s : State) : (boostPass s).nand = s.nand := rfl
@[simp] theorem boostPass_work (s : State) : (boostPass s).work = s.work := rfl
@[simp] theorem boostPass_listen (s : State) : (boostPass s).listen = s.listen := rfl
@[simp] theorem boostPass_cam0 (s : State) : (boostPass s).cam0 = s.cam0 := rfl
@[simp] theorem boostPass_cam1 (s : State) : (boostPass s).cam1 = s.cam1 := rfl
@[simp] theorem boostPass_power (s : State) : (boostPass s).power = s.power := rfl
@[simp] theorem boostPass_fault (s : State) : (boostPass s).fault = s.fault := rfl
@[simp] theorem boostPass_obs (s : State) : (boostPass s).obs = s.obs := rfl
@[simp] theorem boostPass_group (s : State) : (boostPass s).group = s.group := rfl
@[simp] theorem boostPass_i3c (s : State) : (boostPass s).i3c = s.i3c := rfl
@[simp] theorem boostPass_fw (s : State) : (boostPass s).fw = s.fw := rfl
@[simp] theorem boostPass_root (s : State) : (boostPass s).root = s.root := rfl
@[simp] theorem boostPass_freeCtr (s : State) : (boostPass s).freeCtr = s.freeCtr := rfl
@[simp] theorem boostPass_pending (s : State) : (boostPass s).pending = s.pending := rfl

end Sys2Proof.Machine
end

