-- ==== Sys2Proof/Laws/Ops.lean ====
section
/-! SUPPORT. What the shared operations leave as it was: completion records, progress records, host writes, trace and fault
capture touch the fields they are named for and no other. Each operation has one lemma that says which fields it may change
(`…_form`), and one lemma per other field. -/

namespace Sys2Proof.Machine

/-- Asking the link to leave a low-power state changes the link state and CLKREQ_N only. -/
theorem leaveLink_form (s : State) (fn : Fn) : ∃ pc pi, leaveLink s fn = { s with pcie := pc, pins := pi } := by
  unfold leaveLink
  split <;> exact ⟨_, _, rfl⟩

@[simp] theorem leaveLink_fuse (s : State) (fn : Fn) : (leaveLink s fn).fuse = s.fuse := by
  obtain ⟨_, _, h⟩ := leaveLink_form s fn; rw [h]
@[simp] theorem leaveLink_boot (s : State) (fn : Fn) : (leaveLink s fn).boot = s.boot := by
  obtain ⟨_, _, h⟩ := leaveLink_form s fn; rw [h]
@[simp] theorem leaveLink_stb (s : State) (fn : Fn) : (leaveLink s fn).stb = s.stb := by
  obtain ⟨_, _, h⟩ := leaveLink_form s fn; rw [h]
@[simp] theorem leaveLink_mirrors (s : State) (fn : Fn) : (leaveLink s fn).mirrors = s.mirrors := by
  obtain ⟨_, _, h⟩ := leaveLink_form s fn; rw [h]
@[simp] theorem leaveLink_custody (s : State) (fn : Fn) : (leaveLink s fn).custody = s.custody := by
  obtain ⟨_, _, h⟩ := leaveLink_form s fn; rw [h]
@[simp] theorem leaveLink_dlink (s : State) (fn : Fn) : (leaveLink s fn).dlink = s.dlink := by
  obtain ⟨_, _, h⟩ := leaveLink_form s fn; rw [h]
@[simp] theorem leaveLink_regs (s : State) (fn : Fn) : (leaveLink s fn).regs = s.regs := by
  obtain ⟨_, _, h⟩ := leaveLink_form s fn; rw [h]
@[simp] theorem leaveLink_rings (s : State) (fn : Fn) : (leaveLink s fn).rings = s.rings := by
  obtain ⟨_, _, h⟩ := leaveLink_form s fn; rw [h]
@[simp] theorem leaveLink_sess0 (s : State) (fn : Fn) : (leaveLink s fn).sess0 = s.sess0 := by
  obtain ⟨_, _, h⟩ := leaveLink_form s fn; rw [h]
@[simp] theorem leaveLink_sess1 (s : State) (fn : Fn) : (leaveLink s fn).sess1 = s.sess1 := by
  obtain ⟨_, _, h⟩ := leaveLink_form s fn; rw [h]
@[simp] theorem leaveLink_cmds (s : State) (fn : Fn) : (leaveLink s fn).cmds = s.cmds := by
  obtain ⟨_, _, h⟩ := leaveLink_form s fn; rw [h]
@[simp] theorem leaveLink_fetchedLog (s : State) (fn : Fn) : (leaveLink s fn).fetchedLog = s.fetchedLog := by
  obtain ⟨_, _, h⟩ := leaveLink_form s fn; rw [h]
@[simp] theorem leaveLink_nextCmd (s : State) (fn : Fn) : (leaveLink s fn).nextCmd = s.nextCmd := by
  obtain ⟨_, _, h⟩ := leaveLink_form s fn; rw [h]
@[simp] theorem leaveLink_turns (s : State) (fn : Fn) : (leaveLink s fn).turns = s.turns := by
  obtain ⟨_, _, h⟩ := leaveLink_form s fn; rw [h]
@[simp] theorem leaveLink_heldOut (s : State) (fn : Fn) : (leaveLink s fn).heldOut = s.heldOut := by
  obtain ⟨_, _, h⟩ := leaveLink_form s fn; rw [h]
@[simp] theorem leaveLink_store (s : State) (fn : Fn) : (leaveLink s fn).store = s.store := by
  obtain ⟨_, _, h⟩ := leaveLink_form s fn; rw [h]
@[simp] theorem leaveLink_dram (s : State) (fn : Fn) : (leaveLink s fn).dram = s.dram := by
  obtain ⟨_, _, h⟩ := leaveLink_form s fn; rw [h]
@[simp] theorem leaveLink_nand (s : State) (fn : Fn) : (leaveLink s fn).nand = s.nand := by
  obtain ⟨_, _, h⟩ := leaveLink_form s fn; rw [h]
@[simp] theorem leaveLink_work (s : State) (fn : Fn) : (leaveLink s fn).work = s.work := by
  obtain ⟨_, _, h⟩ := leaveLink_form s fn; rw [h]
@[simp] theorem leaveLink_listen (s : State) (fn : Fn) : (leaveLink s fn).listen = s.listen := by
  obtain ⟨_, _, h⟩ := leaveLink_form s fn; rw [h]
@[simp] theorem leaveLink_cam0 (s : State) (fn : Fn) : (leaveLink s fn).cam0 = s.cam0 := by
  obtain ⟨_, _, h⟩ := leaveLink_form s fn; rw [h]
@[simp] theorem leaveLink_cam1 (s : State) (fn : Fn) : (leaveLink s fn).cam1 = s.cam1 := by
  obtain ⟨_, _, h⟩ := leaveLink_form s fn; rw [h]
@[simp] theorem leaveLink_power (s : State) (fn : Fn) : (leaveLink s fn).power = s.power := by
  obtain ⟨_, _, h⟩ := leaveLink_form s fn; rw [h]
@[simp] theorem leaveLink_fault (s : State) (fn : Fn) : (leaveLink s fn).fault = s.fault := by
  obtain ⟨_, _, h⟩ := leaveLink_form s fn; rw [h]
@[simp] theorem leaveLink_obs (s : State) (fn : Fn) : (leaveLink s fn).obs = s.obs := by
  obtain ⟨_, _, h⟩ := leaveLink_form s fn; rw [h]
@[simp] theorem leaveLink_group (s : State) (fn : Fn) : (leaveLink s fn).group = s.group := by
  obtain ⟨_, _, h⟩ := leaveLink_form s fn; rw [h]
@[simp] theorem leaveLink_i3c (s : State) (fn : Fn) : (leaveLink s fn).i3c = s.i3c := by
  obtain ⟨_, _, h⟩ := leaveLink_form s fn; rw [h]
@[simp] theorem leaveLink_fw (s : State) (fn : Fn) : (leaveLink s fn).fw = s.fw := by
  obtain ⟨_, _, h⟩ := leaveLink_form s fn; rw [h]
@[simp] theorem leaveLink_root (s : State) (fn : Fn) : (leaveLink s fn).root = s.root := by
  obtain ⟨_, _, h⟩ := leaveLink_form s fn; rw [h]
@[simp] theorem leaveLink_freeCtr (s : State) (fn : Fn) : (leaveLink s fn).freeCtr = s.freeCtr := by
  obtain ⟨_, _, h⟩ := leaveLink_form s fn; rw [h]
@[simp] theorem leaveLink_pending (s : State) (fn : Fn) : (leaveLink s fn).pending = s.pending := by
  obtain ⟨_, _, h⟩ := leaveLink_form s fn; rw [h]

/-- Data for host memory is written there, or held for the link. -/
theorem hostOut_form (s : State) (fn : Fn) (a : Nat) (bs : List Byte) : ∃ pc pi ho st, hostOut s fn a bs = { s with pcie := pc, pins := pi, heldOut := ho, store := st } := by
  unfold hostOut
  split
  · exact ⟨s.pcie, s.pins, s.heldOut, _, rfl⟩
  · obtain ⟨pc, pi, h⟩ := leaveLink_form { s with heldOut := s.heldOut ++ [{ fn := fn, ring := 0, addr := some a, record := bs }] } fn
    exact ⟨pc, pi, _, s.store, h⟩

@[simp] theorem hostOut_fuse (s : State) (fn : Fn) (a : Nat) (bs : List Byte) : (hostOut s fn a bs).fuse = s.fuse := by
  obtain ⟨_, _, _, _, h⟩ := hostOut_form s fn a bs; rw [h]
@[simp] theorem hostOut_boot (s : State) (fn : Fn) (a : Nat) (bs : List Byte) : (hostOut s fn a bs).boot = s.boot := by
  obtain ⟨_, _, _, _, h⟩ := hostOut_form s fn a bs; rw [h]
@[simp] theorem hostOut_stb (s : State) (fn : Fn) (a : Nat) (bs : List Byte) : (hostOut s fn a bs).stb = s.stb := by
  obtain ⟨_, _, _, _, h⟩ := hostOut_form s fn a bs; rw [h]
@[simp] theorem hostOut_mirrors (s : State) (fn : Fn) (a : Nat) (bs : List Byte) : (hostOut s fn a bs).mirrors = s.mirrors := by
  obtain ⟨_, _, _, _, h⟩ := hostOut_form s fn a bs; rw [h]
@[simp] theorem hostOut_custody (s : State) (fn : Fn) (a : Nat) (bs : List Byte) : (hostOut s fn a bs).custody = s.custody := by
  obtain ⟨_, _, _, _, h⟩ := hostOut_form s fn a bs; rw [h]
@[simp] theorem hostOut_dlink (s : State) (fn : Fn) (a : Nat) (bs : List Byte) : (hostOut s fn a bs).dlink = s.dlink := by
  obtain ⟨_, _, _, _, h⟩ := hostOut_form s fn a bs; rw [h]
@[simp] theorem hostOut_regs (s : State) (fn : Fn) (a : Nat) (bs : List Byte) : (hostOut s fn a bs).regs = s.regs := by
  obtain ⟨_, _, _, _, h⟩ := hostOut_form s fn a bs; rw [h]
@[simp] theorem hostOut_rings (s : State) (fn : Fn) (a : Nat) (bs : List Byte) : (hostOut s fn a bs).rings = s.rings := by
  obtain ⟨_, _, _, _, h⟩ := hostOut_form s fn a bs; rw [h]
@[simp] theorem hostOut_sess0 (s : State) (fn : Fn) (a : Nat) (bs : List Byte) : (hostOut s fn a bs).sess0 = s.sess0 := by
  obtain ⟨_, _, _, _, h⟩ := hostOut_form s fn a bs; rw [h]
@[simp] theorem hostOut_sess1 (s : State) (fn : Fn) (a : Nat) (bs : List Byte) : (hostOut s fn a bs).sess1 = s.sess1 := by
  obtain ⟨_, _, _, _, h⟩ := hostOut_form s fn a bs; rw [h]
@[simp] theorem hostOut_cmds (s : State) (fn : Fn) (a : Nat) (bs : List Byte) : (hostOut s fn a bs).cmds = s.cmds := by
  obtain ⟨_, _, _, _, h⟩ := hostOut_form s fn a bs; rw [h]
@[simp] theorem hostOut_fetchedLog (s : State) (fn : Fn) (a : Nat) (bs : List Byte) : (hostOut s fn a bs).fetchedLog = s.fetchedLog := by
  obtain ⟨_, _, _, _, h⟩ := hostOut_form s fn a bs; rw [h]
@[simp] theorem hostOut_nextCmd (s : State) (fn : Fn) (a : Nat) (bs : List Byte) : (hostOut s fn a bs).nextCmd = s.nextCmd := by
  obtain ⟨_, _, _, _, h⟩ := hostOut_form s fn a bs; rw [h]
@[simp] theorem hostOut_turns (s : State) (fn : Fn) (a : Nat) (bs : List Byte) : (hostOut s fn a bs).turns = s.turns := by
  obtain ⟨_, _, _, _, h⟩ := hostOut_form s fn a bs; rw [h]
@[simp] theorem hostOut_dram (s : State) (fn : Fn) (a : Nat) (bs : List Byte) : (hostOut s fn a bs).dram = s.dram := by
  obtain ⟨_, _, _, _, h⟩ := hostOut_form s fn a bs; rw [h]
@[simp] theorem hostOut_nand (s : State) (fn : Fn) (a : Nat) (bs : List Byte) : (hostOut s fn a bs).nand = s.nand := by
  obtain ⟨_, _, _, _, h⟩ := hostOut_form s fn a bs; rw [h]
@[simp] theorem hostOut_work (s : State) (fn : Fn) (a : Nat) (bs : List Byte) : (hostOut s fn a bs).work = s.work := by
  obtain ⟨_, _, _, _, h⟩ := hostOut_form s fn a bs; rw [h]
@[simp] theorem hostOut_listen (s : State) (fn : Fn) (a : Nat) (bs : List Byte) : (hostOut s fn a bs).listen = s.listen := by
  obtain ⟨_, _, _, _, h⟩ := hostOut_form s fn a bs; rw [h]
@[simp] theorem hostOut_cam0 (s : State) (fn : Fn) (a : Nat) (bs : List Byte) : (hostOut s fn a bs).cam0 = s.cam0 := by
  obtain ⟨_, _, _, _, h⟩ := hostOut_form s fn a bs; rw [h]
@[simp] theorem hostOut_cam1 (s : State) (fn : Fn) (a : Nat) (bs : List Byte) : (hostOut s fn a bs).cam1 = s.cam1 := by
  obtain ⟨_, _, _, _, h⟩ := hostOut_form s fn a bs; rw [h]
@[simp] theorem hostOut_power (s : State) (fn : Fn) (a : Nat) (bs : List Byte) : (hostOut s fn a bs).power = s.power := by
  obtain ⟨_, _, _, _, h⟩ := hostOut_form s fn a bs; rw [h]
@[simp] theorem hostOut_fault (s : State) (fn : Fn) (a : Nat) (bs : List Byte) : (hostOut s fn a bs).fault = s.fault := by
  obtain ⟨_, _, _, _, h⟩ := hostOut_form s fn a bs; rw [h]
@[simp] theorem hostOut_obs (s : State) (fn : Fn) (a : Nat) (bs : List Byte) : (hostOut s fn a bs).obs = s.obs := by
  obtain ⟨_, _, _, _, h⟩ := hostOut_form s fn a bs; rw [h]
@[simp] theorem hostOut_group (s : State) (fn : Fn) (a : Nat) (bs : List Byte) : (hostOut s fn a bs).group = s.group := by
  obtain ⟨_, _, _, _, h⟩ := hostOut_form s fn a bs; rw [h]
@[simp] theorem hostOut_i3c (s : State) (fn : Fn) (a : Nat) (bs : List Byte) : (hostOut s fn a bs).i3c = s.i3c := by
  obtain ⟨_, _, _, _, h⟩ := hostOut_form s fn a bs; rw [h]
@[simp] theorem hostOut_fw (s : State) (fn : Fn) (a : Nat) (bs : List Byte) : (hostOut s fn a bs).fw = s.fw := by
  obtain ⟨_, _, _, _, h⟩ := hostOut_form s fn a bs; rw [h]
@[simp] theorem hostOut_root (s : State) (fn : Fn) (a : Nat) (bs : List Byte) : (hostOut s fn a bs).root = s.root := by
  obtain ⟨_, _, _, _, h⟩ := hostOut_form s fn a bs; rw [h]
@[simp] theorem hostOut_freeCtr (s : State) (fn : Fn) (a : Nat) (bs : List Byte) : (hostOut s fn a bs).freeCtr = s.freeCtr := by
  obtain ⟨_, _, _, _, h⟩ := hostOut_form s fn a bs; rw [h]
@[simp] theorem hostOut_pending (s : State) (fn : Fn) (a : Nat) (bs : List Byte) : (hostOut s fn a bs).pending = s.pending := by
  obtain ⟨_, _, _, _, h⟩ := hostOut_form s fn a bs; rw [h]

/-- Writing the staged trace records out changes host memory only. -/
theorem traceWrites_form {α : Type} (f : α → Nat) (g : α → List Byte) (l : List α) (s : State) :
    ∃ st, l.foldl (fun s e => hostWrite s (f e) (g e)) s = { s with store := st } := by
  induction l generalizing s with
  | nil => exact ⟨s.store, rfl⟩
  | cons e l ih =>
    obtain ⟨st, h⟩ := ih (hostWrite s (f e) (g e))
    exact ⟨st, by rw [List.foldl_cons, h]; rfl⟩

/-- A drain of the trace staging buffer changes host memory and the observation state only. -/
theorem traceDrain_form (s : State) : ∃ st ob, traceDrain s = { s with store := st, obs := ob } := by
  unfold traceDrain
  dsimp only
  split
  · exact ⟨s.store, s.obs, rfl⟩
  · obtain ⟨st, h⟩ := traceWrites_form (fun e : U32 × List Byte => s.obs.trace0.base.toNat + 32 * (e.1.toNat % 2 ^ s.obs.trace0.log2))
      (·.2) (traceOrder s.obs.trace0) s
    rw [h]
    exact ⟨_, _, rfl⟩

@[simp] theorem traceDrain_fuse (s : State) : (traceDrain s).fuse = s.fuse := by
  obtain ⟨_, _, h⟩ := traceDrain_form s; rw [h]
@[simp] theorem traceDrain_boot (s : State) : (traceDrain s).boot = s.boot := by
  obtain ⟨_, _, h⟩ := traceDrain_form s; rw [h]
@[simp] theorem traceDrain_stb (s : State) : (traceDrain s).stb = s.stb := by
  obtain ⟨_, _, h⟩ := traceDrain_form s; rw [h]
@[simp] theorem traceDrain_mirrors (s : State) : (traceDrain s).mirrors = s.mirrors := by
  obtain ⟨_, _, h⟩ := traceDrain_form s; rw [h]
@[simp] theorem traceDrain_custody (s : State) : (traceDrain s).custody = s.custody := by
  obtain ⟨_, _, h⟩ := traceDrain_form s; rw [h]
@[simp] theorem traceDrain_dlink (s : State) : (traceDrain s).dlink = s.dlink := by
  obtain ⟨_, _, h⟩ := traceDrain_form s; rw [h]
@[simp] theorem traceDrain_pcie (s : State) : (traceDrain s).pcie = s.pcie := by
  obtain ⟨_, _, h⟩ := traceDrain_form s; rw [h]
@[simp] theorem traceDrain_pins (s : State) : (traceDrain s).pins = s.pins := by
  obtain ⟨_, _, h⟩ := traceDrain_form s; rw [h]
@[simp] theorem traceDrain_regs (s : State) : (traceDrain s).regs = s.regs := by
  obtain ⟨_, _, h⟩ := traceDrain_form s; rw [h]
@[simp] theorem traceDrain_rings (s : State) : (traceDrain s).rings = s.rings := by
  obtain ⟨_, _, h⟩ := traceDrain_form s; rw [h]
@[simp] theorem traceDrain_sess0 (s : State) : (traceDrain s).sess0 = s.sess0 := by
  obtain ⟨_, _, h⟩ := traceDrain_form s; rw [h]
@[simp] theorem traceDrain_sess1 (s : State) : (traceDrain s).sess1 = s.sess1 := by
  obtain ⟨_, _, h⟩ := traceDrain_form s; rw [h]
@[simp] theorem traceDrain_cmds (s : State) : (traceDrain s).cmds = s.cmds := by
  obtain ⟨_, _, h⟩ := traceDrain_form s; rw [h]
@[simp] theorem traceDrain_fetchedLog (s : State) : (traceDrain s).fetchedLog = s.fetchedLog := by
  obtain ⟨_, _, h⟩ := traceDrain_form s; rw [h]
@[simp] theorem traceDrain_nextCmd (s : State) : (traceDrain s).nextCmd = s.nextCmd := by
  obtain ⟨_, _, h⟩ := traceDrain_form s; rw [h]
@[simp] theorem traceDrain_turns (s : State) : (traceDrain s).turns = s.turns := by
  obtain ⟨_, _, h⟩ := traceDrain_form s; rw [h]
@[simp] theorem traceDrain_heldOut (s : State) : (traceDrain s).heldOut = s.heldOut := by
  obtain ⟨_, _, h⟩ := traceDrain_form s; rw [h]
@[simp] theorem traceDrain_dram (s : State) : (traceDrain s).dram = s.dram := by
  obtain ⟨_, _, h⟩ := traceDrain_form s; rw [h]
@[simp] theorem traceDrain_nand (s : State) : (traceDrain s).nand = s.nand := by
  obtain ⟨_, _, h⟩ := traceDrain_form s; rw [h]
@[simp] theorem traceDrain_work (s : State) : (traceDrain s).work = s.work := by
  obtain ⟨_, _, h⟩ := traceDrain_form s; rw [h]
@[simp] theorem traceDrain_listen (s : State) : (traceDrain s).listen = s.listen := by
  obtain ⟨_, _, h⟩ := traceDrain_form s; rw [h]
@[simp] theorem traceDrain_cam0 (s : State) : (traceDrain s).cam0 = s.cam0 := by
  obtain ⟨_, _, h⟩ := traceDrain_form s; rw [h]
@[simp] theorem traceDrain_cam1 (s : State) : (traceDrain s).cam1 = s.cam1 := by
  obtain ⟨_, _, h⟩ := traceDrain_form s; rw [h]
@[simp] theorem traceDrain_power (s : State) : (traceDrain s).power = s.power := by
  obtain ⟨_, _, h⟩ := traceDrain_form s; rw [h]
@[simp] theorem traceDrain_fault (s : State) : (traceDrain s).fault = s.fault := by
  obtain ⟨_, _, h⟩ := traceDrain_form s; rw [h]
@[simp] theorem traceDrain_group (s : State) : (traceDrain s).group = s.group := by
  obtain ⟨_, _, h⟩ := traceDrain_form s; rw [h]
@[simp] theorem traceDrain_i3c (s : State) : (traceDrain s).i3c = s.i3c := by
  obtain ⟨_, _, h⟩ := traceDrain_form s; rw [h]
@[simp] theorem traceDrain_fw (s : State) : (traceDrain s).fw = s.fw := by
  obtain ⟨_, _, h⟩ := traceDrain_form s; rw [h]
@[simp] theorem traceDrain_root (s : State) : (traceDrain s).root = s.root := by
  obtain ⟨_, _, h⟩ := traceDrain_form s; rw [h]
@[simp] theorem traceDrain_freeCtr (s : State) : (traceDrain s).freeCtr = s.freeCtr := by
  obtain ⟨_, _, h⟩ := traceDrain_form s; rw [h]
@[simp] theorem traceDrain_pending (s : State) : (traceDrain s).pending = s.pending := by
  obtain ⟨_, _, h⟩ := traceDrain_form s; rw [h]

/-- A drain to the trace port changes the observation state only. -/
theorem portDrain_form (s : State) : ∃ ob, portDrain s = { s with obs := ob } := by
  unfold portDrain
  dsimp only
  split <;> exact ⟨_, rfl⟩

@[simp] theorem portDrain_fuse (s : State) : (portDrain s).fuse = s.fuse := by
  obtain ⟨_, h⟩ := portDrain_form s; rw [h]
@[simp] theorem portDrain_boot (s : State) : (portDrain s).boot = s.boot := by
  obtain ⟨_, h⟩ := portDrain_form s; rw [h]
@[simp] theorem portDrain_stb (s : State) : (portDrain s).stb = s.stb := by
  obtain ⟨_, h⟩ := portDrain_form s; rw [h]
@[simp] theorem portDrain_mirrors (s : State) : (portDrain s).mirrors = s.mirrors := by
  obtain ⟨_, h⟩ := portDrain_form s; rw [h]
@[simp] theorem portDrain_custody (s : State) : (portDrain s).custody = s.custody := by
  obtain ⟨_, h⟩ := portDrain_form s; rw [h]
@[simp] theorem portDrain_dlink (s : State) : (portDrain s).dlink = s.dlink := by
  obtain ⟨_, h⟩ := portDrain_form s; rw [h]
@[simp] theorem portDrain_pcie (s : State) : (portDrain s).pcie = s.pcie := by
  obtain ⟨_, h⟩ := portDrain_form s; rw [h]
@[simp] theorem portDrain_pins (s : State) : (portDrain s).pins = s.pins := by
  obtain ⟨_, h⟩ := portDrain_form s; rw [h]
@[simp] theorem portDrain_regs (s : State) : (portDrain s).regs = s.regs := by
  obtain ⟨_, h⟩ := portDrain_form s; rw [h]
@[simp] theorem portDrain_rings (s : State) : (portDrain s).rings = s.rings := by
  obtain ⟨_, h⟩ := portDrain_form s; rw [h]
@[simp] theorem portDrain_sess0 (s : State) : (portDrain s).sess0 = s.sess0 := by
  obtain ⟨_, h⟩ := portDrain_form s; rw [h]
@[simp] theorem portDrain_sess1 (s : State) : (portDrain s).sess1 = s.sess1 := by
  obtain ⟨_, h⟩ := portDrain_form s; rw [h]
@[simp] theorem portDrain_cmds (s : State) : (portDrain s).cmds = s.cmds := by
  obtain ⟨_, h⟩ := portDrain_form s; rw [h]
@[simp] theorem portDrain_fetchedLog (s : State) : (portDrain s).fetchedLog = s.fetchedLog := by
  obtain ⟨_, h⟩ := portDrain_form s; rw [h]
@[simp] theorem portDrain_nextCmd (s : State) : (portDrain s).nextCmd = s.nextCmd := by
  obtain ⟨_, h⟩ := portDrain_form s; rw [h]
@[simp] theorem portDrain_turns (s : State) : (portDrain s).turns = s.turns := by
  obtain ⟨_, h⟩ := portDrain_form s; rw [h]
@[simp] theorem portDrain_heldOut (s : State) : (portDrain s).heldOut = s.heldOut := by
  obtain ⟨_, h⟩ := portDrain_form s; rw [h]
@[simp] theorem portDrain_store (s : State) : (portDrain s).store = s.store := by
  obtain ⟨_, h⟩ := portDrain_form s; rw [h]
@[simp] theorem portDrain_dram (s : State) : (portDrain s).dram = s.dram := by
  obtain ⟨_, h⟩ := portDrain_form s; rw [h]
@[simp] theorem portDrain_nand (s : State) : (portDrain s).nand = s.nand := by
  obtain ⟨_, h⟩ := portDrain_form s; rw [h]
@[simp] theorem portDrain_work (s : State) : (portDrain s).work = s.work := by
  obtain ⟨_, h⟩ := portDrain_form s; rw [h]
@[simp] theorem portDrain_listen (s : State) : (portDrain s).listen = s.listen := by
  obtain ⟨_, h⟩ := portDrain_form s; rw [h]
@[simp] theorem portDrain_cam0 (s : State) : (portDrain s).cam0 = s.cam0 := by
  obtain ⟨_, h⟩ := portDrain_form s; rw [h]
@[simp] theorem portDrain_cam1 (s : State) : (portDrain s).cam1 = s.cam1 := by
  obtain ⟨_, h⟩ := portDrain_form s; rw [h]
@[simp] theorem portDrain_power (s : State) : (portDrain s).power = s.power := by
  obtain ⟨_, h⟩ := portDrain_form s; rw [h]
@[simp] theorem portDrain_fault (s : State) : (portDrain s).fault = s.fault := by
  obtain ⟨_, h⟩ := portDrain_form s; rw [h]
@[simp] theorem portDrain_group (s : State) : (portDrain s).group = s.group := by
  obtain ⟨_, h⟩ := portDrain_form s; rw [h]
@[simp] theorem portDrain_i3c (s : State) : (portDrain s).i3c = s.i3c := by
  obtain ⟨_, h⟩ := portDrain_form s; rw [h]
@[simp] theorem portDrain_fw (s : State) : (portDrain s).fw = s.fw := by
  obtain ⟨_, h⟩ := portDrain_form s; rw [h]
@[simp] theorem portDrain_root (s : State) : (portDrain s).root = s.root := by
  obtain ⟨_, h⟩ := portDrain_form s; rw [h]
@[simp] theorem portDrain_freeCtr (s : State) : (portDrain s).freeCtr = s.freeCtr := by
  obtain ⟨_, h⟩ := portDrain_form s; rw [h]
@[simp] theorem portDrain_pending (s : State) : (portDrain s).pending = s.pending := by
  obtain ⟨_, h⟩ := portDrain_form s; rw [h]

/-- A trace event is staged in the observation state. -/
theorem traceEvent_form (s : State) (dom src ev master : Nat) (l o : U16) (q : U32) (d : Nat) : ∃ ob, traceEvent s dom src ev master l o q d = { s with obs := ob } := by
  exact ⟨_, rfl⟩

@[simp] theorem traceEvent_fuse (s : State) (dom src ev master : Nat) (l o : U16) (q : U32) (d : Nat) : (traceEvent s dom src ev master l o q d).fuse = s.fuse := by
  obtain ⟨_, h⟩ := traceEvent_form s dom src ev master l o q d; rw [h]
@[simp] theorem traceEvent_boot (s : State) (dom src ev master : Nat) (l o : U16) (q : U32) (d : Nat) : (traceEvent s dom src ev master l o q d).boot = s.boot := by
  obtain ⟨_, h⟩ := traceEvent_form s dom src ev master l o q d; rw [h]
@[simp] theorem traceEvent_stb (s : State) (dom src ev master : Nat) (l o : U16) (q : U32) (d : Nat) : (traceEvent s dom src ev master l o q d).stb = s.stb := by
  obtain ⟨_, h⟩ := traceEvent_form s dom src ev master l o q d; rw [h]
@[simp] theorem traceEvent_mirrors (s : State) (dom src ev master : Nat) (l o : U16) (q : U32) (d : Nat) : (traceEvent s dom src ev master l o q d).mirrors = s.mirrors := by
  obtain ⟨_, h⟩ := traceEvent_form s dom src ev master l o q d; rw [h]
@[simp] theorem traceEvent_custody (s : State) (dom src ev master : Nat) (l o : U16) (q : U32) (d : Nat) : (traceEvent s dom src ev master l o q d).custody = s.custody := by
  obtain ⟨_, h⟩ := traceEvent_form s dom src ev master l o q d; rw [h]
@[simp] theorem traceEvent_dlink (s : State) (dom src ev master : Nat) (l o : U16) (q : U32) (d : Nat) : (traceEvent s dom src ev master l o q d).dlink = s.dlink := by
  obtain ⟨_, h⟩ := traceEvent_form s dom src ev master l o q d; rw [h]
@[simp] theorem traceEvent_pcie (s : State) (dom src ev master : Nat) (l o : U16) (q : U32) (d : Nat) : (traceEvent s dom src ev master l o q d).pcie = s.pcie := by
  obtain ⟨_, h⟩ := traceEvent_form s dom src ev master l o q d; rw [h]
@[simp] theorem traceEvent_pins (s : State) (dom src ev master : Nat) (l o : U16) (q : U32) (d : Nat) : (traceEvent s dom src ev master l o q d).pins = s.pins := by
  obtain ⟨_, h⟩ := traceEvent_form s dom src ev master l o q d; rw [h]
@[simp] theorem traceEvent_regs (s : State) (dom src ev master : Nat) (l o : U16) (q : U32) (d : Nat) : (traceEvent s dom src ev master l o q d).regs = s.regs := by
  obtain ⟨_, h⟩ := traceEvent_form s dom src ev master l o q d; rw [h]
@[simp] theorem traceEvent_rings (s : State) (dom src ev master : Nat) (l o : U16) (q : U32) (d : Nat) : (traceEvent s dom src ev master l o q d).rings = s.rings := by
  obtain ⟨_, h⟩ := traceEvent_form s dom src ev master l o q d; rw [h]
@[simp] theorem traceEvent_sess0 (s : State) (dom src ev master : Nat) (l o : U16) (q : U32) (d : Nat) : (traceEvent s dom src ev master l o q d).sess0 = s.sess0 := by
  obtain ⟨_, h⟩ := traceEvent_form s dom src ev master l o q d; rw [h]
@[simp] theorem traceEvent_sess1 (s : State) (dom src ev master : Nat) (l o : U16) (q : U32) (d : Nat) : (traceEvent s dom src ev master l o q d).sess1 = s.sess1 := by
  obtain ⟨_, h⟩ := traceEvent_form s dom src ev master l o q d; rw [h]
@[simp] theorem traceEvent_cmds (s : State) (dom src ev master : Nat) (l o : U16) (q : U32) (d : Nat) : (traceEvent s dom src ev master l o q d).cmds = s.cmds := by
  obtain ⟨_, h⟩ := traceEvent_form s dom src ev master l o q d; rw [h]
@[simp] theorem traceEvent_fetchedLog (s : State) (dom src ev master : Nat) (l o : U16) (q : U32) (d : Nat) : (traceEvent s dom src ev master l o q d).fetchedLog = s.fetchedLog := by
  obtain ⟨_, h⟩ := traceEvent_form s dom src ev master l o q d; rw [h]
@[simp] theorem traceEvent_nextCmd (s : State) (dom src ev master : Nat) (l o : U16) (q : U32) (d : Nat) : (traceEvent s dom src ev master l o q d).nextCmd = s.nextCmd := by
  obtain ⟨_, h⟩ := traceEvent_form s dom src ev master l o q d; rw [h]
@[simp] theorem traceEvent_turns (s : State) (dom src ev master : Nat) (l o : U16) (q : U32) (d : Nat) : (traceEvent s dom src ev master l o q d).turns = s.turns := by
  obtain ⟨_, h⟩ := traceEvent_form s dom src ev master l o q d; rw [h]
@[simp] theorem traceEvent_heldOut (s : State) (dom src ev master : Nat) (l o : U16) (q : U32) (d : Nat) : (traceEvent s dom src ev master l o q d).heldOut = s.heldOut := by
  obtain ⟨_, h⟩ := traceEvent_form s dom src ev master l o q d; rw [h]
@[simp] theorem traceEvent_store (s : State) (dom src ev master : Nat) (l o : U16) (q : U32) (d : Nat) : (traceEvent s dom src ev master l o q d).store = s.store := by
  obtain ⟨_, h⟩ := traceEvent_form s dom src ev master l o q d; rw [h]
@[simp] theorem traceEvent_dram (s : State) (dom src ev master : Nat) (l o : U16) (q : U32) (d : Nat) : (traceEvent s dom src ev master l o q d).dram = s.dram := by
  obtain ⟨_, h⟩ := traceEvent_form s dom src ev master l o q d; rw [h]
@[simp] theorem traceEvent_nand (s : State) (dom src ev master : Nat) (l o : U16) (q : U32) (d : Nat) : (traceEvent s dom src ev master l o q d).nand = s.nand := by
  obtain ⟨_, h⟩ := traceEvent_form s dom src ev master l o q d; rw [h]
@[simp] theorem traceEvent_work (s : State) (dom src ev master : Nat) (l o : U16) (q : U32) (d : Nat) : (traceEvent s dom src ev master l o q d).work = s.work := by
  obtain ⟨_, h⟩ := traceEvent_form s dom src ev master l o q d; rw [h]
@[simp] theorem traceEvent_listen (s : State) (dom src ev master : Nat) (l o : U16) (q : U32) (d : Nat) : (traceEvent s dom src ev master l o q d).listen = s.listen := by
  obtain ⟨_, h⟩ := traceEvent_form s dom src ev master l o q d; rw [h]
@[simp] theorem traceEvent_cam0 (s : State) (dom src ev master : Nat) (l o : U16) (q : U32) (d : Nat) : (traceEvent s dom src ev master l o q d).cam0 = s.cam0 := by
  obtain ⟨_, h⟩ := traceEvent_form s dom src ev master l o q d; rw [h]
@[simp] theorem traceEvent_cam1 (s : State) (dom src ev master : Nat) (l o : U16) (q : U32) (d : Nat) : (traceEvent s dom src ev master l o q d).cam1 = s.cam1 := by
  obtain ⟨_, h⟩ := traceEvent_form s dom src ev master l o q d; rw [h]
@[simp] theorem traceEvent_power (s : State) (dom src ev master : Nat) (l o : U16) (q : U32) (d : Nat) : (traceEvent s dom src ev master l o q d).power = s.power := by
  obtain ⟨_, h⟩ := traceEvent_form s dom src ev master l o q d; rw [h]
@[simp] theorem traceEvent_fault (s : State) (dom src ev master : Nat) (l o : U16) (q : U32) (d : Nat) : (traceEvent s dom src ev master l o q d).fault = s.fault := by
  obtain ⟨_, h⟩ := traceEvent_form s dom src ev master l o q d; rw [h]
@[simp] theorem traceEvent_group (s : State) (dom src ev master : Nat) (l o : U16) (q : U32) (d : Nat) : (traceEvent s dom src ev master l o q d).group = s.group := by
  obtain ⟨_, h⟩ := traceEvent_form s dom src ev master l o q d; rw [h]
@[simp] theorem traceEvent_i3c (s : State) (dom src ev master : Nat) (l o : U16) (q : U32) (d : Nat) : (traceEvent s dom src ev master l o q d).i3c = s.i3c := by
  obtain ⟨_, h⟩ := traceEvent_form s dom src ev master l o q d; rw [h]
@[simp] theorem traceEvent_fw (s : State) (dom src ev master : Nat) (l o : U16) (q : U32) (d : Nat) : (traceEvent s dom src ev master l o q d).fw = s.fw := by
  obtain ⟨_, h⟩ := traceEvent_form s dom src ev master l o q d; rw [h]
@[simp] theorem traceEvent_root (s : State) (dom src ev master : Nat) (l o : U16) (q : U32) (d : Nat) : (traceEvent s dom src ev master l o q d).root = s.root := by
  obtain ⟨_, h⟩ := traceEvent_form s dom src ev master l o q d; rw [h]
@[simp] theorem traceEvent_freeCtr (s : State) (dom src ev master : Nat) (l o : U16) (q : U32) (d : Nat) : (traceEvent s dom src ev master l o q d).freeCtr = s.freeCtr := by
  obtain ⟨_, h⟩ := traceEvent_form s dom src ev master l o q d; rw [h]
@[simp] theorem traceEvent_pending (s : State) (dom src ev master : Nat) (l o : U16) (q : U32) (d : Nat) : (traceEvent s dom src ev master l o q d).pending = s.pending := by
  obtain ⟨_, h⟩ := traceEvent_form s dom src ev master l o q d; rw [h]

/-- An event of a command is a trace event of tenant 0, or none. -/
theorem traceCmd_form (s : State) (c : Cmd) (ev d : Nat) : ∃ ob, traceCmd s c ev d = { s with obs := ob } := by
  unfold traceCmd
  split <;> exact ⟨_, rfl⟩

@[simp] theorem traceCmd_fuse (s : State) (c : Cmd) (ev d : Nat) : (traceCmd s c ev d).fuse = s.fuse := by
  obtain ⟨_, h⟩ := traceCmd_form s c ev d; rw [h]
@[simp] theorem traceCmd_boot (s : State) (c : Cmd) (ev d : Nat) : (traceCmd s c ev d).boot = s.boot := by
  obtain ⟨_, h⟩ := traceCmd_form s c ev d; rw [h]
@[simp] theorem traceCmd_stb (s : State) (c : Cmd) (ev d : Nat) : (traceCmd s c ev d).stb = s.stb := by
  obtain ⟨_, h⟩ := traceCmd_form s c ev d; rw [h]
@[simp] theorem traceCmd_mirrors (s : State) (c : Cmd) (ev d : Nat) : (traceCmd s c ev d).mirrors = s.mirrors := by
  obtain ⟨_, h⟩ := traceCmd_form s c ev d; rw [h]
@[simp] theorem traceCmd_custody (s : State) (c : Cmd) (ev d : Nat) : (traceCmd s c ev d).custody = s.custody := by
  obtain ⟨_, h⟩ := traceCmd_form s c ev d; rw [h]
@[simp] theorem traceCmd_dlink (s : State) (c : Cmd) (ev d : Nat) : (traceCmd s c ev d).dlink = s.dlink := by
  obtain ⟨_, h⟩ := traceCmd_form s c ev d; rw [h]
@[simp] theorem traceCmd_pcie (s : State) (c : Cmd) (ev d : Nat) : (traceCmd s c ev d).pcie = s.pcie := by
  obtain ⟨_, h⟩ := traceCmd_form s c ev d; rw [h]
@[simp] theorem traceCmd_pins (s : State) (c : Cmd) (ev d : Nat) : (traceCmd s c ev d).pins = s.pins := by
  obtain ⟨_, h⟩ := traceCmd_form s c ev d; rw [h]
@[simp] theorem traceCmd_regs (s : State) (c : Cmd) (ev d : Nat) : (traceCmd s c ev d).regs = s.regs := by
  obtain ⟨_, h⟩ := traceCmd_form s c ev d; rw [h]
@[simp] theorem traceCmd_rings (s : State) (c : Cmd) (ev d : Nat) : (traceCmd s c ev d).rings = s.rings := by
  obtain ⟨_, h⟩ := traceCmd_form s c ev d; rw [h]
@[simp] theorem traceCmd_sess0 (s : State) (c : Cmd) (ev d : Nat) : (traceCmd s c ev d).sess0 = s.sess0 := by
  obtain ⟨_, h⟩ := traceCmd_form s c ev d; rw [h]
@[simp] theorem traceCmd_sess1 (s : State) (c : Cmd) (ev d : Nat) : (traceCmd s c ev d).sess1 = s.sess1 := by
  obtain ⟨_, h⟩ := traceCmd_form s c ev d; rw [h]
@[simp] theorem traceCmd_cmds (s : State) (c : Cmd) (ev d : Nat) : (traceCmd s c ev d).cmds = s.cmds := by
  obtain ⟨_, h⟩ := traceCmd_form s c ev d; rw [h]
@[simp] theorem traceCmd_fetchedLog (s : State) (c : Cmd) (ev d : Nat) : (traceCmd s c ev d).fetchedLog = s.fetchedLog := by
  obtain ⟨_, h⟩ := traceCmd_form s c ev d; rw [h]
@[simp] theorem traceCmd_nextCmd (s : State) (c : Cmd) (ev d : Nat) : (traceCmd s c ev d).nextCmd = s.nextCmd := by
  obtain ⟨_, h⟩ := traceCmd_form s c ev d; rw [h]
@[simp] theorem traceCmd_turns (s : State) (c : Cmd) (ev d : Nat) : (traceCmd s c ev d).turns = s.turns := by
  obtain ⟨_, h⟩ := traceCmd_form s c ev d; rw [h]
@[simp] theorem traceCmd_heldOut (s : State) (c : Cmd) (ev d : Nat) : (traceCmd s c ev d).heldOut = s.heldOut := by
  obtain ⟨_, h⟩ := traceCmd_form s c ev d; rw [h]
@[simp] theorem traceCmd_store (s : State) (c : Cmd) (ev d : Nat) : (traceCmd s c ev d).store = s.store := by
  obtain ⟨_, h⟩ := traceCmd_form s c ev d; rw [h]
@[simp] theorem traceCmd_dram (s : State) (c : Cmd) (ev d : Nat) : (traceCmd s c ev d).dram = s.dram := by
  obtain ⟨_, h⟩ := traceCmd_form s c ev d; rw [h]
@[simp] theorem traceCmd_nand (s : State) (c : Cmd) (ev d : Nat) : (traceCmd s c ev d).nand = s.nand := by
  obtain ⟨_, h⟩ := traceCmd_form s c ev d; rw [h]
@[simp] theorem traceCmd_work (s : State) (c : Cmd) (ev d : Nat) : (traceCmd s c ev d).work = s.work := by
  obtain ⟨_, h⟩ := traceCmd_form s c ev d; rw [h]
@[simp] theorem traceCmd_listen (s : State) (c : Cmd) (ev d : Nat) : (traceCmd s c ev d).listen = s.listen := by
  obtain ⟨_, h⟩ := traceCmd_form s c ev d; rw [h]
@[simp] theorem traceCmd_cam0 (s : State) (c : Cmd) (ev d : Nat) : (traceCmd s c ev d).cam0 = s.cam0 := by
  obtain ⟨_, h⟩ := traceCmd_form s c ev d; rw [h]
@[simp] theorem traceCmd_cam1 (s : State) (c : Cmd) (ev d : Nat) : (traceCmd s c ev d).cam1 = s.cam1 := by
  obtain ⟨_, h⟩ := traceCmd_form s c ev d; rw [h]
@[simp] theorem traceCmd_power (s : State) (c : Cmd) (ev d : Nat) : (traceCmd s c ev d).power = s.power := by
  obtain ⟨_, h⟩ := traceCmd_form s c ev d; rw [h]
@[simp] theorem traceCmd_fault (s : State) (c : Cmd) (ev d : Nat) : (traceCmd s c ev d).fault = s.fault := by
  obtain ⟨_, h⟩ := traceCmd_form s c ev d; rw [h]
@[simp] theorem traceCmd_group (s : State) (c : Cmd) (ev d : Nat) : (traceCmd s c ev d).group = s.group := by
  obtain ⟨_, h⟩ := traceCmd_form s c ev d; rw [h]
@[simp] theorem traceCmd_i3c (s : State) (c : Cmd) (ev d : Nat) : (traceCmd s c ev d).i3c = s.i3c := by
  obtain ⟨_, h⟩ := traceCmd_form s c ev d; rw [h]
@[simp] theorem traceCmd_fw (s : State) (c : Cmd) (ev d : Nat) : (traceCmd s c ev d).fw = s.fw := by
  obtain ⟨_, h⟩ := traceCmd_form s c ev d; rw [h]
@[simp] theorem traceCmd_root (s : State) (c : Cmd) (ev d : Nat) : (traceCmd s c ev d).root = s.root := by
  obtain ⟨_, h⟩ := traceCmd_form s c ev d; rw [h]
@[simp] theorem traceCmd_freeCtr (s : State) (c : Cmd) (ev d : Nat) : (traceCmd s c ev d).freeCtr = s.freeCtr := by
  obtain ⟨_, h⟩ := traceCmd_form s c ev d; rw [h]
@[simp] theorem traceCmd_pending (s : State) (c : Cmd) (ev d : Nat) : (traceCmd s c ev d).pending = s.pending := by
  obtain ⟨_, h⟩ := traceCmd_form s c ev d; rw [h]

/-- An event of an engine is a trace event of tenant 0, or none. -/
theorem traceUnit_form (s : State) (c : Cmd) (u ev d : Nat) : ∃ ob, traceUnit s c u ev d = { s with obs := ob } := by
  unfold traceUnit
  dsimp only
  split <;> exact ⟨_, rfl⟩

@[simp] theorem traceUnit_fuse (s : State) (c : Cmd) (u ev d : Nat) : (traceUnit s c u ev d).fuse = s.fuse := by
  obtain ⟨_, h⟩ := traceUnit_form s c u ev d; rw [h]
@[simp] theorem traceUnit_boot (s : State) (c : Cmd) (u ev d : Nat) : (traceUnit s c u ev d).boot = s.boot := by
  obtain ⟨_, h⟩ := traceUnit_form s c u ev d; rw [h]
@[simp] theorem traceUnit_stb (s : State) (c : Cmd) (u ev d : Nat) : (traceUnit s c u ev d).stb = s.stb := by
  obtain ⟨_, h⟩ := traceUnit_form s c u ev d; rw [h]
@[simp] theorem traceUnit_mirrors (s : State) (c : Cmd) (u ev d : Nat) : (traceUnit s c u ev d).mirrors = s.mirrors := by
  obtain ⟨_, h⟩ := traceUnit_form s c u ev d; rw [h]
@[simp] theorem traceUnit_custody (s : State) (c : Cmd) (u ev d : Nat) : (traceUnit s c u ev d).custody = s.custody := by
  obtain ⟨_, h⟩ := traceUnit_form s c u ev d; rw [h]
@[simp] theorem traceUnit_dlink (s : State) (c : Cmd) (u ev d : Nat) : (traceUnit s c u ev d).dlink = s.dlink := by
  obtain ⟨_, h⟩ := traceUnit_form s c u ev d; rw [h]
@[simp] theorem traceUnit_pcie (s : State) (c : Cmd) (u ev d : Nat) : (traceUnit s c u ev d).pcie = s.pcie := by
  obtain ⟨_, h⟩ := traceUnit_form s c u ev d; rw [h]
@[simp] theorem traceUnit_pins (s : State) (c : Cmd) (u ev d : Nat) : (traceUnit s c u ev d).pins = s.pins := by
  obtain ⟨_, h⟩ := traceUnit_form s c u ev d; rw [h]
@[simp] theorem traceUnit_regs (s : State) (c : Cmd) (u ev d : Nat) : (traceUnit s c u ev d).regs = s.regs := by
  obtain ⟨_, h⟩ := traceUnit_form s c u ev d; rw [h]
@[simp] theorem traceUnit_rings (s : State) (c : Cmd) (u ev d : Nat) : (traceUnit s c u ev d).rings = s.rings := by
  obtain ⟨_, h⟩ := traceUnit_form s c u ev d; rw [h]
@[simp] theorem traceUnit_sess0 (s : State) (c : Cmd) (u ev d : Nat) : (traceUnit s c u ev d).sess0 = s.sess0 := by
  obtain ⟨_, h⟩ := traceUnit_form s c u ev d; rw [h]
@[simp] theorem traceUnit_sess1 (s : State) (c : Cmd) (u ev d : Nat) : (traceUnit s c u ev d).sess1 = s.sess1 := by
  obtain ⟨_, h⟩ := traceUnit_form s c u ev d; rw [h]
@[simp] theorem traceUnit_cmds (s : State) (c : Cmd) (u ev d : Nat) : (traceUnit s c u ev d).cmds = s.cmds := by
  obtain ⟨_, h⟩ := traceUnit_form s c u ev d; rw [h]
@[simp] theorem traceUnit_fetchedLog (s : State) (c : Cmd) (u ev d : Nat) : (traceUnit s c u ev d).fetchedLog = s.fetchedLog := by
  obtain ⟨_, h⟩ := traceUnit_form s c u ev d; rw [h]
@[simp] theorem traceUnit_nextCmd (s : State) (c : Cmd) (u ev d : Nat) : (traceUnit s c u ev d).nextCmd = s.nextCmd := by
  obtain ⟨_, h⟩ := traceUnit_form s c u ev d; rw [h]
@[simp] theorem traceUnit_turns (s : State) (c : Cmd) (u ev d : Nat) : (traceUnit s c u ev d).turns = s.turns := by
  obtain ⟨_, h⟩ := traceUnit_form s c u ev d; rw [h]
@[simp] theorem traceUnit_heldOut (s : State) (c : Cmd) (u ev d : Nat) : (traceUnit s c u ev d).heldOut = s.heldOut := by
  obtain ⟨_, h⟩ := traceUnit_form s c u ev d; rw [h]
@[simp] theorem traceUnit_store (s : State) (c : Cmd) (u ev d : Nat) : (traceUnit s c u ev d).store = s.store := by
  obtain ⟨_, h⟩ := traceUnit_form s c u ev d; rw [h]
@[simp] theorem traceUnit_dram (s : State) (c : Cmd) (u ev d : Nat) : (traceUnit s c u ev d).dram = s.dram := by
  obtain ⟨_, h⟩ := traceUnit_form s c u ev d; rw [h]
@[simp] theorem traceUnit_nand (s : State) (c : Cmd) (u ev d : Nat) : (traceUnit s c u ev d).nand = s.nand := by
  obtain ⟨_, h⟩ := traceUnit_form s c u ev d; rw [h]
@[simp] theorem traceUnit_work (s : State) (c : Cmd) (u ev d : Nat) : (traceUnit s c u ev d).work = s.work := by
  obtain ⟨_, h⟩ := traceUnit_form s c u ev d; rw [h]
@[simp] theorem traceUnit_listen (s : State) (c : Cmd) (u ev d : Nat) : (traceUnit s c u ev d).listen = s.listen := by
  obtain ⟨_, h⟩ := traceUnit_form s c u ev d; rw [h]
@[simp] theorem traceUnit_cam0 (s : State) (c : Cmd) (u ev d : Nat) : (traceUnit s c u ev d).cam0 = s.cam0 := by
  obtain ⟨_, h⟩ := traceUnit_form s c u ev d; rw [h]
@[simp] theorem traceUnit_cam1 (s : State) (c : Cmd) (u ev d : Nat) : (traceUnit s c u ev d).cam1 = s.cam1 := by
  obtain ⟨_, h⟩ := traceUnit_form s c u ev d; rw [h]
@[simp] theorem traceUnit_power (s : State) (c : Cmd) (u ev d : Nat) : (traceUnit s c u ev d).power = s.power := by
  obtain ⟨_, h⟩ := traceUnit_form s c u ev d; rw [h]
@[simp] theorem traceUnit_fault (s : State) (c : Cmd) (u ev d : Nat) : (traceUnit s c u ev d).fault = s.fault := by
  obtain ⟨_, h⟩ := traceUnit_form s c u ev d; rw [h]
@[simp] theorem traceUnit_group (s : State) (c : Cmd) (u ev d : Nat) : (traceUnit s c u ev d).group = s.group := by
  obtain ⟨_, h⟩ := traceUnit_form s c u ev d; rw [h]
@[simp] theorem traceUnit_i3c (s : State) (c : Cmd) (u ev d : Nat) : (traceUnit s c u ev d).i3c = s.i3c := by
  obtain ⟨_, h⟩ := traceUnit_form s c u ev d; rw [h]
@[simp] theorem traceUnit_fw (s : State) (c : Cmd) (u ev d : Nat) : (traceUnit s c u ev d).fw = s.fw := by
  obtain ⟨_, h⟩ := traceUnit_form s c u ev d; rw [h]
@[simp] theorem traceUnit_root (s : State) (c : Cmd) (u ev d : Nat) : (traceUnit s c u ev d).root = s.root := by
  obtain ⟨_, h⟩ := traceUnit_form s c u ev d; rw [h]
@[simp] theorem traceUnit_freeCtr (s : State) (c : Cmd) (u ev d : Nat) : (traceUnit s c u ev d).freeCtr = s.freeCtr := by
  obtain ⟨_, h⟩ := traceUnit_form s c u ev d; rw [h]
@[simp] theorem traceUnit_pending (s : State) (c : Cmd) (u ev d : Nat) : (traceUnit s c u ev d).pending = s.pending := by
  obtain ⟨_, h⟩ := traceUnit_form s c u ev d; rw [h]

/-- A domain's change is a trace event, or none. -/
theorem traceDomain_form (s : State) (d : Nat) : ∃ ob, traceDomain s d = { s with obs := ob } := by
  unfold traceDomain
  split <;> exact ⟨_, rfl⟩

@[simp] theorem traceDomain_fuse (s : State) (d : Nat) : (traceDomain s d).fuse = s.fuse := by
  obtain ⟨_, h⟩ := traceDomain_form s d; rw [h]
@[simp] theorem traceDomain_boot (s : State) (d : Nat) : (traceDomain s d).boot = s.boot := by
  obtain ⟨_, h⟩ := traceDomain_form s d; rw [h]
@[simp] theorem traceDomain_stb (s : State) (d : Nat) : (traceDomain s d).stb = s.stb := by
  obtain ⟨_, h⟩ := traceDomain_form s d; rw [h]
@[simp] theorem traceDomain_mirrors (s : State) (d : Nat) : (traceDomain s d).mirrors = s.mirrors := by
  obtain ⟨_, h⟩ := traceDomain_form s d; rw [h]
@[simp] theorem traceDomain_custody (s : State) (d : Nat) : (traceDomain s d).custody = s.custody := by
  obtain ⟨_, h⟩ := traceDomain_form s d; rw [h]
@[simp] theorem traceDomain_dlink (s : State) (d : Nat) : (traceDomain s d).dlink = s.dlink := by
  obtain ⟨_, h⟩ := traceDomain_form s d; rw [h]
@[simp] theorem traceDomain_pcie (s : State) (d : Nat) : (traceDomain s d).pcie = s.pcie := by
  obtain ⟨_, h⟩ := traceDomain_form s d; rw [h]
@[simp] theorem traceDomain_pins (s : State) (d : Nat) : (traceDomain s d).pins = s.pins := by
  obtain ⟨_, h⟩ := traceDomain_form s d; rw [h]
@[simp] theorem traceDomain_regs (s : State) (d : Nat) : (traceDomain s d).regs = s.regs := by
  obtain ⟨_, h⟩ := traceDomain_form s d; rw [h]
@[simp] theorem traceDomain_rings (s : State) (d : Nat) : (traceDomain s d).rings = s.rings := by
  obtain ⟨_, h⟩ := traceDomain_form s d; rw [h]
@[simp] theorem traceDomain_sess0 (s : State) (d : Nat) : (traceDomain s d).sess0 = s.sess0 := by
  obtain ⟨_, h⟩ := traceDomain_form s d; rw [h]
@[simp] theorem traceDomain_sess1 (s : State) (d : Nat) : (traceDomain s d).sess1 = s.sess1 := by
  obtain ⟨_, h⟩ := traceDomain_form s d; rw [h]
@[simp] theorem traceDomain_cmds (s : State) (d : Nat) : (traceDomain s d).cmds = s.cmds := by
  obtain ⟨_, h⟩ := traceDomain_form s d; rw [h]
@[simp] theorem traceDomain_fetchedLog (s : State) (d : Nat) : (traceDomain s d).fetchedLog = s.fetchedLog := by
  obtain ⟨_, h⟩ := traceDomain_form s d; rw [h]
@[simp] theorem traceDomain_nextCmd (s : State) (d : Nat) : (traceDomain s d).nextCmd = s.nextCmd := by
  obtain ⟨_, h⟩ := traceDomain_form s d; rw [h]
@[simp] theorem traceDomain_turns (s : State) (d : Nat) : (traceDomain s d).turns = s.turns := by
  obtain ⟨_, h⟩ := traceDomain_form s d; rw [h]
@[simp] theorem traceDomain_heldOut (s : State) (d : Nat) : (traceDomain s d).heldOut = s.heldOut := by
  obtain ⟨_, h⟩ := traceDomain_form s d; rw [h]
@[simp] theorem traceDomain_store (s : State) (d : Nat) : (traceDomain s d).store = s.store := by
  obtain ⟨_, h⟩ := traceDomain_form s d; rw [h]
@[simp] theorem traceDomain_dram (s : State) (d : Nat) : (traceDomain s d).dram = s.dram := by
  obtain ⟨_, h⟩ := traceDomain_form s d; rw [h]
@[simp] theorem traceDomain_nand (s : State) (d : Nat) : (traceDomain s d).nand = s.nand := by
  obtain ⟨_, h⟩ := traceDomain_form s d; rw [h]
@[simp] theorem traceDomain_work (s : State) (d : Nat) : (traceDomain s d).work = s.work := by
  obtain ⟨_, h⟩ := traceDomain_form s d; rw [h]
@[simp] theorem traceDomain_listen (s : State) (d : Nat) : (traceDomain s d).listen = s.listen := by
  obtain ⟨_, h⟩ := traceDomain_form s d; rw [h]
@[simp] theorem traceDomain_cam0 (s : State) (d : Nat) : (traceDomain s d).cam0 = s.cam0 := by
  obtain ⟨_, h⟩ := traceDomain_form s d; rw [h]
@[simp] theorem traceDomain_cam1 (s : State) (d : Nat) : (traceDomain s d).cam1 = s.cam1 := by
  obtain ⟨_, h⟩ := traceDomain_form s d; rw [h]
@[simp] theorem traceDomain_power (s : State) (d : Nat) : (traceDomain s d).power = s.power := by
  obtain ⟨_, h⟩ := traceDomain_form s d; rw [h]
@[simp] theorem traceDomain_fault (s : State) (d : Nat) : (traceDomain s d).fault = s.fault := by
  obtain ⟨_, h⟩ := traceDomain_form s d; rw [h]
@[simp] theorem traceDomain_group (s : State) (d : Nat) : (traceDomain s d).group = s.group := by
  obtain ⟨_, h⟩ := traceDomain_form s d; rw [h]
@[simp] theorem traceDomain_i3c (s : State) (d : Nat) : (traceDomain s d).i3c = s.i3c := by
  obtain ⟨_, h⟩ := traceDomain_form s d; rw [h]
@[simp] theorem traceDomain_fw (s : State) (d : Nat) : (traceDomain s d).fw = s.fw := by
  obtain ⟨_, h⟩ := traceDomain_form s d; rw [h]
@[simp] theorem traceDomain_root (s : State) (d : Nat) : (traceDomain s d).root = s.root := by
  obtain ⟨_, h⟩ := traceDomain_form s d; rw [h]
@[simp] theorem traceDomain_freeCtr (s : State) (d : Nat) : (traceDomain s d).freeCtr = s.freeCtr := by
  obtain ⟨_, h⟩ := traceDomain_form s d; rw [h]
@[simp] theorem traceDomain_pending (s : State) (d : Nat) : (traceDomain s d).pending = s.pending := by
  obtain ⟨_, h⟩ := traceDomain_form s d; rw [h]

/-- A capture enters the master log and makes a trace event. -/
theorem logCapture_form (s : State) (c : Capture) : ∃ fa ob, logCapture s c = { s with fault := fa, obs := ob } := by
  exact ⟨_, _, rfl⟩

@[simp] theorem logCapture_fuse (s : State) (c : Capture) : (logCapture s c).fuse = s.fuse := by
  obtain ⟨_, _, h⟩ := logCapture_form s c; rw [h]
@[simp] theorem logCapture_boot (s : State) (c : Capture) : (logCapture s c).boot = s.boot := by
  obtain ⟨_, _, h⟩ := logCapture_form s c; rw [h]
@[simp] theorem logCapture_stb (s : State) (c : Capture) : (logCapture s c).stb = s.stb := by
  obtain ⟨_, _, h⟩ := logCapture_form s c; rw [h]
@[simp] theorem logCapture_mirrors (s : State) (c : Capture) : (logCapture s c).mirrors = s.mirrors := by
  obtain ⟨_, _, h⟩ := logCapture_form s c; rw [h]
@[simp] theorem logCapture_custody (s : State) (c : Capture) : (logCapture s c).custody = s.custody := by
  obtain ⟨_, _, h⟩ := logCapture_form s c; rw [h]
@[simp] theorem logCapture_dlink (s : State) (c : Capture) : (logCapture s c).dlink = s.dlink := by
  obtain ⟨_, _, h⟩ := logCapture_form s c; rw [h]
@[simp] theorem logCapture_pcie (s : State) (c : Capture) : (logCapture s c).pcie = s.pcie := by
  obtain ⟨_, _, h⟩ := logCapture_form s c; rw [h]
@[simp] theorem logCapture_pins (s : State) (c : Capture) : (logCapture s c).pins = s.pins := by
  obtain ⟨_, _, h⟩ := logCapture_form s c; rw [h]
@[simp] theorem logCapture_regs (s : State) (c : Capture) : (logCapture s c).regs = s.regs := by
  obtain ⟨_, _, h⟩ := logCapture_form s c; rw [h]
@[simp] theorem logCapture_rings (s : State) (c : Capture) : (logCapture s c).rings = s.rings := by
  obtain ⟨_, _, h⟩ := logCapture_form s c; rw [h]
@[simp] theorem logCapture_sess0 (s : State) (c : Capture) : (logCapture s c).sess0 = s.sess0 := by
  obtain ⟨_, _, h⟩ := logCapture_form s c; rw [h]
@[simp] theorem logCapture_sess1 (s : State) (c : Capture) : (logCapture s c).sess1 = s.sess1 := by
  obtain ⟨_, _, h⟩ := logCapture_form s c; rw [h]
@[simp] theorem logCapture_cmds (s : State) (c : Capture) : (logCapture s c).cmds = s.cmds := by
  obtain ⟨_, _, h⟩ := logCapture_form s c; rw [h]
@[simp] theorem logCapture_fetchedLog (s : State) (c : Capture) : (logCapture s c).fetchedLog = s.fetchedLog := by
  obtain ⟨_, _, h⟩ := logCapture_form s c; rw [h]
@[simp] theorem logCapture_nextCmd (s : State) (c : Capture) : (logCapture s c).nextCmd = s.nextCmd := by
  obtain ⟨_, _, h⟩ := logCapture_form s c; rw [h]
@[simp] theorem logCapture_turns (s : State) (c : Capture) : (logCapture s c).turns = s.turns := by
  obtain ⟨_, _, h⟩ := logCapture_form s c; rw [h]
@[simp] theorem logCapture_heldOut (s : State) (c : Capture) : (logCapture s c).heldOut = s.heldOut := by
  obtain ⟨_, _, h⟩ := logCapture_form s c; rw [h]
@[simp] theorem logCapture_store (s : State) (c : Capture) : (logCapture s c).store = s.store := by
  obtain ⟨_, _, h⟩ := logCapture_form s c; rw [h]
@[simp] theorem logCapture_dram (s : State) (c : Capture) : (logCapture s c).dram = s.dram := by
  obtain ⟨_, _, h⟩ := logCapture_form s c; rw [h]
@[simp] theorem logCapture_nand (s : State) (c : Capture) : (logCapture s c).nand = s.nand := by
  obtain ⟨_, _, h⟩ := logCapture_form s c; rw [h]
@[simp] theorem logCapture_work (s : State) (c : Capture) : (logCapture s c).work = s.work := by
  obtain ⟨_, _, h⟩ := logCapture_form s c; rw [h]
@[simp] theorem logCapture_listen (s : State) (c : Capture) : (logCapture s c).listen = s.listen := by
  obtain ⟨_, _, h⟩ := logCapture_form s c; rw [h]
@[simp] theorem logCapture_cam0 (s : State) (c : Capture) : (logCapture s c).cam0 = s.cam0 := by
  obtain ⟨_, _, h⟩ := logCapture_form s c; rw [h]
@[simp] theorem logCapture_cam1 (s : State) (c : Capture) : (logCapture s c).cam1 = s.cam1 := by
  obtain ⟨_, _, h⟩ := logCapture_form s c; rw [h]
@[simp] theorem logCapture_power (s : State) (c : Capture) : (logCapture s c).power = s.power := by
  obtain ⟨_, _, h⟩ := logCapture_form s c; rw [h]
@[simp] theorem logCapture_group (s : State) (c : Capture) : (logCapture s c).group = s.group := by
  obtain ⟨_, _, h⟩ := logCapture_form s c; rw [h]
@[simp] theorem logCapture_i3c (s : State) (c : Capture) : (logCapture s c).i3c = s.i3c := by
  obtain ⟨_, _, h⟩ := logCapture_form s c; rw [h]
@[simp] theorem logCapture_fw (s : State) (c : Capture) : (logCapture s c).fw = s.fw := by
  obtain ⟨_, _, h⟩ := logCapture_form s c; rw [h]
@[simp] theorem logCapture_root (s : State) (c : Capture) : (logCapture s c).root = s.root := by
  obtain ⟨_, _, h⟩ := logCapture_form s c; rw [h]
@[simp] theorem logCapture_freeCtr (s : State) (c : Capture) : (logCapture s c).freeCtr = s.freeCtr := by
  obtain ⟨_, _, h⟩ := logCapture_form s c; rw [h]
@[simp] theorem logCapture_pending (s : State) (c : Capture) : (logCapture s c).pending = s.pending := by
  obtain ⟨_, _, h⟩ := logCapture_form s c; rw [h]

/-- An error is counted, logged or forwarded; a detail the spec leaves open draws a free value. -/
theorem raise_form (s : State) (c : Capture) : ∃ fa ob fc, raise s c = { s with fault := fa, obs := ob, freeCtr := fc } := by
  unfold raise
  split
  · exact ⟨_, s.obs, s.freeCtr, rfl⟩
  · split
    · exact ⟨_, s.obs, s.freeCtr, rfl⟩
    · dsimp only
      generalize (if detailOpen c = true then { c with detail := BitVec.ofNat 64 (Config.freeNat s.freeCtr) } else c) = d
      split <;> split <;> exact ⟨_, _, _, rfl⟩

@[simp] theorem raise_fuse (s : State) (c : Capture) : (raise s c).fuse = s.fuse := by
  obtain ⟨_, _, _, h⟩ := raise_form s c; rw [h]
@[simp] theorem raise_boot (s : State) (c : Capture) : (raise s c).boot = s.boot := by
  obtain ⟨_, _, _, h⟩ := raise_form s c; rw [h]
@[simp] theorem raise_stb (s : State) (c : Capture) : (raise s c).stb = s.stb := by
  obtain ⟨_, _, _, h⟩ := raise_form s c; rw [h]
@[simp] theorem raise_mirrors (s : State) (c : Capture) : (raise s c).mirrors = s.mirrors := by
  obtain ⟨_, _, _, h⟩ := raise_form s c; rw [h]
@[simp] theorem raise_custody (s : State) (c : Capture) : (raise s c).custody = s.custody := by
  obtain ⟨_, _, _, h⟩ := raise_form s c; rw [h]
@[simp] theorem raise_dlink (s : State) (c : Capture) : (raise s c).dlink = s.dlink := by
  obtain ⟨_, _, _, h⟩ := raise_form s c; rw [h]
@[simp] theorem raise_pcie (s : State) (c : Capture) : (raise s c).pcie = s.pcie := by
  obtain ⟨_, _, _, h⟩ := raise_form s c; rw [h]
@[simp] theorem raise_pins (s : State) (c : Capture) : (raise s c).pins = s.pins := by
  obtain ⟨_, _, _, h⟩ := raise_form s c; rw [h]
@[simp] theorem raise_regs (s : State) (c : Capture) : (raise s c).regs = s.regs := by
  obtain ⟨_, _, _, h⟩ := raise_form s c; rw [h]
@[simp] theorem raise_rings (s : State) (c : Capture) : (raise s c).rings = s.rings := by
  obtain ⟨_, _, _, h⟩ := raise_form s c; rw [h]
@[simp] theorem raise_sess0 (s : State) (c : Capture) : (raise s c).sess0 = s.sess0 := by
  obtain ⟨_, _, _, h⟩ := raise_form s c; rw [h]
@[simp] theorem raise_sess1 (s : State) (c : Capture) : (raise s c).sess1 = s.sess1 := by
  obtain ⟨_, _, _, h⟩ := raise_form s c; rw [h]
@[simp] theorem raise_cmds (s : State) (c : Capture) : (raise s c).cmds = s.cmds := by
  obtain ⟨_, _, _, h⟩ := raise_form s c; rw [h]
@[simp] theorem raise_fetchedLog (s : State) (c : Capture) : (raise s c).fetchedLog = s.fetchedLog := by
  obtain ⟨_, _, _, h⟩ := raise_form s c; rw [h]
@[simp] theorem raise_nextCmd (s : State) (c : Capture) : (raise s c).nextCmd = s.nextCmd := by
  obtain ⟨_, _, _, h⟩ := raise_form s c; rw [h]
@[simp] theorem raise_turns (s : State) (c : Capture) : (raise s c).turns = s.turns := by
  obtain ⟨_, _, _, h⟩ := raise_form s c; rw [h]
@[simp] theorem raise_heldOut (s : State) (c : Capture) : (raise s c).heldOut = s.heldOut := by
  obtain ⟨_, _, _, h⟩ := raise_form s c; rw [h]
@[simp] theorem raise_store (s : State) (c : Capture) : (raise s c).store = s.store := by
  obtain ⟨_, _, _, h⟩ := raise_form s c; rw [h]
@[simp] theorem raise_dram (s : State) (c : Capture) : (raise s c).dram = s.dram := by
  obtain ⟨_, _, _, h⟩ := raise_form s c; rw [h]
@[simp] theorem raise_nand (s : State) (c : Capture) : (raise s c).nand = s.nand := by
  obtain ⟨_, _, _, h⟩ := raise_form s c; rw [h]
@[simp] theorem raise_work (s : State) (c : Capture) : (raise s c).work = s.work := by
  obtain ⟨_, _, _, h⟩ := raise_form s c; rw [h]
@[simp] theorem raise_listen (s : State) (c : Capture) : (raise s c).listen = s.listen := by
  obtain ⟨_, _, _, h⟩ := raise_form s c; rw [h]
@[simp] theorem raise_cam0 (s : State) (c : Capture) : (raise s c).cam0 = s.cam0 := by
  obtain ⟨_, _, _, h⟩ := raise_form s c; rw [h]
@[simp] theorem raise_cam1 (s : State) (c : Capture) : (raise s c).cam1 = s.cam1 := by
  obtain ⟨_, _, _, h⟩ := raise_form s c; rw [h]
@[simp] theorem raise_power (s : State) (c : Capture) : (raise s c).power = s.power := by
  obtain ⟨_, _, _, h⟩ := raise_form s c; rw [h]
@[simp] theorem raise_group (s : State) (c : Capture) : (raise s c).group = s.group := by
  obtain ⟨_, _, _, h⟩ := raise_form s c; rw [h]
@[simp] theorem raise_i3c (s : State) (c : Capture) : (raise s c).i3c = s.i3c := by
  obtain ⟨_, _, _, h⟩ := raise_form s c; rw [h]
@[simp] theorem raise_fw (s : State) (c : Capture) : (raise s c).fw = s.fw := by
  obtain ⟨_, _, _, h⟩ := raise_form s c; rw [h]
@[simp] theorem raise_root (s : State) (c : Capture) : (raise s c).root = s.root := by
  obtain ⟨_, _, _, h⟩ := raise_form s c; rw [h]
@[simp] theorem raise_pending (s : State) (c : Capture) : (raise s c).pending = s.pending := by
  obtain ⟨_, _, _, h⟩ := raise_form s c; rw [h]

/-- A completion entry is written to host memory, and the ring counts it. -/
theorem postEntry_form (s : State) (fn : Fn) (rn : Nat) (se : Bool) (rc : List Byte) : ∃ rg st, postEntry s fn rn se rc = { s with rings := rg, store := st } := by
  exact ⟨_, _, rfl⟩

@[simp] theorem postEntry_fuse (s : State) (fn : Fn) (rn : Nat) (se : Bool) (rc : List Byte) : (postEntry s fn rn se rc).fuse = s.fuse := by
  obtain ⟨_, _, h⟩ := postEntry_form s fn rn se rc; rw [h]
@[simp] theorem postEntry_boot (s : State) (fn : Fn) (rn : Nat) (se : Bool) (rc : List Byte) : (postEntry s fn rn se rc).boot = s.boot := by
  obtain ⟨_, _, h⟩ := postEntry_form s fn rn se rc; rw [h]
@[simp] theorem postEntry_stb (s : State) (fn : Fn) (rn : Nat) (se : Bool) (rc : List Byte) : (postEntry s fn rn se rc).stb = s.stb := by
  obtain ⟨_, _, h⟩ := postEntry_form s fn rn se rc; rw [h]
@[simp] theorem postEntry_mirrors (s : State) (fn : Fn) (rn : Nat) (se : Bool) (rc : List Byte) : (postEntry s fn rn se rc).mirrors = s.mirrors := by
  obtain ⟨_, _, h⟩ := postEntry_form s fn rn se rc; rw [h]
@[simp] theorem postEntry_custody (s : State) (fn : Fn) (rn : Nat) (se : Bool) (rc : List Byte) : (postEntry s fn rn se rc).custody = s.custody := by
  obtain ⟨_, _, h⟩ := postEntry_form s fn rn se rc; rw [h]
@[simp] theorem postEntry_dlink (s : State) (fn : Fn) (rn : Nat) (se : Bool) (rc : List Byte) : (postEntry s fn rn se rc).dlink = s.dlink := by
  obtain ⟨_, _, h⟩ := postEntry_form s fn rn se rc; rw [h]
@[simp] theorem postEntry_pcie (s : State) (fn : Fn) (rn : Nat) (se : Bool) (rc : List Byte) : (postEntry s fn rn se rc).pcie = s.pcie := by
  obtain ⟨_, _, h⟩ := postEntry_form s fn rn se rc; rw [h]
@[simp] theorem postEntry_pins (s : State) (fn : Fn) (rn : Nat) (se : Bool) (rc : List Byte) : (postEntry s fn rn se rc).pins = s.pins := by
  obtain ⟨_, _, h⟩ := postEntry_form s fn rn se rc; rw [h]
@[simp] theorem postEntry_regs (s : State) (fn : Fn) (rn : Nat) (se : Bool) (rc : List Byte) : (postEntry s fn rn se rc).regs = s.regs := by
  obtain ⟨_, _, h⟩ := postEntry_form s fn rn se rc; rw [h]
@[simp] theorem postEntry_sess0 (s : State) (fn : Fn) (rn : Nat) (se : Bool) (rc : List Byte) : (postEntry s fn rn se rc).sess0 = s.sess0 := by
  obtain ⟨_, _, h⟩ := postEntry_form s fn rn se rc; rw [h]
@[simp] theorem postEntry_sess1 (s : State) (fn : Fn) (rn : Nat) (se : Bool) (rc : List Byte) : (postEntry s fn rn se rc).sess1 = s.sess1 := by
  obtain ⟨_, _, h⟩ := postEntry_form s fn rn se rc; rw [h]
@[simp] theorem postEntry_cmds (s : State) (fn : Fn) (rn : Nat) (se : Bool) (rc : List Byte) : (postEntry s fn rn se rc).cmds = s.cmds := by
  obtain ⟨_, _, h⟩ := postEntry_form s fn rn se rc; rw [h]
@[simp] theorem postEntry_fetchedLog (s : State) (fn : Fn) (rn : Nat) (se : Bool) (rc : List Byte) : (postEntry s fn rn se rc).fetchedLog = s.fetchedLog := by
  obtain ⟨_, _, h⟩ := postEntry_form s fn rn se rc; rw [h]
@[simp] theorem postEntry_nextCmd (s : State) (fn : Fn) (rn : Nat) (se : Bool) (rc : List Byte) : (postEntry s fn rn se rc).nextCmd = s.nextCmd := by
  obtain ⟨_, _, h⟩ := postEntry_form s fn rn se rc; rw [h]
@[simp] theorem postEntry_turns (s : State) (fn : Fn) (rn : Nat) (se : Bool) (rc : List Byte) : (postEntry s fn rn se rc).turns = s.turns := by
  obtain ⟨_, _, h⟩ := postEntry_form s fn rn se rc; rw [h]
@[simp] theorem postEntry_heldOut (s : State) (fn : Fn) (rn : Nat) (se : Bool) (rc : List Byte) : (postEntry s fn rn se rc).heldOut = s.heldOut := by
  obtain ⟨_, _, h⟩ := postEntry_form s fn rn se rc; rw [h]
@[simp] theorem postEntry_dram (s : State) (fn : Fn) (rn : Nat) (se : Bool) (rc : List Byte) : (postEntry s fn rn se rc).dram = s.dram := by
  obtain ⟨_, _, h⟩ := postEntry_form s fn rn se rc; rw [h]
@[simp] theorem postEntry_nand (s : State) (fn : Fn) (rn : Nat) (se : Bool) (rc : List Byte) : (postEntry s fn rn se rc).nand = s.nand := by
  obtain ⟨_, _, h⟩ := postEntry_form s fn rn se rc; rw [h]
@[simp] theorem postEntry_work (s : State) (fn : Fn) (rn : Nat) (se : Bool) (rc : List Byte) : (postEntry s fn rn se rc).work = s.work := by
  obtain ⟨_, _, h⟩ := postEntry_form s fn rn se rc; rw [h]
@[simp] theorem postEntry_listen (s : State) (fn : Fn) (rn : Nat) (se : Bool) (rc : List Byte) : (postEntry s fn rn se rc).listen = s.listen := by
  obtain ⟨_, _, h⟩ := postEntry_form s fn rn se rc; rw [h]
@[simp] theorem postEntry_cam0 (s : State) (fn : Fn) (rn : Nat) (se : Bool) (rc : List Byte) : (postEntry s fn rn se rc).cam0 = s.cam0 := by
  obtain ⟨_, _, h⟩ := postEntry_form s fn rn se rc; rw [h]
@[simp] theorem postEntry_cam1 (s : State) (fn : Fn) (rn : Nat) (se : Bool) (rc : List Byte) : (postEntry s fn rn se rc).cam1 = s.cam1 := by
  obtain ⟨_, _, h⟩ := postEntry_form s fn rn se rc; rw [h]
@[simp] theorem postEntry_power (s : State) (fn : Fn) (rn : Nat) (se : Bool) (rc : List Byte) : (postEntry s fn rn se rc).power = s.power := by
  obtain ⟨_, _, h⟩ := postEntry_form s fn rn se rc; rw [h]
@[simp] theorem postEntry_fault (s : State) (fn : Fn) (rn : Nat) (se : Bool) (rc : List Byte) : (postEntry s fn rn se rc).fault = s.fault := by
  obtain ⟨_, _, h⟩ := postEntry_form s fn rn se rc; rw [h]
@[simp] theorem postEntry_obs (s : State) (fn : Fn) (rn : Nat) (se : Bool) (rc : List Byte) : (postEntry s fn rn se rc).obs = s.obs := by
  obtain ⟨_, _, h⟩ := postEntry_form s fn rn se rc; rw [h]
@[simp] theorem postEntry_group (s : State) (fn : Fn) (rn : Nat) (se : Bool) (rc : List Byte) : (postEntry s fn rn se rc).group = s.group := by
  obtain ⟨_, _, h⟩ := postEntry_form s fn rn se rc; rw [h]
@[simp] theorem postEntry_i3c (s : State) (fn : Fn) (rn : Nat) (se : Bool) (rc : List Byte) : (postEntry s fn rn se rc).i3c = s.i3c := by
  obtain ⟨_, _, h⟩ := postEntry_form s fn rn se rc; rw [h]
@[simp] theorem postEntry_fw (s : State) (fn : Fn) (rn : Nat) (se : Bool) (rc : List Byte) : (postEntry s fn rn se rc).fw = s.fw := by
  obtain ⟨_, _, h⟩ := postEntry_form s fn rn se rc; rw [h]
@[simp] theorem postEntry_root (s : State) (fn : Fn) (rn : Nat) (se : Bool) (rc : List Byte) : (postEntry s fn rn se rc).root = s.root := by
  obtain ⟨_, _, h⟩ := postEntry_form s fn rn se rc; rw [h]
@[simp] theorem postEntry_freeCtr (s : State) (fn : Fn) (rn : Nat) (se : Bool) (rc : List Byte) : (postEntry s fn rn se rc).freeCtr = s.freeCtr := by
  obtain ⟨_, _, h⟩ := postEntry_form s fn rn se rc; rw [h]
@[simp] theorem postEntry_pending (s : State) (fn : Fn) (rn : Nat) (se : Bool) (rc : List Byte) : (postEntry s fn rn se rc).pending = s.pending := by
  obtain ⟨_, _, h⟩ := postEntry_form s fn rn se rc; rw [h]

/-- A record is entered in its completion ring, or held for the link. -/
theorem postRecord_form (s : State) (fn : Fn) (rn : Nat) (se co : Bool) (rc : List Byte) : ∃ pc pi rg ho st, postRecord s fn rn se co rc = { s with pcie := pc, pins := pi, rings := rg, heldOut := ho, store := st } := by
  unfold postRecord
  split
  · obtain ⟨rg, st, h⟩ := postEntry_form s fn rn se rc
    exact ⟨s.pcie, s.pins, rg, s.heldOut, st, h⟩
  · obtain ⟨pc, pi, h⟩ := leaveLink_form { s with heldOut := s.heldOut ++ [{ fn := fn, ring := rn, isSealed := se, record := rc }] } fn
    exact ⟨pc, pi, s.rings, _, s.store, h⟩

@[simp] theorem postRecord_fuse (s : State) (fn : Fn) (rn : Nat) (se co : Bool) (rc : List Byte) : (postRecord s fn rn se co rc).fuse = s.fuse := by
  obtain ⟨_, _, _, _, _, h⟩ := postRecord_form s fn rn se co rc; rw [h]
@[simp] theorem postRecord_boot (s : State) (fn : Fn) (rn : Nat) (se co : Bool) (rc : List Byte) : (postRecord s fn rn se co rc).boot = s.boot := by
  obtain ⟨_, _, _, _, _, h⟩ := postRecord_form s fn rn se co rc; rw [h]
@[simp] theorem postRecord_stb (s : State) (fn : Fn) (rn : Nat) (se co : Bool) (rc : List Byte) : (postRecord s fn rn se co rc).stb = s.stb := by
  obtain ⟨_, _, _, _, _, h⟩ := postRecord_form s fn rn se co rc; rw [h]
@[simp] theorem postRecord_mirrors (s : State) (fn : Fn) (rn : Nat) (se co : Bool) (rc : List Byte) : (postRecord s fn rn se co rc).mirrors = s.mirrors := by
  obtain ⟨_, _, _, _, _, h⟩ := postRecord_form s fn rn se co rc; rw [h]
@[simp] theorem postRecord_custody (s : State) (fn : Fn) (rn : Nat) (se co : Bool) (rc : List Byte) : (postRecord s fn rn se co rc).custody = s.custody := by
  obtain ⟨_, _, _, _, _, h⟩ := postRecord_form s fn rn se co rc; rw [h]
@[simp] theorem postRecord_dlink (s : State) (fn : Fn) (rn : Nat) (se co : Bool) (rc : List Byte) : (postRecord s fn rn se co rc).dlink = s.dlink := by
  obtain ⟨_, _, _, _, _, h⟩ := postRecord_form s fn rn se co rc; rw [h]
@[simp] theorem postRecord_regs (s : State) (fn : Fn) (rn : Nat) (se co : Bool) (rc : List Byte) : (postRecord s fn rn se co rc).regs = s.regs := by
  obtain ⟨_, _, _, _, _, h⟩ := postRecord_form s fn rn se co rc; rw [h]
@[simp] theorem postRecord_sess0 (s : State) (fn : Fn) (rn : Nat) (se co : Bool) (rc : List Byte) : (postRecord s fn rn se co rc).sess0 = s.sess0 := by
  obtain ⟨_, _, _, _, _, h⟩ := postRecord_form s fn rn se co rc; rw [h]
@[simp] theorem postRecord_sess1 (s : State) (fn : Fn) (rn : Nat) (se co : Bool) (rc : List Byte) : (postRecord s fn rn se co rc).sess1 = s.sess1 := by
  obtain ⟨_, _, _, _, _, h⟩ := postRecord_form s fn rn se co rc; rw [h]
@[simp] theorem postRecord_cmds (s : State) (fn : Fn) (rn : Nat) (se co : Bool) (rc : List Byte) : (postRecord s fn rn se co rc).cmds = s.cmds := by
  obtain ⟨_, _, _, _, _, h⟩ := postRecord_form s fn rn se co rc; rw [h]
@[simp] theorem postRecord_fetchedLog (s : State) (fn : Fn) (rn : Nat) (se co : Bool) (rc : List Byte) : (postRecord s fn rn se co rc).fetchedLog = s.fetchedLog := by
  obtain ⟨_, _, _, _, _, h⟩ := postRecord_form s fn rn se co rc; rw [h]
@[simp] theorem postRecord_nextCmd (s : State) (fn : Fn) (rn : Nat) (se co : Bool) (rc : List Byte) : (postRecord s fn rn se co rc).nextCmd = s.nextCmd := by
  obtain ⟨_, _, _, _, _, h⟩ := postRecord_form s fn rn se co rc; rw [h]
@[simp] theorem postRecord_turns (s : State) (fn : Fn) (rn : Nat) (se co : Bool) (rc : List Byte) : (postRecord s fn rn se co rc).turns = s.turns := by
  obtain ⟨_, _, _, _, _, h⟩ := postRecord_form s fn rn se co rc; rw [h]
@[simp] theorem postRecord_dram (s : State) (fn : Fn) (rn : Nat) (se co : Bool) (rc : List Byte) : (postRecord s fn rn se co rc).dram = s.dram := by
  obtain ⟨_, _, _, _, _, h⟩ := postRecord_form s fn rn se co rc; rw [h]
@[simp] theorem postRecord_nand (s : State) (fn : Fn) (rn : Nat) (se co : Bool) (rc : List Byte) : (postRecord s fn rn se co rc).nand = s.nand := by
  obtain ⟨_, _, _, _, _, h⟩ := postRecord_form s fn rn se co rc; rw [h]
@[simp] theorem postRecord_work (s : State) (fn : Fn) (rn : Nat) (se co : Bool) (rc : List Byte) : (postRecord s fn rn se co rc).work = s.work := by
  obtain ⟨_, _, _, _, _, h⟩ := postRecord_form s fn rn se co rc; rw [h]
@[simp] theorem postRecord_listen (s : State) (fn : Fn) (rn : Nat) (se co : Bool) (rc : List Byte) : (postRecord s fn rn se co rc).listen = s.listen := by
  obtain ⟨_, _, _, _, _, h⟩ := postRecord_form s fn rn se co rc; rw [h]
@[simp] theorem postRecord_cam0 (s : State) (fn : Fn) (rn : Nat) (se co : Bool) (rc : List Byte) : (postRecord s fn rn se co rc).cam0 = s.cam0 := by
  obtain ⟨_, _, _, _, _, h⟩ := postRecord_form s fn rn se co rc; rw [h]
@[simp] theorem postRecord_cam1 (s : State) (fn : Fn) (rn : Nat) (se co : Bool) (rc : List Byte) : (postRecord s fn rn se co rc).cam1 = s.cam1 := by
  obtain ⟨_, _, _, _, _, h⟩ := postRecord_form s fn rn se co rc; rw [h]
@[simp] theorem postRecord_power (s : State) (fn : Fn) (rn : Nat) (se co : Bool) (rc : List Byte) : (postRecord s fn rn se co rc).power = s.power := by
  obtain ⟨_, _, _, _, _, h⟩ := postRecord_form s fn rn se co rc; rw [h]
@[simp] theorem postRecord_fault (s : State) (fn : Fn) (rn : Nat) (se co : Bool) (rc : List Byte) : (postRecord s fn rn se co rc).fault = s.fault := by
  obtain ⟨_, _, _, _, _, h⟩ := postRecord_form s fn rn se co rc; rw [h]
@[simp] theorem postRecord_obs (s : State) (fn : Fn) (rn : Nat) (se co : Bool) (rc : List Byte) : (postRecord s fn rn se co rc).obs = s.obs := by
  obtain ⟨_, _, _, _, _, h⟩ := postRecord_form s fn rn se co rc; rw [h]
@[simp] theorem postRecord_group (s : State) (fn : Fn) (rn : Nat) (se co : Bool) (rc : List Byte) : (postRecord s fn rn se co rc).group = s.group := by
  obtain ⟨_, _, _, _, _, h⟩ := postRecord_form s fn rn se co rc; rw [h]
@[simp] theorem postRecord_i3c (s : State) (fn : Fn) (rn : Nat) (se co : Bool) (rc : List Byte) : (postRecord s fn rn se co rc).i3c = s.i3c := by
  obtain ⟨_, _, _, _, _, h⟩ := postRecord_form s fn rn se co rc; rw [h]
@[simp] theorem postRecord_fw (s : State) (fn : Fn) (rn : Nat) (se co : Bool) (rc : List Byte) : (postRecord s fn rn se co rc).fw = s.fw := by
  obtain ⟨_, _, _, _, _, h⟩ := postRecord_form s fn rn se co rc; rw [h]
@[simp] theorem postRecord_root (s : State) (fn : Fn) (rn : Nat) (se co : Bool) (rc : List Byte) : (postRecord s fn rn se co rc).root = s.root := by
  obtain ⟨_, _, _, _, _, h⟩ := postRecord_form s fn rn se co rc; rw [h]
@[simp] theorem postRecord_freeCtr (s : State) (fn : Fn) (rn : Nat) (se co : Bool) (rc : List Byte) : (postRecord s fn rn se co rc).freeCtr = s.freeCtr := by
  obtain ⟨_, _, _, _, _, h⟩ := postRecord_form s fn rn se co rc; rw [h]
@[simp] theorem postRecord_pending (s : State) (fn : Fn) (rn : Nat) (se co : Bool) (rc : List Byte) : (postRecord s fn rn se co rc).pending = s.pending := by
  obtain ⟨_, _, _, _, _, h⟩ := postRecord_form s fn rn se co rc; rw [h]

/-- A completion takes the command out of flight and posts its record. -/
theorem completeAt_form (s : State) (c : Cmd) (n : Nat) (x : Status) (r : List Byte) : ∃ pc pi rg cm ho st ob, completeAt s c n x r = { s with pcie := pc, pins := pi, rings := rg, cmds := cm, heldOut := ho, store := st, obs := ob } := by
  unfold completeAt
  dsimp only
  obtain ⟨pc, pi, rg, ho, st, h⟩ := postRecord_form (dropCmd s c.id) c.fn c.pkt.ring c.isSealed (x == .contested)
    (recordBytes c.pkt.seq (statusCode x) (c.warn ||| (if ctrlUncertain s then warnUncertain else 0)) 0 n (slowdown c.meas c.est) r)
  rw [h]
  obtain ⟨ob, e⟩ := traceCmd_form (countUp { dropCmd s c.id with pcie := pc, pins := pi, rings := rg, heldOut := ho, store := st } 1
    (match c.fn with | .pf0 => 0 | .pf1 => 1) 1) c 0x02
    (c.pkt.ring + 65536 * statusCode x + 2 ^ 32 * (c.warn ||| (if ctrlUncertain s then warnUncertain else 0)).toNat)
  exact ⟨pc, pi, rg, _, ho, st, ob, e⟩

@[simp] theorem completeAt_fuse (s : State) (c : Cmd) (n : Nat) (x : Status) (r : List Byte) : (completeAt s c n x r).fuse = s.fuse := by
  obtain ⟨_, _, _, _, _, _, _, h⟩ := completeAt_form s c n x r; rw [h]
@[simp] theorem completeAt_boot (s : State) (c : Cmd) (n : Nat) (x : Status) (r : List Byte) : (completeAt s c n x r).boot = s.boot := by
  obtain ⟨_, _, _, _, _, _, _, h⟩ := completeAt_form s c n x r; rw [h]
@[simp] theorem completeAt_stb (s : State) (c : Cmd) (n : Nat) (x : Status) (r : List Byte) : (completeAt s c n x r).stb = s.stb := by
  obtain ⟨_, _, _, _, _, _, _, h⟩ := completeAt_form s c n x r; rw [h]
@[simp] theorem completeAt_mirrors (s : State) (c : Cmd) (n : Nat) (x : Status) (r : List Byte) : (completeAt s c n x r).mirrors = s.mirrors := by
  obtain ⟨_, _, _, _, _, _, _, h⟩ := completeAt_form s c n x r; rw [h]
@[simp] theorem completeAt_custody (s : State) (c : Cmd) (n : Nat) (x : Status) (r : List Byte) : (completeAt s c n x r).custody = s.custody := by
  obtain ⟨_, _, _, _, _, _, _, h⟩ := completeAt_form s c n x r; rw [h]
@[simp] theorem completeAt_dlink (s : State) (c : Cmd) (n : Nat) (x : Status) (r : List Byte) : (completeAt s c n x r).dlink = s.dlink := by
  obtain ⟨_, _, _, _, _, _, _, h⟩ := completeAt_form s c n x r; rw [h]
@[simp] theorem completeAt_regs (s : State) (c : Cmd) (n : Nat) (x : Status) (r : List Byte) : (completeAt s c n x r).regs = s.regs := by
  obtain ⟨_, _, _, _, _, _, _, h⟩ := completeAt_form s c n x r; rw [h]
@[simp] theorem completeAt_sess0 (s : State) (c : Cmd) (n : Nat) (x : Status) (r : List Byte) : (completeAt s c n x r).sess0 = s.sess0 := by
  obtain ⟨_, _, _, _, _, _, _, h⟩ := completeAt_form s c n x r; rw [h]
@[simp] theorem completeAt_sess1 (s : State) (c : Cmd) (n : Nat) (x : Status) (r : List Byte) : (completeAt s c n x r).sess1 = s.sess1 := by
  obtain ⟨_, _, _, _, _, _, _, h⟩ := completeAt_form s c n x r; rw [h]
@[simp] theorem completeAt_fetchedLog (s : State) (c : Cmd) (n : Nat) (x : Status) (r : List Byte) : (completeAt s c n x r).fetchedLog = s.fetchedLog := by
  obtain ⟨_, _, _, _, _, _, _, h⟩ := completeAt_form s c n x r; rw [h]
@[simp] theorem completeAt_nextCmd (s : State) (c : Cmd) (n : Nat) (x : Status) (r : List Byte) : (completeAt s c n x r).nextCmd = s.nextCmd := by
  obtain ⟨_, _, _, _, _, _, _, h⟩ := completeAt_form s c n x r; rw [h]
@[simp] theorem completeAt_turns (s : State) (c : Cmd) (n : Nat) (x : Status) (r : List Byte) : (completeAt s c n x r).turns = s.turns := by
  obtain ⟨_, _, _, _, _, _, _, h⟩ := completeAt_form s c n x r; rw [h]
@[simp] theorem completeAt_dram (s : State) (c : Cmd) (n : Nat) (x : Status) (r : List Byte) : (completeAt s c n x r).dram = s.dram := by
  obtain ⟨_, _, _, _, _, _, _, h⟩ := completeAt_form s c n x r; rw [h]
@[simp] theorem completeAt_nand (s : State) (c : Cmd) (n : Nat) (x : Status) (r : List Byte) : (completeAt s c n x r).nand = s.nand := by
  obtain ⟨_, _, _, _, _, _, _, h⟩ := completeAt_form s c n x r; rw [h]
@[simp] theorem completeAt_work (s : State) (c : Cmd) (n : Nat) (x : Status) (r : List Byte) : (completeAt s c n x r).work = s.work := by
  obtain ⟨_, _, _, _, _, _, _, h⟩ := completeAt_form s c n x r; rw [h]
@[simp] theorem completeAt_listen (s : State) (c : Cmd) (n : Nat) (x : Status) (r : List Byte) : (completeAt s c n x r).listen = s.listen := by
  obtain ⟨_, _, _, _, _, _, _, h⟩ := completeAt_form s c n x r; rw [h]
@[simp] theorem completeAt_cam0 (s : State) (c : Cmd) (n : Nat) (x : Status) (r : List Byte) : (completeAt s c n x r).cam0 = s.cam0 := by
  obtain ⟨_, _, _, _, _, _, _, h⟩ := completeAt_form s c n x r; rw [h]
@[simp] theorem completeAt_cam1 (s : State) (c : Cmd) (n : Nat) (x : Status) (r : List Byte) : (completeAt s c n x r).cam1 = s.cam1 := by
  obtain ⟨_, _, _, _, _, _, _, h⟩ := completeAt_form s c n x r; rw [h]
@[simp] theorem completeAt_power (s : State) (c : Cmd) (n : Nat) (x : Status) (r : List Byte) : (completeAt s c n x r).power = s.power := by
  obtain ⟨_, _, _, _, _, _, _, h⟩ := completeAt_form s c n x r; rw [h]
@[simp] theorem completeAt_fault (s : State) (c : Cmd) (n : Nat) (x : Status) (r : List Byte) : (completeAt s c n x r).fault = s.fault := by
  obtain ⟨_, _, _, _, _, _, _, h⟩ := completeAt_form s c n x r; rw [h]
@[simp] theorem completeAt_group (s : State) (c : Cmd) (n : Nat) (x : Status) (r : List Byte) : (completeAt s c n x r).group = s.group := by
  obtain ⟨_, _, _, _, _, _, _, h⟩ := completeAt_form s c n x r; rw [h]
@[simp] theorem completeAt_i3c (s : State) (c : Cmd) (n : Nat) (x : Status) (r : List Byte) : (completeAt s c n x r).i3c = s.i3c := by
  obtain ⟨_, _, _, _, _, _, _, h⟩ := completeAt_form s c n x r; rw [h]
@[simp] theorem completeAt_fw (s : State) (c : Cmd) (n : Nat) (x : Status) (r : List Byte) : (completeAt s c n x r).fw = s.fw := by
  obtain ⟨_, _, _, _, _, _, _, h⟩ := completeAt_form s c n x r; rw [h]
@[simp] theorem completeAt_root (s : State) (c : Cmd) (n : Nat) (x : Status) (r : List Byte) : (completeAt s c n x r).root = s.root := by
  obtain ⟨_, _, _, _, _, _, _, h⟩ := completeAt_form s c n x r; rw [h]
@[simp] theorem completeAt_freeCtr (s : State) (c : Cmd) (n : Nat) (x : Status) (r : List Byte) : (completeAt s c n x r).freeCtr = s.freeCtr := by
  obtain ⟨_, _, _, _, _, _, _, h⟩ := completeAt_form s c n x r; rw [h]
@[simp] theorem completeAt_pending (s : State) (c : Cmd) (n : Nat) (x : Status) (r : List Byte) : (completeAt s c n x r).pending = s.pending := by
  obtain ⟨_, _, _, _, _, _, _, h⟩ := completeAt_form s c n x r; rw [h]

/-- A completion at the present stamp takes the command out of flight and posts its record. -/
theorem complete_form (s : State) (c : Cmd) (x : Status) (r : List Byte) : ∃ pc pi rg cm ho st ob, complete s c x r = { s with pcie := pc, pins := pi, rings := rg, cmds := cm, heldOut := ho, store := st, obs := ob } := by
  exact completeAt_form s c _ x r

@[simp] theorem complete_fuse (s : State) (c : Cmd) (x : Status) (r : List Byte) : (complete s c x r).fuse = s.fuse := by
  obtain ⟨_, _, _, _, _, _, _, h⟩ := complete_form s c x r; rw [h]
@[simp] theorem complete_boot (s : State) (c : Cmd) (x : Status) (r : List Byte) : (complete s c x r).boot = s.boot := by
  obtain ⟨_, _, _, _, _, _, _, h⟩ := complete_form s c x r; rw [h]
@[simp] theorem complete_stb (s : State) (c : Cmd) (x : Status) (r : List Byte) : (complete s c x r).stb = s.stb := by
  obtain ⟨_, _, _, _, _, _, _, h⟩ := complete_form s c x r; rw [h]
@[simp] theorem complete_mirrors (s : State) (c : Cmd) (x : Status) (r : List Byte) : (complete s c x r).mirrors = s.mirrors := by
  obtain ⟨_, _, _, _, _, _, _, h⟩ := complete_form s c x r; rw [h]
@[simp] theorem complete_custody (s : State) (c : Cmd) (x : Status) (r : List Byte) : (complete s c x r).custody = s.custody := by
  obtain ⟨_, _, _, _, _, _, _, h⟩ := complete_form s c x r; rw [h]
@[simp] theorem complete_dlink (s : State) (c : Cmd) (x : Status) (r : List Byte) : (complete s c x r).dlink = s.dlink := by
  obtain ⟨_, _, _, _, _, _, _, h⟩ := complete_form s c x r; rw [h]
@[simp] theorem complete_regs (s : State) (c : Cmd) (x : Status) (r : List Byte) : (complete s c x r).regs = s.regs := by
  obtain ⟨_, _, _, _, _, _, _, h⟩ := complete_form s c x r; rw [h]
@[simp] theorem complete_sess0 (s : State) (c : Cmd) (x : Status) (r : List Byte) : (complete s c x r).sess0 = s.sess0 := by
  obtain ⟨_, _, _, _, _, _, _, h⟩ := complete_form s c x r; rw [h]
@[simp] theorem complete_sess1 (s : State) (c : Cmd) (x : Status) (r : List Byte) : (complete s c x r).sess1 = s.sess1 := by
  obtain ⟨_, _, _, _, _, _, _, h⟩ := complete_form s c x r; rw [h]
@[simp] theorem complete_fetchedLog (s : State) (c : Cmd) (x : Status) (r : List Byte) : (complete s c x r).fetchedLog = s.fetchedLog := by
  obtain ⟨_, _, _, _, _, _, _, h⟩ := complete_form s c x r; rw [h]
@[simp] theorem complete_nextCmd (s : State) (c : Cmd) (x : Status) (r : List Byte) : (complete s c x r).nextCmd = s.nextCmd := by
  obtain ⟨_, _, _, _, _, _, _, h⟩ := complete_form s c x r; rw [h]
@[simp] theorem complete_turns (s : State) (c : Cmd) (x : Status) (r : List Byte) : (complete s c x r).turns = s.turns := by
  obtain ⟨_, _, _, _, _, _, _, h⟩ := complete_form s c x r; rw [h]
@[simp] theorem complete_dram (s : State) (c : Cmd) (x : Status) (r : List Byte) : (complete s c x r).dram = s.dram := by
  obtain ⟨_, _, _, _, _, _, _, h⟩ := complete_form s c x r; rw [h]
@[simp] theorem complete_nand (s : State) (c : Cmd) (x : Status) (r : List Byte) : (complete s c x r).nand = s.nand := by
  obtain ⟨_, _, _, _, _, _, _, h⟩ := complete_form s c x r; rw [h]
@[simp] theorem complete_work (s : State) (c : Cmd) (x : Status) (r : List Byte) : (complete s c x r).work = s.work := by
  obtain ⟨_, _, _, _, _, _, _, h⟩ := complete_form s c x r; rw [h]
@[simp] theorem complete_listen (s : State) (c : Cmd) (x : Status) (r : List Byte) : (complete s c x r).listen = s.listen := by
  obtain ⟨_, _, _, _, _, _, _, h⟩ := complete_form s c x r; rw [h]
@[simp] theorem complete_cam0 (s : State) (c : Cmd) (x : Status) (r : List Byte) : (complete s c x r).cam0 = s.cam0 := by
  obtain ⟨_, _, _, _, _, _, _, h⟩ := complete_form s c x r; rw [h]
@[simp] theorem complete_cam1 (s : State) (c : Cmd) (x : Status) (r : List Byte) : (complete s c x r).cam1 = s.cam1 := by
  obtain ⟨_, _, _, _, _, _, _, h⟩ := complete_form s c x r; rw [h]
@[simp] theorem complete_power (s : State) (c : Cmd) (x : Status) (r : List Byte) : (complete s c x r).power = s.power := by
  obtain ⟨_, _, _, _, _, _, _, h⟩ := complete_form s c x r; rw [h]
@[simp] theorem complete_fault (s : State) (c : Cmd) (x : Status) (r : List Byte) : (complete s c x r).fault = s.fault := by
  obtain ⟨_, _, _, _, _, _, _, h⟩ := complete_form s c x r; rw [h]
@[simp] theorem complete_group (s : State) (c : Cmd) (x : Status) (r : List Byte) : (complete s c x r).group = s.group := by
  obtain ⟨_, _, _, _, _, _, _, h⟩ := complete_form s c x r; rw [h]
@[simp] theorem complete_i3c (s : State) (c : Cmd) (x : Status) (r : List Byte) : (complete s c x r).i3c = s.i3c := by
  obtain ⟨_, _, _, _, _, _, _, h⟩ := complete_form s c x r; rw [h]
@[simp] theorem complete_fw (s : State) (c : Cmd) (x : Status) (r : List Byte) : (complete s c x r).fw = s.fw := by
  obtain ⟨_, _, _, _, _, _, _, h⟩ := complete_form s c x r; rw [h]
@[simp] theorem complete_root (s : State) (c : Cmd) (x : Status) (r : List Byte) : (complete s c x r).root = s.root := by
  obtain ⟨_, _, _, _, _, _, _, h⟩ := complete_form s c x r; rw [h]
@[simp] theorem complete_freeCtr (s : State) (c : Cmd) (x : Status) (r : List Byte) : (complete s c x r).freeCtr = s.freeCtr := by
  obtain ⟨_, _, _, _, _, _, _, h⟩ := complete_form s c x r; rw [h]
@[simp] theorem complete_pending (s : State) (c : Cmd) (x : Status) (r : List Byte) : (complete s c x r).pending = s.pending := by
  obtain ⟨_, _, _, _, _, _, _, h⟩ := complete_form s c x r; rw [h]

/-- A progress record is posted, or dropped and counted. -/
theorem progress_form (s : State) (c : Cmd) (p d : Nat) (o : Bool) : ∃ pc pi rg ho st ob, progress s c p d o = { s with pcie := pc, pins := pi, rings := rg, heldOut := ho, store := st, obs := ob } := by
  unfold progress
  split
  · exact ⟨s.pcie, s.pins, s.rings, s.heldOut, s.store, s.obs, rfl⟩
  · dsimp only
    obtain ⟨ob, e⟩ := traceCmd_form s c 0x07 (p + 2 ^ 32 * (d % 2 ^ 20))
    rw [e]
    split
    · exact ⟨s.pcie, s.pins, _, s.heldOut, s.store, ob, rfl⟩
    · obtain ⟨pc, pi, rg, ho, st, h⟩ := postRecord_form { s with obs := ob } c.fn c.pkt.ring c.isSealed false
        (recordBytes c.pkt.seq 0 0 0x80 (ctrlStamp { s with obs := ob }) (slowdown c.meas c.est) (natLe 2 p ++ natLe 4 d))
      exact ⟨pc, pi, rg, ho, st, ob, h⟩

@[simp] theorem progress_fuse (s : State) (c : Cmd) (p d : Nat) (o : Bool) : (progress s c p d o).fuse = s.fuse := by
  obtain ⟨_, _, _, _, _, _, h⟩ := progress_form s c p d o; rw [h]
@[simp] theorem progress_boot (s : State) (c : Cmd) (p d : Nat) (o : Bool) : (progress s c p d o).boot = s.boot := by
  obtain ⟨_, _, _, _, _, _, h⟩ := progress_form s c p d o; rw [h]
@[simp] theorem progress_stb (s : State) (c : Cmd) (p d : Nat) (o : Bool) : (progress s c p d o).stb = s.stb := by
  obtain ⟨_, _, _, _, _, _, h⟩ := progress_form s c p d o; rw [h]
@[simp] theorem progress_mirrors (s : State) (c : Cmd) (p d : Nat) (o : Bool) : (progress s c p d o).mirrors = s.mirrors := by
  obtain ⟨_, _, _, _, _, _, h⟩ := progress_form s c p d o; rw [h]
@[simp] theorem progress_custody (s : State) (c : Cmd) (p d : Nat) (o : Bool) : (progress s c p d o).custody = s.custody := by
  obtain ⟨_, _, _, _, _, _, h⟩ := progress_form s c p d o; rw [h]
@[simp] theorem progress_dlink (s : State) (c : Cmd) (p d : Nat) (o : Bool) : (progress s c p d o).dlink = s.dlink := by
  obtain ⟨_, _, _, _, _, _, h⟩ := progress_form s c p d o; rw [h]
@[simp] theorem progress_regs (s : State) (c : Cmd) (p d : Nat) (o : Bool) : (progress s c p d o).regs = s.regs := by
  obtain ⟨_, _, _, _, _, _, h⟩ := progress_form s c p d o; rw [h]
@[simp] theorem progress_sess0 (s : State) (c : Cmd) (p d : Nat) (o : Bool) : (progress s c p d o).sess0 = s.sess0 := by
  obtain ⟨_, _, _, _, _, _, h⟩ := progress_form s c p d o; rw [h]
@[simp] theorem progress_sess1 (s : State) (c : Cmd) (p d : Nat) (o : Bool) : (progress s c p d o).sess1 = s.sess1 := by
  obtain ⟨_, _, _, _, _, _, h⟩ := progress_form s c p d o; rw [h]
@[simp] theorem progress_cmds (s : State) (c : Cmd) (p d : Nat) (o : Bool) : (progress s c p d o).cmds = s.cmds := by
  obtain ⟨_, _, _, _, _, _, h⟩ := progress_form s c p d o; rw [h]
@[simp] theorem progress_fetchedLog (s : State) (c : Cmd) (p d : Nat) (o : Bool) : (progress s c p d o).fetchedLog = s.fetchedLog := by
  obtain ⟨_, _, _, _, _, _, h⟩ := progress_form s c p d o; rw [h]
@[simp] theorem progress_nextCmd (s : State) (c : Cmd) (p d : Nat) (o : Bool) : (progress s c p d o).nextCmd = s.nextCmd := by
  obtain ⟨_, _, _, _, _, _, h⟩ := progress_form s c p d o; rw [h]
@[simp] theorem progress_turns (s : State) (c : Cmd) (p d : Nat) (o : Bool) : (progress s c p d o).turns = s.turns := by
  obtain ⟨_, _, _, _, _, _, h⟩ := progress_form s c p d o; rw [h]
@[simp] theorem progress_dram (s : State) (c : Cmd) (p d : Nat) (o : Bool) : (progress s c p d o).dram = s.dram := by
  obtain ⟨_, _, _, _, _, _, h⟩ := progress_form s c p d o; rw [h]
@[simp] theorem progress_nand (s : State) (c : Cmd) (p d : Nat) (o : Bool) : (progress s c p d o).nand = s.nand := by
  obtain ⟨_, _, _, _, _, _, h⟩ := progress_form s c p d o; rw [h]
@[simp] theorem progress_work (s : State) (c : Cmd) (p d : Nat) (o : Bool) : (progress s c p d o).work = s.work := by
  obtain ⟨_, _, _, _, _, _, h⟩ := progress_form s c p d o; rw [h]
@[simp] theorem progress_listen (s : State) (c : Cmd) (p d : Nat) (o : Bool) : (progress s c p d o).listen = s.listen := by
  obtain ⟨_, _, _, _, _, _, h⟩ := progress_form s c p d o; rw [h]
@[simp] theorem progress_cam0 (s : State) (c : Cmd) (p d : Nat) (o : Bool) : (progress s c p d o).cam0 = s.cam0 := by
  obtain ⟨_, _, _, _, _, _, h⟩ := progress_form s c p d o; rw [h]
@[simp] theorem progress_cam1 (s : State) (c : Cmd) (p d : Nat) (o : Bool) : (progress s c p d o).cam1 = s.cam1 := by
  obtain ⟨_, _, _, _, _, _, h⟩ := progress_form s c p d o; rw [h]
@[simp] theorem progress_power (s : State) (c : Cmd) (p d : Nat) (o : Bool) : (progress s c p d o).power = s.power := by
  obtain ⟨_, _, _, _, _, _, h⟩ := progress_form s c p d o; rw [h]
@[simp] theorem progress_fault (s : State) (c : Cmd) (p d : Nat) (o : Bool) : (progress s c p d o).fault = s.fault := by
  obtain ⟨_, _, _, _, _, _, h⟩ := progress_form s c p d o; rw [h]
@[simp] theorem progress_group (s : State) (c : Cmd) (p d : Nat) (o : Bool) : (progress s c p d o).group = s.group := by
  obtain ⟨_, _, _, _, _, _, h⟩ := progress_form s c p d o; rw [h]
@[simp] theorem progress_i3c (s : State) (c : Cmd) (p d : Nat) (o : Bool) : (progress s c p d o).i3c = s.i3c := by
  obtain ⟨_, _, _, _, _, _, h⟩ := progress_form s c p d o; rw [h]
@[simp] theorem progress_fw (s : State) (c : Cmd) (p d : Nat) (o : Bool) : (progress s c p d o).fw = s.fw := by
  obtain ⟨_, _, _, _, _, _, h⟩ := progress_form s c p d o; rw [h]
@[simp] theorem progress_root (s : State) (c : Cmd) (p d : Nat) (o : Bool) : (progress s c p d o).root = s.root := by
  obtain ⟨_, _, _, _, _, _, h⟩ := progress_form s c p d o; rw [h]
@[simp] theorem progress_freeCtr (s : State) (c : Cmd) (p d : Nat) (o : Bool) : (progress s c p d o).freeCtr = s.freeCtr := by
  obtain ⟨_, _, _, _, _, _, h⟩ := progress_form s c p d o; rw [h]
@[simp] theorem progress_pending (s : State) (c : Cmd) (p d : Nat) (o : Bool) : (progress s c p d o).pending = s.pending := by
  obtain ⟨_, _, _, _, _, _, h⟩ := progress_form s c p d o; rw [h]

end Sys2Proof.Machine
end

