-- ==== Sys2Proof/Laws/Settle.lean ====
section
/-! SUPPORT. What settling does when a command can start, and what the boost rule leaves: the lemmas that statements about packets and
about boosts go through. -/

namespace Sys2Proof.Machine

theorem tryCmd_waiting {v t : State} {c : Cmd} (hp : c.phase = .waiting) (ht : tryCmd v c = some t) : t = startCmd v c := by
  unfold tryCmd at ht
  rw [hp] at ht
  dsimp only at ht
  split at ht
  · exact (Option.some.inj ht).symm
  · cases ht

theorem findSome_of_find {α β : Type} (f : α → Option β) (l : List α) {a : α} (h : l.find? (fun x => (f x).isSome) = some a) :
    l.findSome? f = f a := by
  induction l with
  | nil => cases h
  | cons x t ih =>
    cases hx : f x with
    | none =>
      rw [List.find?_cons_of_neg (by simp [hx])] at h
      simp [hx, ih h]
    | some y =>
      rw [List.find?_cons_of_pos (by simp [hx])] at h
      cases h
      simp [hx]

theorem settleFuel_succ : settleFuel = (settleFuel - 1) + 1 := by unfold settleFuel; rfl

/-- Settling starts the command that `firstStart` names, and then whatever follows. -/
theorem settle_firstStart {s w : State} {c : Cmd} (h : firstStart s = some (c, w)) : settle s = following (runCmd c w) := by
  unfold firstStart at h
  split at h
  · rename_i hl
    dsimp only at h
    split at h
    · rename_i d hd
      split at h
      · rename_i hp
        have hs := List.find?_some hd
        obtain ⟨t, ht⟩ := Option.isSome_iff_exists.mp hs
        have e : t = startCmd (readied s) d := tryCmd_waiting hp ht
        have hf : (readied s).cmds.findSome? (tryCmd (readied s)) = some t := by rw [findSome_of_find _ _ hd]; exact ht
        have hr : t = runCmd c w := by
          rw [e]
          cases h
          rfl
        unfold settle following ensuingWith
        dsimp only
        rw [if_pos hl, settleFuel_succ]
        change boostAll (wakeLink (demandAll (settleLoop ((settleFuel - 1) + 1) (readied s)))) = _
        rw [settleLoop, hf]
        rw [← hr]
        rfl
      · cases h
    · cases h
  · cases h

theorem tryCmd_parked {v u : State} {c : Cmd} {w : Wait} (hp : c.phase = .parked w) (hs : (tryCmd v c).isSome = true)
    (hu : resumeCmd c v = some u) : tryCmd v c = some u := by
  unfold tryCmd at hs ⊢
  rw [hp] at hs ⊢
  dsimp only at hs ⊢
  split at hs
  · rename_i hc
    rw [if_pos hc, hu]
  · cases hs

theorem goesOn_found {t v u : State} {c : Cmd} (h : goesOn t = some (c, v)) (hu : resumeCmd c v = some u) :
    v = tidy t ∧ (tidy t).cmds.findSome? (tryCmd (tidy t)) = some u := by
  unfold goesOn at h
  split at h
  · rename_i d hd
    split at h
    · rename_i w hp
      cases h
      exact ⟨rfl, by rw [findSome_of_find _ _ hd]; exact tryCmd_parked hp (by simpa using List.find?_some hd) hu⟩
    · cases h
  · cases h

/-- A parked command that can go on does so next. -/
theorem ensuingWith_goesOn {n : Nat} {t v u : State} {c : Cmd} (h : goesOn t = some (c, v)) (hu : resumeCmd c v = some u) :
    ensuingWith (n + 1) t = ensuingWith n u := by
  obtain ⟨-, hf⟩ := goesOn_found h hu
  unfold ensuingWith
  rw [settleLoop, hf]

theorem ensuing_goesOn {t v u : State} {c : Cmd} (h : goesOn t = some (c, v)) (hu : resumeCmd c v = some u) :
    ensuing t = thereafter u := by
  unfold ensuing thereafter following
  have e : settleFuel - 1 = (settleFuel - 2) + 1 := by unfold settleFuel; rfl
  rw [e, ensuingWith_goesOn h hu]

/-- Settling lets the parked command go on that `firstResume` names, and then whatever follows. -/
theorem settle_firstResume {s v u : State} {c : Cmd} (h : firstResume s = some (c, v)) (hu : resumeCmd c v = some u) :
    settle s = following u := by
  unfold firstResume at h
  split at h
  · rename_i hl
    unfold settle
    dsimp only
    rw [if_pos hl, settleFuel_succ]
    exact ensuingWith_goesOn (n := settleFuel - 1) h hu
  · cases h

theorem startOf_firstStart {op : Op} {opc : Nat} {p : Packet} {s w : State} {c : Cmd} (h : startOf op opc p s = some (c, w)) :
    canFetch s p.ring = true ∧ firstStart (fetchPacket op opc p (sweepOld s)) = some (c, w) ∧ c.op = op := by
  unfold startOf at h
  split at h
  · rename_i hc
    split at h
    · rename_i x hx
      split at h
      · rename_i hi
        cases h
        exact ⟨hc, hx, hi.2.1⟩
      · cases h
    · cases h
  · cases h

/-- A packet that starts at its fetch runs its own command in the state of its start. -/
theorem fetchRow_runs {op : Op} {opc : Nat} {p : Packet} {s w : State} {c : Cmd} (h : startOf op opc p s = some (c, w)) :
    fetchRow op opc p s = ensuing (runCmd c w) := by
  obtain ⟨hc, hf, -⟩ := startOf_firstStart h
  unfold fetchRow
  rw [if_pos hc]
  unfold duringEnd settleLate
  rw [settle_firstStart hf]
  rfl

theorem startOf_op {op : Op} {opc : Nat} {p : Packet} {s w : State} {c : Cmd} (h : startOf op opc p s = some (c, w)) : c.op = op :=
  (startOf_firstStart h).2.2

end Sys2Proof.Machine
end

