-- ==== Sys2Proof/WellFormed.lean ====
section
/-! DEFINITION. Well-formed commands: the operands lie where the spec lets them lie. -/

namespace Sys2Proof

/-- Opcodes that 05 Table 5.10 leaves reserved. -/
def reservedOpcode (opc : Nat) : Bool :=
  !(decide (opc ≤ 0x06) || (decide (0x10 ≤ opc) && decide (opc ≤ 0x15)) || (decide (0x20 ≤ opc) && decide (opc ≤ 0x26))
    || (decide (0x30 ≤ opc) && decide (opc ≤ 0x33)) || (decide (0x40 ≤ opc) && decide (opc ≤ 0x47)) || (decide (0x50 ≤ opc) && decide (opc ≤ 0x53))
    || (decide (0x60 ≤ opc) && decide (opc ≤ 0x65)) || (decide (0x70 ≤ opc) && decide (opc ≤ 0x72)) || (decide (0x80 ≤ opc) && decide (opc ≤ 0x82))
    || (decide (0x90 ≤ opc) && decide (opc ≤ 0x92)) || (decide (0xA0 ≤ opc) && decide (opc ≤ 0xA3)) || (decide (0xB0 ≤ opc) && decide (opc ≤ 0xB3)))

/-- A packet: a 12-bit ring number (05 R97), a 16-bit `PLEN`, 40 parameter bytes or the 88 of a PF1 packet, which has a tag of 16
bytes (05 Table 5.4, Table 5.6), and no block without `INDIRECT`. -/
def Packet.wf (p : Packet) : Bool :=
  decide (p.ring < 4096) && decide (p.plen < 65536)
    && ((p.body.length == 40 && p.tag.isEmpty) || (p.body.length == 88 && p.tag.length == 16))
    && (p.flags.getLsbD 2 || p.block.isEmpty)

/-- A camera port (04). -/
def portWf (port : Nat) : Bool := decide (port < 2)

/-- An 8-bit score, count or identifier. -/
def byteWf (n : Nat) : Bool := decide (n < 256)

/-- A keyword, verifier or speaker score (03 Table 3.7). -/
def scoreWf (n : Nat) : Bool := decide (n < 65536)

/-- The levels of an audio frame (03 R51, R57): energies in 0.25 dB units from -96 dB to 0, a share of at most 256, four data lines and the
160 TDM frames of 10 ms. -/
def AudioIn.wf (a : AudioIn) : Bool :=
  decide (-384 ≤ a.energy) && decide (a.energy ≤ 0) && decide (a.share ≤ 256) && decide (-384 ≤ a.vibEnergy) && decide (a.vibEnergy ≤ 0)
    && decide (a.dat.length ≤ 4) && decide (a.dat48.length ≤ 4) && decide (a.tdm.length ≤ 160)

/-- A cut of a tile or edge command names a coppice and a tile of it, and its ranges rise. -/
def WorkCut.wf (t : WorkCut) : Bool :=
  decide (t.coppice < 4) && decide (t.tile < 10) && decide (t.m0 ≤ t.m1) && decide (t.n0 ≤ t.n1) && decide (t.k0 ≤ t.k1)

/-- A control block names its writer by a unit number below 16 (16 Table 16.4). -/
def ControlBlock.wf (b : ControlBlock) : Bool := decide (b.writer < 16) && decide (b.pstate < 256) && decide (b.stamp < 2 ^ 64)

/-- The operands of a command lie in the ranges the spec gives them. -/
def Instr.wf : Instr → Bool
  | .nop p | .capsRead p | .sessionOpen p | .sessionClose p | .attest p | .keyExchange p | .cancel p | .ringCreate p | .ringDestroy p
  | .semCreate p | .semSignal p | .semWait p | .fence p | .alloc p | .free p | .copy p | .placeHint p | .quotaSet p | .tableBuild p
  | .compress p | .modelLoad p | .modelPin p | .modelEvict p | .modelInfo p | .seqCreate p | .seqFree p | .seqAppend p | .seqFork p
  | .streamOpen p | .streamChunk p | .streamClose p | .stateSwap p | .graphRun p | .stepPolicy p | .matmul p | .conv2d p | .pool2d p
  | .attention p | .trainStep p | .listenPolicy p | .wakeArm p | .audioRead p | .cameraConfig p | .cameraParams p | .frameRead p
  | .domainPolicy p | .powerLimit p | .powerStats p | .fwStage p | .fwActivate p | .fwQuery p | .faultRead p | .faultClear p
  | .faultInject p | .counterRead p | .traceConfig p | .watchSet p | .timeSync p | .groupJoin p | .peerSend p | .peerCredit p
  | .groupLeave p => p.wf
  | .badOpcode opc p => reservedOpcode opc.toNat && p.wf
  | .doorbell _ ring size _ => decide (ring < 4096) && (size == 1 || size == 2 || size == 4 || size == 8)
  | .ringStatusRead _ ring _ => decide (ring < 4096)
  | .registerWrite bus off data =>
    (match bus with | .bar0 _ => decide (off < 2 ^ 24) | .i3c => decide (off < 256)) && decide (data.length ≤ 256) && !data.isEmpty
  | .trainingDone _ l => l.all (fun ch => decide (ch < 32))
  | .ftlMountDone l => l.all (fun n => decide (n < 4))
  | .candidateOpen score => scoreWf score
  | .stage2Decision ver spk _ dir => scoreWf ver && scoreWf spk && (match dir with | some d => decide (d < 65536) | none => true)
  | .audioFrameBoundary a => a.wf
  | .csi2Packet port k => portWf port && decide (k.vc < 4) && decide (k.dataType < 64) && k.pixels.all (fun v => decide (v < 65536))
  | .frameStart port h => portWf port && decide (h.vc < 4)
  | .frameEnd port _ => portWf port
  | .streamStall port | .cameraTrigger port | .initWait port | .absentHold port => portWf port
  | .i2cTransferDone port _ _ => portWf port
  | .presenceScore port score att faces => portWf port && scoreWf score && decide (att < 4) && byteWf faces
  | .flitReceived dir f => decide (dir < 2) && (match f.msg with | .domainClaim d => decide (d ≤ 0x47) | _ => true)
  | .checkMessage d _ | .exactReload d _ | .strobeLost d => decide (0x10 ≤ d) && decide (d ≤ 0x47)
  | .laurelFatal src inst | .gorseFatal src inst | .integrityFault src inst => byteWf src && decide (inst < 65536)
  | .tileRetirement tile _ => decide (tile < 40)
  | .sramScrub _ _ bits _ => decide (bits ≤ 2)
  | .tileCommandAdmit t _ | .tileCommandCommit t _ | .edgeCommandCommit t _ => t.wf
  | .stepRelease _ m | .stepCommit _ m | .modelResident _ m => decide (m < 65536)
  | .migrationUnit ch rank _ => decide (ch < 32) && decide (rank < 2)
  | .trainingCheck ch r _ => decide (ch < 32) && (match r with | some k => decide (k < 2) | none => true)
  | .retrainingDone ch | .disturbWindow ch _ => decide (ch < 32)
  | .readRefresh ch _ | .programFailure ch _ => decide (ch < 4)
  | .busyEdge d _ _ | .idleEdge d _ | .idleTimerExpiry d | .entryStart d | .clockStopPoint d | .entryComplete d | .returnComplete d =>
    decide (d ≤ 0x47)
  | .controlBlock w c => decide (w < 16) && c.wf
  | .slotHeader w _ _ | .peerAbsent w => decide (w < 16)
  | .notBeforeReached _ | .deadlinePassed _ | .adminEnable _ _ | .ringSplit _ _ | .partition _ _ | .memConfig _ _ | .programOemKey
  | .blowOemLock | .blowDbgOff | .wakePending _ | .wakeCountsRead | .testStop _ | .testStopExpiry | .rcvCtrlGo _ | .recoveryLoadDone _ _
  | .recoveryReset | .entdaa _ | .rstdaa | .setnewda _ | .getpid | .getbcr | .getdcr | .getstatus | .syncMark _ | .gorsePowerOnReset _
  | .gorseResetRelease | .romChecksDone _ | .laurelRelease | .perstNAssert | .perstNRise | .configRequest _ | .functionLevelReset _
  | .d3coldEntry | .d3hotEntry _ | .d0Return _ | .privNLow | .privNRelease | .talkNPress _ | .talkNRelease _ | .voltageMonitorTrip _
  | .clockMonitorTrip _ | .thermalCap _ | .candidateTimeout | .gateOpen | .releaseMaxElapsed | .renewalDue | .renewal _ | .acknowledgement _
  | .leaseGuard | .leaseExpiry | .revoke | .quiet | .quietTimeout | .grant | .relinquish _ | .retrainingAttempt _ | .retrainLimit
  | .healthMessage | .healthLost | .watchdogExpiry _ | .aliveEdge | .captureForward | .scanChunkCommit _ _ | .pageWaitEnd _ | .slotGrant _
  | .prefetchCommit _ | .norWriteDone _ | .patrolScrub _ _ | .partitionClearDone | .controlBlockWrite | .snapshotBroadcast _
  | .groupJoinTimeout | .linkStateChange _ | .provisioningDone _ => true

end Sys2Proof
end

