-- ==== Sys2Proof/Tests/Slice0.lean ====
section
/-! SUPPORT. The model's own tests: ill-formed commands are refused, the worked examples of the spec come out as it prints them, and
for every clause of every statement a concrete state and operands meet all its hypotheses together (`meets_<statement>`, one
conjunct for each clause; a clause about the opaque cryptography or an opaque estimate has a theorem of its own). -/

namespace Sys2Proof.Machine

/-- `bytes` with fields `(offset, length, value)` written into it. -/
def tPut (l : List (Nat × Nat × Nat)) (bytes : List Byte) : List Byte :=
  l.foldl (fun b x => b.take x.1 ++ natLe x.2.1 x.2.2 ++ b.drop (x.1 + x.2.1)) bytes

/-- Parameter bytes of a PF0 packet, numbered from 24 as 05 Table 5.4 does. -/
def tArgs (l : List (Nat × Nat × Nat)) : List Byte := tPut (l.map (fun x => (x.1 - 24, x.2.1, x.2.2))) (zeroBytes 40)

/-- An inline packet on ring 0. -/
def tP (l : List (Nat × Nat × Nat)) : Packet := { seq := 5, body := tArgs l }

/-- A packet on ring 0 with a parameter block of `n` bytes. -/
def tPB (n : Nat) (l : List (Nat × Nat × Nat)) : Packet :=
  { flags := 4, plen := n, seq := 5, body := zeroBytes 40, block := tPut l (zeroBytes n) }

/-- Laurel released and holding the lease, every domain ON, a session open on PF0, and one packet published on ring 0. -/
def tBase : State :=
  let r := State.reset
  { r with
    boot := { inReset := false, stage := 4, capsValid := true, laurelReleased := true }
    stb := 6144000
    custody := { epoch := 1, state := .granted, line := true, expiry := 6150144, laurelExpiry := 6150144, renewAt := 6146048 }
    dlink := { trained := true }
    pcie := { link := .l0, d0 := .d0, d1 := .d0 }
    pins := { r.pins with grstN := true, perstN := true, privN := true, talkN := true }
    regs := { r.regs with ringSplit := 1024 }
    rings := [{ num := 0, enabled := true, cls := 0, log2 := 4, sqBase := 0x10000, cqBase := 0x20000, cwAddr := 0x30000, sqTail := 1, session := 1 }]
    sess0 := { number := 1, opened := 1 }
    nextCmd := 1
    dram := { groupsUp := 15 }
    power := { r.power with doms := r.power.doms.map (fun d => { d with state := .on }) } }

/-- `tBase` with a tier-2 allocation of PF0 at 1 MiB, 1 MiB long. -/
def tMem : State :=
  { tBase with store := { tBase.store with allocs := [{ fn := .pf0, session := 1, tier := 2, base := 0x100000, size := 0x100000 }] } }

/-- A dense tensor descriptor at block byte `o` for a tensor `off` bytes above 1 MiB in tier 2. -/
def tDesc (o off fmt : Nat) (dims : List Nat) (form idx : Nat := 0) : List (Nat × Nat × Nat) :=
  [(o, 8, 2 ^ 61 + 0x100000 + off), (o + 8, 2, fmt), (o + 10, 1, dims.length), (o + 11, 1, form), (o + 60, 4, idx)]
    ++ dims.zipIdx.map (fun x => (o + 12 + 4 * x.2, 4, x.1))

/-- A resident model of PF0 with one INT8 input and output of 16 columns and any number of rows, and a one-layer KV geometry. -/
def tModel : Model :=
  let t := tPut [(8, 2, 1), (10, 1, 2), (12, 4, 16), (16, 4, 0xFFFFFFFF)] (zeroBytes 64)
  { fn := .pf0, id := 5, inputs := [t], outputs := [t], kv := some { layers := 1, kvHeads := 1, headDim := 16, fmt := 1 }, recurrent := true,
    extent := 65536, resident := some 0x100000 }

def tSeq : Seqn := { handle := 9, fn := .pf0, session := 1, model := 5, cls := 1, geom := { layers := 1, kvHeads := 1, headDim := 16, fmt := 1 } }
def tStream : Stream := { handle := 9, stateHandle := 10, fn := .pf0, session := 1, model := 5, cls := 1 }

/-- `tMem` with `tModel` installed. -/
def tWork : State := { tMem with work := { tMem.work with models := [tModel] } }
def tWithSeq : State := { tWork with work := { tWork.work with seqs := [tSeq] } }
def tWithStream : State := { tWork with work := { tWork.work with streams := [tStream] } }

/-- `CTX` naming handle 9. -/
def tCtx (p : Packet) : Packet := { p with ctx := 0x80000009 }

/-- `tWork` with a microphone gate open on one frame. -/
def tAudio : State :=
  { tBase with listen := { tBase.listen with gateOpen := true, release := 6113280, frames := [{ stamp := 6113280, fseq := 4 }] } }

/-- A configuration block of 04 Table 4.9 at host address 0x4000, with its calibration set at 0x8000. -/
def tCamHost : Mem :=
  memWriteN (memWriteN [] 0x8000 [1]) 0x4000 (tPut [(0, 2, 1), (2, 1, 1), (3, 1, 0x2B), (4, 2, 80), (6, 2, 64), (8, 2, 64), (10, 1, 1),
    (20, 4, 102400), (35, 1, 30), (36, 2, 64), (38, 2, 64), (40, 1, 2), (48, 8, 0x8000), (56, 4, 8592)] (zeroBytes 64))

def tCamCfg : CamConfig := { dataType := 0x2B, fpsMax := 30 }

/-- `tBase` with camera 0 configured and its gate open. -/
def tCam : State :=
  { tBase with cam0 := { tBase.cam0 with configured := true, gateOpen := true, streaming := true, frameNo := 3, cfg := tCamCfg } }

def tPeer : Peer := { unit := 1, bar2 := 0x10000000, rxBase := 2 ^ 61 + 0x100000, rxLen := 4096, rxSem := 3, present := true, advLen := 4096, rxNext := 4 }

/-- `tMem` in a group of two with unit 1 present, and the semaphore of its receive area. -/
def tGroup : State :=
  { tMem with
    work := { tMem.work with sems := [{ num := 3, fn := .pf0, session := 1, count := 0 }] }
    group := { tMem.group with state := 2, groupId := 9, self := 0, units := 2, peers := [tPeer] } }

/-- The state that follows a command. -/
def tNext (i : Instr) (s : State) : State := match exec i s with | .next t => t | _ => s

/-- A matrix product of two rows, three columns and depth 4. -/
def tMatmul : Packet :=
  tPB 576 ([(0, 2, 1), (2, 2, 1), (4, 1, 1)] ++ tDesc 64 0 1 [4, 2] ++ tDesc 128 0x1000 1 [3, 4] ++ tDesc 192 0x2000 1 [3, 2])

/-- A 1 by 1 convolution on an edge engine. -/
def tConv : Packet :=
  tPB 512 ([(0, 2, 0x10), (2, 2, 1), (4, 1, 1), (11, 1, 2)] ++ (List.range 6).map (fun i => (12 + i, 1, 1)) ++ [(22, 2, 1)]
    ++ tDesc 64 0 1 [2, 4, 4] ++ tDesc 128 0x1000 1 [3, 2, 1, 1] ++ tDesc 192 0x2000 1 [3, 4, 4])

/-- The one tile command of `tMatmul`, and the one edge command of `tConv`. -/
def tCut : WorkCut := { work := .cmd 1, m1 := 2, n1 := 3, k1 := 4 }
def tEdgeCut : WorkCut := { work := .cmd 1, m1 := 16, n1 := 3, k1 := 2 }

/-- The product has started, and its tile command has been admitted. -/
def tJob : State := tNext (.matmul tMatmul) tMem
def tTile : State := { tJob with work := { tJob.work with admitted := [{ cut := tCut }] } }

/-- The convolution has started, and its edge command has been admitted. -/
def tEdgeJob : State := tNext (.conv2d tConv) tMem
def tEdge : State := { tEdgeJob with work := { tEdgeJob.work with admitted := [{ cut := tEdgeCut, edge := true }] } }

/-- A graph run of tenant 1 in slot 0, and the batch step it joins. -/
def tGraphCmd : Cmd :=
  { id := 1, fn := .pf1, op := .graphRun, phase := .parked .step,
    pkt := { tPB 192 ([(0, 2, 1), (2, 2, 5), (5, 1, 1), (6, 1, 1)] ++ tDesc 64 0x3E0000000 1 [16, 2] ++ tDesc 128 0x3E0008000 1 [16, 2]) with ring := 3073 } }
def tStep : Step := { fn := .pf1, model := 5, release := 6143000, members := [{ slot := 0, kind := 3, handle := 0, cmd := 1, n := 1 }], cls := 1, coppices := 2 }
def tSlot : Slot := { fn := .pf1, num := 0, kind := 3, cmd := 1, cls := 1, effCls := 1, model := 5, ready := true, pending := 1 }
def tParted : State :=
  { tBase with
    regs := { tBase.regs with partition := 0x2222 }
    sess1 := { number := 2, opened := 1 }
    cmds := [tGraphCmd]
    work := { tBase.work with models := [{ tModel with fn := .pf1, kv := none, recurrent := false }], slots := [tSlot] } }

/-- A stream chunk of handle 9 in slot 0, and the batch step it has joined. -/
def tChunkCmd : Cmd :=
  { id := 1, fn := .pf0, op := .streamChunk, phase := .parked .step, pkt := tCtx (tPB 320 ([(0, 2, 1), (4, 4, 2), (8, 1, 2)] ++ tDesc 64 0 1 [0, 2])) }
def tScan : State :=
  { tWithStream with
    cmds := [tChunkCmd]
    work := { tWithStream.work with steps := [{ tStep with fn := .pf0, members := [{ slot := 0, kind := 2, handle := 9, cmd := 1, n := 2 }], coppices := 1 }] } }

/-- The first command in the order of fetch. -/
def tCmd (s : State) : Cmd := s.cmds.headD tGraphCmd

/-- A copy of 16 bytes from host memory to tier 2, before its first unit. -/
def tCopyCmd : Cmd :=
  { id := 1, fn := .pf0, op := .copy, phase := .parked .units, session := 1
    pkt := tP [(24, 8, 2 ^ 63 + 0x4000), (32, 8, 2 ^ 61 + 0x100000), (40, 8, 16)] }

/-- A batch step that executes on sequence 9. -/
def tSeqStep : Step := { tStep with fn := .pf0, members := [{ slot := 0, kind := 1, handle := 9, cmd := 1, n := 1 }] }

set_option linter.unusedVariables false
set_option maxRecDepth 100000
set_option Elab.async false

/-- A ring of PF1 with one packet published, in a session of tenant 1. -/
def tSealed : State :=
  { tBase with
    regs := { tBase.regs with partition := 0x2222 }
    rings := [{ num := 3073, enabled := true, log2 := 4, sqBase := 0x10000, cqBase := 0x20000, cwAddr := 0x30000, sqTail := 1, session := 2 }]
    sess1 := { number := 2, opened := 1, keys := [0, 0, 0, 0] } }

/-- A clear packet of PF1 whose command must be sealed, and a sealed packet with a block that is no sealed buffer. -/
def tClear : Packet := { ring := 3073, body := zeroBytes 88, tag := zeroBytes 16 }
def tSealedPkt : Packet := { ring := 3073, flags := 36, plen := 128, body := zeroBytes 88, tag := zeroBytes 16, block := zeroBytes 128 }

/- ### Ill-formed commands, one for each check -/

theorem test_illFormed_packets :
    [Instr.nop { tP [] with ring := 4096 }, .copy { tP [] with plen := 65536 }, .alloc { tP [] with body := zeroBytes 39 },
     .semWait { tP [] with body := zeroBytes 88 }, .semWait { tP [] with tag := [0] }, .matmul { tP [] with block := zeroBytes 576 }, .badOpcode 0x01 (tP []),
     .badOpcode 0x07 { tP [] with ring := 4096 }].all (fun i => !i.wf) = true := by decide +kernel

theorem test_illFormed_registers :
    [Instr.doorbell .pf0 4096 8 0, .doorbell .pf0 1 3 0, .ringStatusRead .pf0 4096 none, .registerWrite (.bar0 .pf0) (2 ^ 24) [0], .registerWrite .i3c 256 [0],
     .registerWrite .i3c 0 [], .registerWrite .i3c 0 (zeroBytes 257)].all (fun i => !i.wf) = true := by decide +kernel

theorem test_illFormed_sensors :
    [Instr.candidateOpen 65536, .stage2Decision 65536 0 0 none, .stage2Decision 0 65536 0 none, .stage2Decision 0 0 0 (some 65536),
     .audioFrameBoundary { energy := 1 }, .audioFrameBoundary { energy := -385 }, .audioFrameBoundary { share := 257 }, .audioFrameBoundary { vibEnergy := 1 },
     .audioFrameBoundary { vibEnergy := -385 }, .audioFrameBoundary { dat := List.replicate 5 {} }, .audioFrameBoundary { tdm := List.replicate 161 0 }, .csi2Packet 2 {}, .csi2Packet 0 { vc := 4 },
     .csi2Packet 0 { dataType := 64 }, .csi2Packet 0 { pixels := [65536] }, .frameStart 2 { vc := 0 }, .frameStart 0 { vc := 4 }, .frameEnd 2 .ok, .streamStall 2, .cameraTrigger 2, .initWait 2, .absentHold 2,
     .i2cTransferDone 2 true false, .presenceScore 2 0 0 0, .presenceScore 0 65536 0 0, .presenceScore 0 0 4 0, .presenceScore 0 0 0 256].all
      (fun i => !i.wf) = true := by decide +kernel

theorem test_illFormed_events :
    [Instr.trainingDone true [32], .ftlMountDone [4], .flitReceived 2 { crcOk := true }, .flitReceived 0 { crcOk := true, msg := .domainClaim 0x48 }, .checkMessage 0x0F 0, .exactReload 0x48 0, .strobeLost 0x0F, .laurelFatal 256 0,
     .gorseFatal 3 65536, .integrityFault 256 0, .tileRetirement 40 false, .sramScrub .gorse 0 3 0, .stepRelease .pf0 65536, .stepCommit .pf0 65536,
     .modelResident .pf0 65536, .migrationUnit 32 0 [], .migrationUnit 0 2 [], .trainingCheck 32 none false, .trainingCheck 0 (some 2) false, .retrainingDone 32,
     .disturbWindow 32 0, .readRefresh 4 0, .programFailure 4 0, .busyEdge 0x48 0 .host, .idleEdge 0x48 0, .idleTimerExpiry 0x48, .entryStart 0x48,
     .clockStopPoint 0x48, .entryComplete 0x48, .returnComplete 0x48].all (fun i => !i.wf) = true := by decide +kernel

theorem test_illFormed_cuts_and_peers :
    [Instr.tileCommandAdmit { tCut with coppice := 4 } {}, .tileCommandCommit { tCut with tile := 10 } none, .edgeCommandCommit { tCut with m0 := 3 } none,
     .tileCommandAdmit { tCut with n0 := 4 } {}, .tileCommandAdmit { tCut with k0 := 5 } {}, .controlBlock 16 {}, .controlBlock 1 { writer := 16 },
     .controlBlock 1 { pstate := 256 }, .controlBlock 1 { stamp := 2 ^ 64 }, .slotHeader 16 {} [], .peerAbsent 16].all (fun i => !i.wf) = true := by
  decide +kernel

theorem test_wellFormed :
    [Instr.nop (tP []), .matmul tMatmul, .badOpcode 0x07 (tP []), .tileCommandCommit tCut none, .nop tClear, .doorbell .pf0 0 8 1, .registerWrite .i3c 0x20 [1]].all
      (fun i => i.wf) = true := by decide +kernel

/- ### The worked examples of the spec -/

/-- 02 R30's example: `DEADLINE` 0x0000_2000 at 0x1_FFFF_F000. -/
theorem test_expand32 : expand32 0x2000 0x1FFFFF000 = 0x200002000 := by decide +kernel

/-- 08 Table 8.4. -/
theorem test_borders :
    [outSize 5 0 0 1 7 1, outSize 5 0 0 1 7 3, outSize 4 0 0 4 3 1, outSize 5 1 1 1 7 1, outSize 10 0 0 1 2 5, outSize 3 5 5 1 3 2] = [-1, 0, -4, 1, 2, 6] := by
  decide +kernel

/-- 09 R206's example: a directory of 960 B and 112 lists of 12,288 B. -/
theorem test_page_lists : ({ layers := 56, kvHeads := 8, headDim := 128, fmt := 1 } : KvGeom).dirBytes = 1377216 := by decide +kernel

/-- 10 R236's example: 12 marks at 10, 20, … 120 with a chunk of 256. -/
theorem test_scan_chunks :
    (let c : Cmd := { tChunkCmd with pkt := tPB 320 ([(2, 2, 12), (4, 4, 4096)] ++ (List.range 12).map (fun i => (192 + 2 * i, 2, 10 * (i + 1)))) }
     (scanChunk c 256 0, (scanChunk c 256 90).1)) = ((90, true), 256) := by decide +kernel

/-- 12 R300's example: offset 0x4_2345_6789 with a grain of 4 KiB. -/
theorem test_channel : channelOf State.reset 0x423456789 = 14 ∧ dataAddr State.reset 0x423456789 = 0x0868A789 := by decide +kernel

/-- 07's tensor A: the payload starts at 5,696. -/
theorem test_layout :
    (let d := descAt (tPut [(8, 2, 8), (10, 1, 2), (11, 1, 2), (12, 4, 2048), (16, 4, 1024), (60, 4, 4672)] (zeroBytes 64)) 0
     (d.rawSize, d.blocks, d.recordsLen, d.payload)) = (1048576, 256, 4096, 5696) := by decide +kernel

/-- 21's tile-map example: a row of TILE12 fails, then TILE13 is retired. -/
theorem test_tile_map :
    (let t := tNext (.tileRetirement 13 false) (tNext (.tileRetirement 12 true) { tBase with boot := { tBase.boot with mapGen := 5 } })
     (t.boot.mapGen, bytesAt (capsBytes t .pf0) 80 16))
      = (7, [0x08, 0x01, 0x00, 0x00, 0x0A, 0x0B, 0x0C, 0x12, 0x0E, 0x0F, 0x10, 0x11, 0xD0, 0x00, 0x00, 0x00]) := by decide +kernel

/-- 08 R196's example: an average at a corner, with and without `COUNT_PAD`. -/
def tPool (opts : Nat) : Packet :=
  tPB 192 ([(0, 2, 0x11), (2, 2, 1), (4, 1, 1), (6, 1, 1), (7, 1, opts), (12, 1, 3), (13, 1, 3)] ++ (List.range 8).map (fun i => (14 + i, 1, 1))
    ++ tDesc 64 0 1 [1, 2, 2] ++ [(118, 1, 0xFD)] ++ tDesc 128 0x2000 1 [1, 2, 2] ++ [(182, 1, 0xFD)])
def tPooled (opts : Nat) : State :=
  let t := tNext (.pool2d (tPool opts)) { tMem with store := { tMem.store with dram := [(0x100000, 10), (0x100001, 20), (0x100002, 30), (0x100003, 41)] } }
  let cut : WorkCut := { work := .cmd 1, m1 := 4, n1 := 1, k1 := 9 }
  tNext (.tileCommandCommit cut none) { t with work := { t.work with admitted := [{ cut := cut }] } }
theorem test_pool_average : memRead (tPooled 0).store.dram 0x102000 = 25 := by decide +kernel
theorem test_pool_count_pad : memRead (tPooled 1).store.dram 0x102000 = 11 := by decide +kernel

/-- 06 Table 6.14's pass: column 0 of a code4 product with a bias and a requantisation stores 25. -/
def tCode4 : Packet :=
  tPB 576 ([(0, 2, 1), (2, 2, 1), (4, 1, 1), (6, 1, 1), (8, 1, 0xF8)] ++ tDesc 64 0 1 [4, 1] ++ [(116, 2, 3), (118, 1, 0xFC)]
    ++ tDesc 128 0x1000 8 [2, 4] ++ [(182, 1, 0xFA), (184, 4, 8192)] ++ tDesc 192 0x8000 1 [2, 1] ++ [(244, 2, 0xFFF6), (246, 1, 0xFB)]
    ++ tDesc 256 0x9000 3 [2] ++ [(310, 1, 0xF7)])
def tCoded : State :=
  let d := memWriteN [] 0x100000 [11, 3, 0xFB, 20]
  let d := memWriteN (memWriteN (memWriteN (memWriteN d 0x101000 [0x72]) 0x101080 [0x27]) 0x101100 [0xF7]) 0x101180 [0x0F]
  let d := memWriteN d 0x103000 [0xFD, 0, 0xF4, 0, 0, 0, 0, 5, 0, 0, 0, 0, 0, 0, 0, 40, 1]
  let d := memWriteN d 0x109000 [11]
  let t := tNext (.matmul tCode4) { tMem with store := { tMem.store with dram := d } }
  let cut : WorkCut := { work := .cmd 1, m1 := 1, n1 := 2, k1 := 4 }
  tNext (.tileCommandCommit cut none) { t with work := { t.work with admitted := [{ cut := cut }] } }
theorem test_code4 : memRead tCoded.store.dram 0x108000 = 25 := by decide +kernel

/-- The check value of CRC-32C. -/
theorem test_crc32c : crc32c (ascii "123456789") = 0xE3069283 := by decide +kernel

/-- 05 Table 5.8: a NOP echoes its parameters in a record of 32 bytes. -/
theorem test_nop :
    memReadN (tNext (.nop (tP [(24, 4, 0xAABBCCDD)])) tBase).store.host 0x20000 4 = [5, 0, 0, 0]
      ∧ memReadN (tNext (.nop (tP [(24, 4, 0xAABBCCDD)])) tBase).store.host 0x20014 4 = [0xDD, 0xCC, 0xBB, 0xAA] := by decide +kernel

/- ### The hypotheses of the statements are met -/

theorem meets_StepTakesFrontCommand :
    ((let i : Instr := .rstdaa; let rest : List Instr := [.wakeCountsRead]; let s : State := { tBase with pending := [.rstdaa, .wakeCountsRead] }; decide (s.pending = i :: rest))) = true := by decide +kernel

theorem meets_IdleStepIsOneTick :
    ((let s : State := { tBase with boot := { tBase.boot with inReset := true } }; decide (s.pending = []) && ((s.boot.inReset)))
    && (let s : State := tBase; decide (s.pending = []) && (decide (s.boot.inReset = false) && (let x : State := { s with stb := s.stb + 1, pins := tickPins s.pins (s.stb + 1) }; true)))
    && (let s : State := tBase; decide (s.power.nextLimit = none))
    && (let s : State := { tBase with stb := 6144001 }; decide (s.stb % 30720 ≠ 0))
    && (let s : State := { tBase with power := { tBase.power with nextLimit := some 7 } }; let n : Nat := 7; decide (s.power.nextLimit = some n) && (decide (s.stb % 30720 = 0)))
    && (let s : State := tBase; decide (s.obs.trace0.staged = []))
    && (let s : State := tBase; decide (s.obs.trace1.staged = []))
    && (let s : State := tBase; decide (s.cmds = []))) = true := by decide +kernel

theorem meets_PacketStartsRunsItsCommand :
    ((let i : Instr := .nop (tP []); let s : State := tBase; (match packetRow i with | some (op, opc, p) => ((match startOf op opc p s with | some (_, _) => (true) | _ => false)) | _ => false))) = true := by decide +kernel

theorem meets_PacketRowsWaitForTheirFetch :
    ((let i : Instr := .nop (tP []); let s : State := State.reset; (match packetRow i with | some (_, _, p) => (decide (canFetch s p.ring = false)) | _ => false))
    && (let s : State := State.reset; decide (laurelRuns s = false))
    && (let s : State := State.reset; decide (s.custody.state ≠ .granted))
    && (let s : State := State.reset; decide (s.pcie.link = .down))
    && (let s : State := { tBase with pcie := { tBase.pcie with d0 := .d3hot } }; let rn : Nat := 0; decide (dState s (fnOfRing s rn) ≠ .d0))
    && (let s : State := tBase; let rn : Nat := 7; decide ((ringOf s rn).enabled = false))
    && (let s : State := tBase; let rn : Nat := 7; decide ((ringOf s rn).fetched = (ringOf s rn).sqTail))
    && (let s : State := { tBase with rings := tBase.rings.map (fun r => { r with cqTail := 16 }) }; let rn : Nat := 0; decide (freeEntries s (ringOf s rn) ≤ openOn s (ringOf s rn).num))
    && (let s : State := { tBase with rings := tBase.rings ++ [{ num := 1, cls := 1 }] }; let rn : Nat := 1; let q : Ring := tBase.rings.headD { num := 0 }; decide (q ∈ s.rings) && (decide (fnOfRing s q.num = fnOfRing s rn) && ((fetchable s q) && (decide (ringClass q < ringClass (ringOf s rn))))))) = true := by decide +kernel

theorem meets_FailedFetchCheckCompletes :
    ((let i : Instr := .nop (tP []); let s : State := tBase; (match packetRow i with | some (_, _, p) => ((canFetch s p.ring) && (let u : State := sweepOld s; let q : Packet := { p with body := fitBytes (bodyLen (fnOfRing u p.ring)) p.body }; true)) | _ => false))) = true := by decide +kernel

theorem meets_ReservedOpcodeFails :
    ((let opc : Byte := 7; let p : Packet := tP []; let s : State := tBase; decide (definedOpcodes.contains opc.toNat = false) && ((canFetch s p.ring) && (let u : State := sweepOld s; let q : Packet := { p with body := fitBytes (bodyLen (fnOfRing u p.ring)) p.body }; (match authenticate u (fnOfRing u p.ring) .badOpcode opc.toNat q with | some body => ((match openBlock u (fnOfRing u p.ring == Fn.pf1 && flag q 5) { q with body := body } with | .ok block => (let c : Cmd := cmdOfPacket u .badOpcode q true body block; true) | _ => false)) | _ => false))))
    && (let opc : Byte := 1; (definedOpcodes.contains opc.toNat))) = true := by decide +kernel

theorem meets_DeadlinesAtFetch :
    ((let s : State := tBase; let c : Cmd := { id := 0, fn := .pf0, op := .nop, pkt := { tP [] with flags := 2, deadline := 6143999 } }; decide (c.op ≠ .badOpcode) && ((opAllowed s c.fn c.op) && (decide (unitAbsent s c = false) && (decide ((sessionFree c.op = true ∨ c.session ≠ 0)) && ((check5 c.fn c.op c.pkt c.pkt.body (expandedNb s c.pkt) (expandedDl s c.pkt)) && ((match expandedDl s c.pkt with | some d => (decide (d < (ctrlStamp s : Int))) | _ => false)))))))
    && (let s : State := tBase; let c : Cmd := { id := 0, fn := .pf0, op := .nop, pkt := { tP [] with flags := 3, notBefore := 6144010, deadline := 6144009 } }; decide (c.op ≠ .badOpcode) && ((opAllowed s c.fn c.op) && (decide (unitAbsent s c = false) && (decide ((sessionFree c.op = true ∨ c.session ≠ 0)) && ((match expandedNb s c.pkt with | some n => ((match expandedDl s c.pkt with | some d => (decide (d < n)) | _ => false)) | _ => false))))))
    && (let i : Instr := .ringDestroy { tP [] with plen := 3 }; let s : State := tBase; (match packetRow i with | some (op, opc, p) => ((canFetch s p.ring) && (let u : State := sweepOld s; let q : Packet := { p with body := fitBytes (bodyLen (fnOfRing u p.ring)) p.body }; (match authenticate u (fnOfRing u p.ring) op opc q with | some body => ((match openBlock u (fnOfRing u p.ring == Fn.pf1 && flag q 5) { q with body := body } with | .ok block => (let c : Cmd := cmdOfPacket u op q true body block; (match fetchStatus u c none with | some st => (decide (st = .deadlineMissed ∨ st = .badParam)) | _ => false)) | _ => false)) | _ => false))) | _ => false))) = true := by decide +kernel

theorem meets_LowHalfExpansion :
    ((let p : Packet := { tP [] with flags := 1 }; (flag p 0))
    && (let p : Packet := { tP [] with flags := 2 }; (flag p 1))
    && (let a : U32 := 0x80000001; let b : U32 := 1; decide (a - b = 0x80000000#32))) = true := by decide +kernel

theorem meets_SessionCommandsComplete :
    ((let p : Packet := tP []; let s : State := tBase; (match startOf .nop 0x00 p s with | some (_, _) => (true) | _ => false))
    && (let p : Packet := tP [(32, 8, 0x4000), (40, 4, 512)]; let s : State := tBase; (match startOf .capsRead 0x01 p s with | some (_, _) => (true) | _ => false))
    && (let p : Packet := tP []; let s : State := tBase; (match startOf .sessionOpen 0x02 p s with | some (c, w) => ((match tenantKey w c.fn with | some _ => (decide ((sess w c.fn).lockedUntil ≤ ctrlStamp w) && (decide (arg c 24 1 = 0))) | _ => false)) | _ => false))
    && (let p : Packet := tP []; let s : State := tBase; (match startOf .sessionClose 0x03 p s with | some (_, _) => (true) | _ => false))) = true := by decide +kernel

theorem meets_TrustCommandsComplete :
    ((let p : Packet := tPB 64 [(32, 8, 0x4000), (40, 4, 0x4000), (44, 1, 1), (45, 1, 1)]; let s : State := tBase; (match startOf .attest 0x04 p s with | some (c, w) => (let listed : List Model := (if blk c 44 1 = 1 then (installed w c.fn).take 256 else []); let wantChain : Bool := decide (blk c 45 1 = 1 ∧ w.fw.certOk); let out : Nat := 4052 + 72 * listed.length + (if wantChain then 7656 else 0); decide (destNeed c out ≤ blk c 40 4) && (let body : List Byte := reportBody w c.fn (bytesAt c.pkt.block 0 32) listed (decide (blk c 44 1 = 1) && decide (256 < (installed w c.fn).length)); let report : List Byte := body ++ Config.mldsaSign (identityKey w) body attestLabel w.freeCtr; let chain : List Byte := (if wantChain then Config.certificates.1 ++ Config.certificates.2 else []); let x : State := writeDest (bumpFree w) c (blk c 32 8) (report ++ chain); let y : State := (match c.fn with | .pf1 => { x with root := { x.root with reportDigest := some (Config.sha3 report), reportKem := x.root.kemId } } | .pf0 => x); true)) | _ => false))
    && (let p : Packet := { tPB 1152 [(0, 2, 1), (8, 1, 7)] with ring := 3072, body := zeroBytes 88, tag := zeroBytes 16 }; let s : State := { tBase with rings := [{ num := 3072, enabled := true, log2 := 4, sqBase := 0x10000, cqBase := 0x20000, cwAddr := 0x30000, sqTail := 1 }], regs := { tBase.regs with partition := 0x101 }, root := { tBase.root with reportDigest := some 7 } }; (match startOf .keyExchange 0x05 p s with | some (c, w) => (decide (w.sess1.number = 0) && (decide (w.root.reportDigest.map digestBytes = some (bytesAt c.pkt.block 8 32)) && (decide (w.root.reportKem = w.root.kemId) && (let x : State := (if w.root.k1.isSome then discardTenant1 w else w); true)))) | _ => false))
    && (let p : Packet := tP [(24, 1, 3), (32, 8, 0x4000), (40, 4, 4096)]; let s : State := tBase; (match startOf .fwStage 0x80 p s with | some (c, w) => (decide (imageReason w (arg c 24 1) (memReadN w.store.host (arg c 32 8) (arg c 40 4)) ≠ 0)) | _ => false))
    && (let p : Packet := tP [(24, 1, 3)]; let s : State := { tBase with fw := { tBase.fw with staged := [{ component := 3 }] } }; (match startOf .fwActivate 0x81 p s with | some (c, w) => (decide (3 ≤ arg c 24 1) && ((match stagedOf w (arg c 24 1) with | some f => (decide (securityVersion w ≤ f.svn) && ((activationTurn w c) && ((quiescent w (arg c 24 1))))) | _ => false))) | _ => false))
    && (let p : Packet := tP [(24, 1, 1)]; let s : State := { tBase with fw := { tBase.fw with staged := [{ component := 1 }] } }; (match startOf .fwActivate 0x81 p s with | some (c, w) => (decide (arg c 24 1 ≤ 2) && (decide (c.aux = 0) && ((match stagedOf w (arg c 24 1) with | some f => (decide (securityVersion w ≤ f.svn)) | _ => false)))) | _ => false))
    && (let s : State := tNext (.fwActivate (tP [(24, 1, 1)])) { tBase with fw := { tBase.fw with staged := [{ component := 1 }] } }; let c : Cmd := { tCmd (tNext (.fwActivate (tP [(24, 1, 1)])) { tBase with fw := { tBase.fw with staged := [{ component := 1 }] } }) with aux := 1 }; decide (c.op = .fwActivate) && (decide (arg c 24 1 ≤ 2) && (decide (c.phase = .parked .policyHold) && (decide (c.aux = 1) && ((match stagedOf s (arg c 24 1) with | some f => (decide (securityVersion s ≤ f.svn) && ((activationTurn s c) && ((quiescent s (arg c 24 1))))) | _ => false))))))
    && (let p : Packet := tP [(32, 8, 0x4000)]; let s : State := tBase; (match startOf .fwQuery 0x82 p s with | some (_, _) => (true) | _ => false))) = true := by decide +kernel

theorem meets_RingCommandsComplete :
    ((let p : Packet := tP [(24, 2, 7), (26, 1, 4)]; let s : State := tBase; (match startOf .ringCreate 0x10 p s with | some (c, w) => (decide ((ringOf w (arg c 24 2)).enabled = false) && (decide (generationOf w c.fn (arg c 24 2) ≤ 65535) && (let r : Ring := { num := arg c 24 2, enabled := true, cls := arg c 27 1, log2 := arg c 26 1, sqBase := BitVec.ofNat 64 (arg c 28 8), cqBase := BitVec.ofNat 64 (arg c 36 8), cwAddr := BitVec.ofNat 64 (arg c 44 8), generation := generationOf w c.fn (arg c 24 2), session := sessionOf w c.fn, dbIgnored := (ringOf w (arg c 24 2)).dbIgnored }; true))) | _ => false))
    && (let p : Packet := tP [(24, 2, 7)]; let s : State := { tBase with rings := tBase.rings ++ [{ num := 7, enabled := true, log2 := 4, session := 1 }] }; (match startOf .ringDestroy 0x11 p s with | some (c, w) => ((sameSession w c (arg c 24 2)) && (let x : State := endAll w ((w.cmds.filter (fun d => d.pkt.ring == arg c 24 2)).map (·.id)) .cancelled; true)) | _ => false))
    && (let p : Packet := tP [(24, 2, 7)]; let s : State := { tBase with rings := tBase.rings ++ [{ num := 7, enabled := true, log2 := 4, session := 1 }] }; (match startOf .cancel 0x06 p s with | some (c, w) => ((sameSession w c (arg c 24 2))) | _ => false))
    && (let p : Packet := tP [(24, 2, 7)]; let s : State := { tBase with rings := tBase.rings ++ [{ num := 7, enabled := true, log2 := 4, session := 1 }] }; (match startOf .fence 0x15 p s with | some (c, w) => (((fenceRings c).all (sameSession w c)) && (let d : Cmd := { c with phase := .parked .others, awaited := (w.cmds.filter (fun x => (fenceRings c).contains x.pkt.ring && decide (x.id < c.id))).map (·.id) }; (match goesOn (setCmd w d) with | some (d0, v) => (decide (d0 = d) && (decide (stillOpen v d.awaited = false))) | _ => false))) | _ => false))) = true := by decide +kernel

theorem meets_SemaphoreCommandsComplete_part1 :
    ((let p : Packet := tP [(28, 4, 2), (32, 4, 0x80000009)]; let s : State := tWithSeq; (match startOf .semCreate 0x12 p s with | some (c, w) => (decide (arg c 24 1 = 0) && (let o : Nat := arg c 32 4; let r : Nat := arg c 36 2; (o.testBit 31) && ((contextExists w c.fn (o % 2 ^ 20)) && (decide (r ≠ 0xFFFF) && ((sameSession w c r) && ((match lowestFree (w.work.sems.map (·.num)) 1 65535 with | some n => (decide ((w.work.sems.filter (fun x => x.fn == c.fn)).length < semShare w c.fn) && (let x : Sem := { num := n, fn := c.fn, session := sessionOf w c.fn, count := BitVec.ofNat 32 (arg c 28 4), ownerCtx := some (o % 2 ^ 20), ownerRing := some r }; true)) | _ => false))))))) | _ => false))
    && (let p : Packet := tP [(28, 4, 2), (32, 4, 0x80000009), (36, 2, 0xFFFF)]; let s : State := tWithSeq; (match startOf .semCreate 0x12 p s with | some (c, w) => (decide (arg c 24 1 = 0) && (let o : Nat := arg c 32 4; decide (arg c 36 2 = 0xFFFF) && ((o.testBit 31) && ((contextExists w c.fn (o % 2 ^ 20)) && ((match lowestFree (w.work.sems.map (·.num)) 1 65535 with | some n => (decide ((w.work.sems.filter (fun x => x.fn == c.fn)).length < semShare w c.fn) && (let x : Sem := { num := n, fn := c.fn, session := sessionOf w c.fn, count := BitVec.ofNat 32 (arg c 28 4), ownerCtx := some (o % 2 ^ 20), ownerRing := none }; true)) | _ => false)))))) | _ => false))
    && (let p : Packet := tP [(28, 4, 2)]; let s : State := tBase; (match startOf .semCreate 0x12 p s with | some (c, w) => (decide (arg c 24 1 = 0) && (let r : Nat := arg c 36 2; decide ((arg c 32 4).testBit 31 = false) && (decide (r ≠ 0xFFFF) && ((sameSession w c r) && ((match lowestFree (w.work.sems.map (·.num)) 1 65535 with | some n => (decide ((w.work.sems.filter (fun x => x.fn == c.fn)).length < semShare w c.fn) && (let x : Sem := { num := n, fn := c.fn, session := sessionOf w c.fn, count := BitVec.ofNat 32 (arg c 28 4), ownerCtx := none, ownerRing := some r }; true)) | _ => false)))))) | _ => false))
    && (let p : Packet := tP [(24, 1, 0), (28, 4, 2), (36, 2, 0xFFFF)]; let s : State := tBase; (match startOf .semCreate 0x12 p s with | some (c, w) => (decide (arg c 24 1 = 0) && (decide ((arg c 32 4).testBit 31 = false) && (decide (arg c 36 2 = 0xFFFF) && ((match lowestFree (w.work.sems.map (·.num)) 1 65535 with | some n => (decide ((w.work.sems.filter (fun x => x.fn == c.fn)).length < semShare w c.fn) && (let x : Sem := { num := n, fn := c.fn, session := sessionOf w c.fn, count := BitVec.ofNat 32 (arg c 28 4), ownerCtx := none, ownerRing := none }; true)) | _ => false))))) | _ => false))
    && (let p : Packet := tP [(28, 4, 2), (36, 2, 0xFFFF)]; let s : State := { tBase with regs := { tBase.regs with partition := 0xFF } }; (match startOf .semCreate 0x12 p s with | some (c, w) => (decide (arg c 24 1 = 0) && (decide ((arg c 32 4).testBit 31 = false) && (decide (arg c 36 2 = 0xFFFF) && ((match lowestFree (w.work.sems.map (·.num)) 1 65535 with | some _ => (decide (semShare w c.fn ≤ (w.work.sems.filter (fun x => x.fn == c.fn)).length)) | _ => false))))) | _ => false))
    && (let p : Packet := tP [(24, 1, 1), (26, 2, 3)]; let s : State := { tBase with work := { tBase.work with sems := [{ num := 3, fn := .pf0, session := 1, count := 5 }] } }; (match startOf .semCreate 0x12 p s with | some (c, w) => (decide (arg c 24 1 = 1) && ((match semOf w (arg c 26 2) with | some x => (decide (x.fn = c.fn) && (let y : State := endAll w ((semWaiters w x.num).map (·.id)) .cancelled; true)) | _ => false))) | _ => false))
    && (let p : Packet := tP [(24, 2, 3), (26, 2, 2)]; let s : State := { tBase with work := { tBase.work with sems := [{ num := 3, fn := .pf0, session := 1, count := 5 }] } }; (match startOf .semSignal 0x13 p s with | some (c, w) => ((match semNamed w c with | some x => (decide (x.count.toNat + arg c 26 2 ≤ 0xFFFFFFFF) && (let y : State := setSem w { x with count := BitVec.ofNat 32 (x.count.toNat + arg c 26 2) }; true)) | _ => false)) | _ => false))
    && (let p : Packet := tP [(24, 2, 3), (26, 2, 2)]; let s : State := { tBase with work := { tBase.work with sems := [{ num := 3, fn := .pf0, session := 1, count := 0xFFFFFFFF }] } }; (match startOf .semSignal 0x13 p s with | some (c, w) => ((match semNamed w c with | some x => (decide (0xFFFFFFFF < x.count.toNat + arg c 26 2)) | _ => false)) | _ => false))
    && (let p : Packet := tP [(24, 2, 3), (26, 2, 2)]; let s : State := { tBase with work := { tBase.work with sems := [{ num := 3, fn := .pf0, session := 1, count := 5 }] } }; (match startOf .semWait 0x14 p s with | some (c, w) => ((match semNamed w c with | some _ => (true) | _ => false)) | _ => false))
    && (let p : Packet := tP [(24, 2, 3), (26, 2, 2)]; let s : State := { tBase with work := { tBase.work with sems := [{ num := 3, fn := .pf0, session := 1, count := 5 }] } }; (match startOf .semWait 0x14 p s with | some (c, w) => ((match semNamed w c with | some _ => (let d : Cmd := { c with phase := .parked .sem, aux := 1 }; (match goesOn (setCmd w d) with | some (d0, v) => (decide (d0 = d) && ((match semNamed v d with | some y => (decide ((semWaiters v y.num).head?.map (·.id) = some d.id) && (decide (arg d 26 2 ≤ y.count.toNat))) | _ => false))) | _ => false)) | _ => false)) | _ => false))
    && (let p : Packet := tP [(24, 1, 1), (26, 2, 3)]; let s : State := tBase; (match startOf .semCreate 0x12 p s with | some (c, w) => (decide (arg c 24 1 = 1) && (decide (semOf w (arg c 26 2) = none))) | _ => false))
    && (let p : Packet := tP [(24, 1, 1), (26, 2, 3)]; let s : State := { tBase with work := { tBase.work with sems := [{ num := 3, fn := .pf0, session := 1, count := 5 }] } }; (match startOf .semSignal 0x13 p s with | some (c, w) => (decide (semNamed w c = none)) | _ => false))) = true := by decide +kernel

theorem meets_SemaphoreCommandsComplete_part2 :
    ((let p : Packet := tP [(24, 1, 1), (26, 2, 3)]; let s : State := { tBase with work := { tBase.work with sems := [{ num := 3, fn := .pf0, session := 1, count := 5 }] } }; (match startOf .semWait 0x14 p s with | some (c, w) => (decide (semNamed w c = none)) | _ => false))) = true := by decide +kernel

theorem meets_MemoryCommandsComplete :
    ((let p : Packet := tP [(24, 8, 4096), (33, 1, 2)]; let s : State := tBase; (match startOf .alloc 0x20 p s with | some (c, w) => ((((allocReq c).hinted w c.fn).unitsOk w c.fn) && (decide (((allocReq c).hinted w c.fn).order.all (fun t => decide (tierLimit t < arg c 24 8)) = false) && ((match ((allocReq c).hinted w c.fn).order.findSome? (fun t => (tryTier w c.fn ((allocReq c).hinted w c.fn) (arg c 24 8) t).map (fun x => (t, x))) with | some (_, _, _, _) => (true) | _ => false)))) | _ => false))
    && (let p : Packet := tP [(24, 8, 2 ^ 61 + 0x100000)]; let s : State := tMem; (match startOf .free 0x21 p s with | some (c, w) => ((match allocNamed w c.fn (arg c 24 8) with | some a => (let d : Cmd := { c with phase := .parked .others, awaited := (w.cmds.filter (fun x => x.fn == c.fn && decide (x.id < c.id) && usesAlloc x a)).map (·.id) }; (match goesOn (setCmd w d) with | some (d0, v) => (decide (d0 = d) && (decide (stillOpen v d.awaited = false) && ((match allocNamed v d.fn (arg d 24 8) with | some _ => (true) | _ => false)))) | _ => false)) | _ => false)) | _ => false))
    && (let p : Packet := tP [(24, 8, 2 ^ 63 + 0x4000), (32, 8, 2 ^ 61 + 0x100000), (40, 8, 16)]; let s : State := tMem; (match startOf .copy 0x22 p s with | some (c, w) => (decide (c.cnt = 0) && ((copySide w c.fn (arg c 24 8) (arg c 40 8) true) && ((copySide w c.fn (arg c 32 8) (arg c 40 8) false) && (decide (¬(tierOf (arg c 32 8) = 3 ∧ (nandCh w (offOf (arg c 32 8) / nandSize)).readOnly = true)) && (decide (¬(tierOf (arg c 24 8) = 8 ∧ c.isSealed = true ∧ (readSrc w c (offOf (arg c 24 8)) (arg c 40 8)).2 = some .badParam)) && (decide (tierOf (arg c 32 8) ≠ 8) && (decide (arg c 40 8 ≤ 65536) && ((match copyBytes w c (arg c 24 8) 0 (arg c 40 8) with | (_, _, none) => (true) | _ => false))))))))) | _ => false))
    && (let p : Packet := tP [(24, 8, 2 ^ 61 + 0x100000), (32, 8, 2 ^ 63 + 0x4000), (40, 8, 16)]; let s : State := tMem; (match startOf .copy 0x22 p s with | some (c, w) => (decide (c.cnt = 0) && ((copySide w c.fn (arg c 24 8) (arg c 40 8) true) && ((copySide w c.fn (arg c 32 8) (arg c 40 8) false) && (decide (¬(tierOf (arg c 24 8) = 8 ∧ c.isSealed = true ∧ (readSrc w c (offOf (arg c 24 8)) (arg c 40 8)).2 = some .badParam)) && (decide (tierOf (arg c 32 8) = 8) && (decide (c.isSealed = false) && (decide (arg c 40 8 ≤ 65536) && ((match copyBytes w c (arg c 24 8) 0 (arg c 40 8) with | (_, _, none) => (true) | _ => false))))))))) | _ => false))
    && (let p : Packet := tP [(24, 8, 2 ^ 63 + 0x4000), (32, 8, 2 ^ 61 + 0x100000), (40, 8, 65537)]; let s : State := tMem; (match startOf .copy 0x22 p s with | some (c, w) => (decide (c.cnt = 0) && ((copySide w c.fn (arg c 24 8) (arg c 40 8) true) && ((copySide w c.fn (arg c 32 8) (arg c 40 8) false) && (decide (¬(tierOf (arg c 32 8) = 3 ∧ (nandCh w (offOf (arg c 32 8) / nandSize)).readOnly = true)) && (decide (¬(tierOf (arg c 24 8) = 8 ∧ c.isSealed = true ∧ (readSrc w c (offOf (arg c 24 8)) (arg c 40 8)).2 = some .badParam)) && (decide (tierOf (arg c 32 8) ≠ 8) && (decide (65536 < arg c 40 8) && ((match copyBytes w c (arg c 24 8) 0 65536 with | (_, _, none) => (true) | _ => false))))))))) | _ => false))
    && (let s : State := { tMem with cmds := [tCopyCmd] }; let c : Cmd := tCopyCmd; decide (c.op = .copy) && (decide (cmdOf s c.id = some c) && (decide (c.phase = .parked .units) && ((pathOpen s c) && (decide (overdue s c = false) && ((allOn s (cmdDoms s c)) && (decide (tierOf (arg c 32 8) ≠ 8) && (let n : Nat := min 65536 (arg c 40 8 - c.cnt); (match copyBytes s c (arg c 24 8) c.cnt n with | (_, _, none) => (decide (c.cnt + n = arg c 40 8)) | _ => false)))))))))
    && (let p : Packet := tP [(24, 8, 2 ^ 61 + 0x100000), (32, 8, 2 ^ 63 + 0x4000), (40, 8, 16)]; let s : State := { tMem with store := { tMem.store with poison := [0x4000] } }; (match startOf .copy 0x22 p s with | some (c, w) => (decide (c.cnt = 0) && ((copySide w c.fn (arg c 24 8) (arg c 40 8) true) && ((copySide w c.fn (arg c 32 8) (arg c 40 8) false) && (decide (¬(tierOf (arg c 32 8) = 3 ∧ (nandCh w (offOf (arg c 32 8) / nandSize)).readOnly = true)) && (decide (¬(tierOf (arg c 24 8) = 8 ∧ c.isSealed = true ∧ (readSrc w c (offOf (arg c 24 8)) (arg c 40 8)).2 = some .badParam)) && ((match copyBytes w c (arg c 24 8) 0 (min 65536 (arg c 40 8)) with | (_, _, some _) => (true) | _ => false))))))) | _ => false))
    && (let p : Packet := tP [(24, 1, 1), (25, 1, 2)]; let s : State := tBase; (match startOf .placeHint 0x23 p s with | some (c, w) => (decide ((hintReq c).tier ≠ 0xFF) && (decide ((hintReq c).obj ≤ 4) && (((hintReq c).unitsOk w c.fn)))) | _ => false))
    && (let p : Packet := tP [(24, 1, 1), (25, 1, 0xFF)]; let s : State := tBase; (match startOf .placeHint 0x23 p s with | some (c, _) => (decide ((hintReq c).tier = 0xFF)) | _ => false))
    && (let p : Packet := tP [(24, 1, 5), (25, 1, 2)]; let s : State := tBase; (match startOf .placeHint 0x23 p s with | some (c, w) => (decide ((hintReq c).tier ≠ 0xFF) && (decide (4 < (hintReq c).obj) && (((maskList (hintReq c).groups).all (ownsGroup w c.fn))))) | _ => false))
    && (let p : Packet := tP [(25, 1, 1), (28, 4, 16)]; let s : State := tBase; (match startOf .quotaSet 0x24 p s with | some (c, w) => (decide (arg c 24 1 = 0) && (decide (¬(arg c 25 1 = 3 ∧ ownsCoppice w c.fn (arg c 26 1) = false)) && (decide (arg c 28 4 ≤ quotaMax w c.fn (arg c 25 1)) && (let x : State := { w with store := { w.store with quotas := w.store.quotas.filter (fun q => !(q.fn == c.fn && q.kind == arg c 25 1 && q.coppice == arg c 26 1)) ++ [{ fn := c.fn, kind := arg c 25 1, coppice := arg c 26 1, limit := arg c 28 4 }] } }; true)))) | _ => false))
    && (let p : Packet := tP [(24, 1, 1), (25, 1, 2)]; let s : State := tBase; (match startOf .quotaSet 0x24 p s with | some (c, w) => (decide (arg c 24 1 = 1) && (decide (¬(arg c 25 1 = 3 ∧ ownsCoppice w c.fn (arg c 26 1) = false)))) | _ => false))) = true := by decide +kernel

theorem meets_CompressionCommandsComplete :
    ((let p : Packet := tPB 128 ([(0, 2, 1), (2, 2, 1), (8, 8, 2 ^ 61 + 0x108000)] ++ tDesc 64 0 1 [128]); let s : State := tMem; (match startOf .tableBuild 0x25 p s with | some (c, w) => ((operandsPlaced w c) && (let d : Desc := descAt c.pkt.block 64; let sb : Nat := blk c 2 2; let segs : Nat := segCount d sb; let len : Nat := 64 + 128 * segs; (ownsRange w c.fn (tierOf (blk c 8 8)) (offOf (blk c 8 8)) len) && ((usable w (domCop (blk c 4 1))) && (let x : State := strikeTensor w c (blk c 4 1) d; (match d.raw x with | .ok raw => (let lens : Nat → List Nat := (fun g => segmentLens (bytesAt raw (4096 * sb * g) (4096 * sb))); true) | _ => false))))) | _ => false))
    && (let p : Packet := tPB 128 ([(0, 2, 1), (2, 2, 1), (8, 8, 2 ^ 61 + 0x108000)] ++ tDesc 64 0 1 [128]); let s : State := { tMem with store := { tMem.store with poison := [0x4000] } }; (match startOf .tableBuild 0x25 p s with | some (c, w) => ((operandsPlaced w c) && (let d : Desc := descAt c.pkt.block 64; (ownsRange w c.fn (tierOf (blk c 8 8)) (offOf (blk c 8 8)) (64 + 128 * segCount d (blk c 2 2))) && ((usable w (domCop (blk c 4 1))) && (let x : State := strikeTensor w c (blk c 4 1) d; (match d.raw x with | .error e => (decide (e ≠ .undecodable)) | _ => false))))) | _ => false))
    && (let p : Packet := tPB 192 ([(0, 2, 1)] ++ tDesc 64 0 1 [128] 1 0 ++ tDesc 128 0x8000 1 [128]); let s : State := { tMem with store := { tMem.store with dram := [(0x100000, 1)] } }; (match startOf .compress 0x26 p s with | some (c, w) => ((operandsPlaced w c) && ((usable w (domCop (blk c 2 1))) && (decide ((descAt c.pkt.block 128).form = 0)))) | _ => false))
    && (let p : Packet := tPB 192 ([(0, 2, 1)] ++ tDesc 64 0 1 [128] ++ tDesc 128 0x8000 1 [128] 1 0); let s : State := tMem; (match startOf .compress 0x26 p s with | some (c, w) => ((operandsPlaced w c) && ((usable w (domCop (blk c 2 1))) && (decide ((descAt c.pkt.block 128).form ≠ 0)))) | _ => false))
    && (let s : State := { tMem with cmds := [{ tCopyCmd with op := .compress, pkt := tPB 192 ([(0, 2, 1)] ++ tDesc 64 0 1 [128] ++ tDesc 128 0x8000 1 [128] 1 0) }] }; let c : Cmd := { tCopyCmd with op := .compress, pkt := tPB 192 ([(0, 2, 1)] ++ tDesc 64 0 1 [128] ++ tDesc 128 0x8000 1 [128] 1 0) }; decide (c.op = .compress) && (decide (cmdOf s c.id = some c) && (decide (c.phase = .parked .units) && ((pathOpen s c) && (decide (overdue s c = false) && ((allOn s (cmdDoms s c))))))))
    && (let s : State := { tMem with cmds := [{ tCopyCmd with op := .compress, pkt := tPB 192 ([(0, 2, 1)] ++ tDesc 64 0 1 [128] ++ tDesc 128 0x8000 1 [128] 0 0) }] }; let c : Cmd := { tCopyCmd with op := .compress, pkt := tPB 192 ([(0, 2, 1)] ++ tDesc 64 0 1 [128] ++ tDesc 128 0x8000 1 [128] 0 0) }; let a : Desc := descAt c.pkt.block 64; let b : Desc := descAt c.pkt.block 128; let x : State := strikeTensor s c (blk c 2 1) a; decide (a.recordsPoison x = false) && ((match a.raw x with | .ok _ => (decide (b.form = 0)) | _ => false)))
    && (let s : State := { tMem with cmds := [{ tCopyCmd with op := .compress, pkt := tPB 192 ([(0, 2, 1)] ++ tDesc 64 0 1 [128] ++ tDesc 128 0x8000 1 [128] 1 0) }] }; let c : Cmd := { tCopyCmd with op := .compress, pkt := tPB 192 ([(0, 2, 1)] ++ tDesc 64 0 1 [128] ++ tDesc 128 0x8000 1 [128] 1 0) }; let a : Desc := descAt c.pkt.block 64; let b : Desc := descAt c.pkt.block 128; let x : State := strikeTensor s c (blk c 2 1) a; decide (a.recordsPoison x = false) && ((match a.raw x with | .ok raw => (decide (b.form = 1) && (let bs : List (List Byte × Bool) := zmaskBlocks b raw; true)) | _ => false)))
    && (let s : State := { tMem with cmds := [{ tCopyCmd with op := .compress, pkt := tPB 192 ([(0, 2, 1)] ++ tDesc 64 0 1 [128] ++ tDesc 128 0x8000 1 [128] 2 0) }] }; let c : Cmd := { tCopyCmd with op := .compress, pkt := tPB 192 ([(0, 2, 1)] ++ tDesc 64 0 1 [128] ++ tDesc 128 0x8000 1 [128] 2 0) }; let a : Desc := descAt c.pkt.block 64; let b : Desc := descAt c.pkt.block 128; let x : State := strikeTensor s c (blk c 2 1) a; decide (a.recordsPoison x = false) && ((match a.raw x with | .ok raw => (decide (b.form = 2) && (let bs : List (List Byte × Bool) := entropyBlocks raw (field (b.header x) 4 4) (b.segLens x); true)) | _ => false)))) = true := by decide +kernel

theorem meets_ModelCommandsComplete_part1 :
    ((let p : Packet := tP [(24, 1, 1), (26, 2, 5)]; let s : State := tWork; (match startOf .modelLoad 0x30 p s with | some (c, w) => (decide (arg c 24 1 = 1) && (decide (arg c 26 2 ≠ 0) && ((match modelOf w c.fn (arg c 26 2) with | some m => ((m.resident.isSome)) | _ => false)))) | _ => false))
    && (let p : Packet := tP [(24, 1, 1), (26, 2, 5)]; let s : State := { tWork with work := { tWork.work with models := [{ tModel with resident := none, loading := true }] } }; (match startOf .modelLoad 0x30 p s with | some (c, w) => (decide (arg c 24 1 = 1) && (decide (arg c 26 2 ≠ 0) && ((match modelOf w c.fn (arg c 26 2) with | some m => (decide (m.resident = none) && ((match startResidency w m with | some _ => (true) | _ => false))) | _ => false)))) | _ => false))
    && (let p : Packet := tP [(24, 1, 1), (26, 2, 5)]; let s : State := { tWork with work := { tWork.work with models := [{ tModel with resident := none, weights := [tPut [(8, 2, 1), (10, 1, 2), (12, 4, 2 ^ 31), (16, 4, 2 ^ 20)] (zeroBytes 64)] }] } }; (match startOf .modelLoad 0x30 p s with | some (c, w) => (decide (arg c 24 1 = 1) && (decide (arg c 26 2 ≠ 0) && ((match modelOf w c.fn (arg c 26 2) with | some m => (decide (m.resident = none) && (decide (startResidency w m = none))) | _ => false)))) | _ => false))
    && (let p : Packet := tP [(24, 2, 5)]; let s : State := tWork; (match startOf .modelPin 0x31 p s with | some (c, w) => ((match modelOf w c.fn (arg c 24 2) with | some _ => (decide (arg c 26 1 = 0)) | _ => false)) | _ => false))
    && (let p : Packet := tP [(24, 2, 5), (26, 1, 1)]; let s : State := tWork; (match startOf .modelPin 0x31 p s with | some (c, w) => ((match modelOf w c.fn (arg c 24 2) with | some m => (decide (arg c 26 1 = 1) && ((m.resident.isSome))) | _ => false)) | _ => false))
    && (let p : Packet := tP [(24, 2, 5), (26, 1, 2), (27, 1, 1)]; let s : State := tWork; (match startOf .modelPin 0x31 p s with | some (c, w) => ((match modelOf w c.fn (arg c 24 2) with | some m => (decide (arg c 26 1 = 2) && ((m.resident.isSome) && ((match pinCopies (dropAllocs w c.fn [21] m.id) m (maskList (arg c 27 1)) with | some _ => (true) | _ => false)))) | _ => false)) | _ => false))
    && (let p : Packet := tP [(24, 2, 5), (26, 1, 1)]; let s : State := { tWork with work := { tWork.work with models := [{ tModel with resident := none, loading := true }] } }; (match startOf .modelPin 0x31 p s with | some (c, w) => ((match modelOf w c.fn (arg c 24 2) with | some m => (decide (arg c 26 1 ≠ 0) && (decide (m.resident = none) && ((match startResidency w m with | some _ => (true) | _ => false)))) | _ => false)) | _ => false))
    && (let p : Packet := tP [(24, 2, 5)]; let s : State := tWork; (match startOf .modelEvict 0x32 p s with | some (c, w) => ((match modelOf w c.fn (arg c 24 2) with | some m => (decide (pinned m = false) && (decide (arg c 26 1 = 0) && (decide (stepOf w c.fn m.id = none) && (decide (m.loading = false) && ((m.resident.isSome)))))) | _ => false)) | _ => false))
    && (let p : Packet := tP [(24, 2, 5)]; let s : State := { tWork with work := { tWork.work with models := [{ tModel with resident := none }] } }; (match startOf .modelEvict 0x32 p s with | some (c, w) => ((match modelOf w c.fn (arg c 24 2) with | some m => (decide (pinned m = false) && (decide (arg c 26 1 = 0) && (decide (stepOf w c.fn m.id = none) && (decide (m.loading = false) && (decide (m.resident = none)))))) | _ => false)) | _ => false))
    && (let p : Packet := tP [(24, 2, 5), (26, 1, 1)]; let s : State := tWork; (match startOf .modelEvict 0x32 p s with | some (c, w) => ((match modelOf w c.fn (arg c 24 2) with | some m => (decide (pinned m = false) && (decide (arg c 26 1 = 1) && (decide (modelBound w c.fn m.id = false) && (decide (stepOf w c.fn m.id = none) && (decide (m.loading = false) && ((m.resident.isSome))))))) | _ => false)) | _ => false))
    && (let p : Packet := tP [(24, 2, 5), (26, 1, 1)]; let s : State := { tWork with work := { tWork.work with models := [{ tModel with resident := none }] } }; (match startOf .modelEvict 0x32 p s with | some (c, w) => ((match modelOf w c.fn (arg c 24 2) with | some m => (decide (pinned m = false) && (decide (arg c 26 1 = 1) && (decide (modelBound w c.fn m.id = false) && (decide (stepOf w c.fn m.id = none) && (decide (m.loading = false) && (decide (m.resident = none))))))) | _ => false)) | _ => false))
    && (let p : Packet := tP [(24, 2, 5), (26, 1, 1)]; let s : State := tWithSeq; (match startOf .modelEvict 0x32 p s with | some (c, w) => ((match modelOf w c.fn (arg c 24 2) with | some m => (decide (pinned m = false) && (decide (arg c 26 1 = 1) && ((modelBound w c.fn m.id)))) | _ => false)) | _ => false))) = true := by decide +kernel

theorem meets_ModelCommandsComplete_part2 :
    ((let p : Packet := tP [(24, 2, 5)]; let s : State := { tWork with work := { tWork.work with models := [{ tModel with pin1 := true }] } }; (match startOf .modelEvict 0x32 p s with | some (c, w) => ((match modelOf w c.fn (arg c 24 2) with | some m => ((pinned m)) | _ => false)) | _ => false))
    && (let p : Packet := tP [(24, 2, 5)]; let s : State := { tScan with nextCmd := 2 }; (match startOf .modelEvict 0x32 p s with | some (c, w) => ((match modelOf w c.fn (arg c 24 2) with | some m => (decide (pinned m = false) && (decide (arg c 26 1 = 0) && (((stepOf w c.fn m.id).isSome)))) | _ => false)) | _ => false))) = true := by decide +kernel

theorem meets_ModelInfoOfAbsentModel :
    ((let p : Packet := tP [(24, 2, 6)]; let s : State := tWork; (match startOf .modelInfo 0x33 p s with | some (c, w) => (decide (modelOf w c.fn (arg c 24 2) = none)) | _ => false))
    && (let p : Packet := tP [(24, 2, 5)]; let s : State := tWork; (match startOf .modelInfo 0x33 p s with | some (c, w) => ((match modelOf w c.fn (arg c 24 2) with | some _ => (true) | _ => false)) | _ => false))
    && (let s : State := tBase; let c : Cmd := { tCopyCmd with op := .modelInfo, pkt := tP [] }; decide (c.op = .modelInfo) && ((opAllowed s c.fn c.op) && (decide (c.session ≠ 0) && ((check5 c.fn c.op c.pkt c.pkt.body (expandedNb s c.pkt) (expandedDl s c.pkt)) && (((expandedDl s c.pkt).all (fun d => decide ((ctrlStamp s : Int) ≤ d))) && (decide (arg c 24 2 = 0)))))))) = true := by decide +kernel

theorem meets_ContextCommandsComplete :
    ((let p : Packet := tP [(27, 1, 1)]; let s : State := tBase; (match startOf .seqCreate 0x40 p s with | some (c, w) => (decide (arg c 27 1 = 1) && ((match newHandle w c.fn (handlesUsed w) with | some _ => ((entriesFit w c.fn 1)) | _ => false))) | _ => false))
    && (let p : Packet := tP [(24, 2, 5)]; let s : State := tWork; (match startOf .seqCreate 0x40 p s with | some (c, w) => (decide (arg c 27 1 ≠ 1) && (decide (((arg c 28 4).testBit 31 = true → (convOf w c.fn (arg c 28 4 % 2 ^ 20)).isSome = true)) && ((match modelOf w c.fn (arg c 24 2) with | some m => ((match m.kv with | some g => ((g.ok) && ((m.resident.isSome) && (let k : Option Nat := (if (arg c 28 4).testBit 31 then some (arg c 28 4 % 2 ^ 20) else none); (match newSeq w c.fn m.id (arg c 26 1) g k with | some (_, _, _) => (true) | _ => false)))) | _ => false)) | _ => false)))) | _ => false))
    && (let p : Packet := tP [(24, 2, 5)]; let s : State := { tWork with work := { tWork.work with models := [{ tModel with resident := none, loading := true }] } }; (match startOf .seqCreate 0x40 p s with | some (c, w) => (decide (arg c 27 1 ≠ 1) && (decide (((arg c 28 4).testBit 31 = true → (convOf w c.fn (arg c 28 4 % 2 ^ 20)).isSome = true)) && ((match modelOf w c.fn (arg c 24 2) with | some m => ((match m.kv with | some g => ((g.ok) && (decide (m.resident = none) && ((match startResidency w m with | some _ => (true) | _ => false)))) | _ => false)) | _ => false)))) | _ => false))
    && (let p : Packet := tCtx (tP []); let s : State := tWithSeq; (match startOf .seqFree 0x43 p s with | some (c, w) => (let v : State := contextRead c w; decide (rangesPoisoned v (contextRanges w c) = false) && (let conv : Bool := (convOf v c.fn (ctxHandle c.pkt)).isSome; let mine : List Seqn := v.work.seqs.filter (fun q => q.fn == c.fn && (q.handle == ctxHandle c.pkt || (conv && q.conv == some (ctxHandle c.pkt)))); decide ((mine ≠ [] ∨ conv = true)) && (let x : State := endAll v (seqUsers v c (mine.map (·.handle))) .cancelled; let r : State × Nat := freeSeqs x c.fn mine; let z : State := { r.1 with work := { r.1.work with convs := r.1.work.convs.filter (fun k => !(conv && k.handle == ctxHandle c.pkt)) } }; true))) | _ => false))
    && (let p : Packet := tCtx (tP []); let s : State := tWithSeq; (match startOf .seqFork 0x42 p s with | some (c, w) => (let v : State := contextRead c w; decide (rangesPoisoned v (contextRanges w c) = false) && ((match seqOf v c.fn (ctxHandle c.pkt) with | some q => (decide (inStep v c.fn q.handle = false) && (let at0 : Nat := (if arg c 24 4 = 0xFFFFFFFF then q.length else arg c 24 4); decide (at0 ≤ q.length) && (let shared : List Page := q.pages.filter (fun p => decide (p.index < ceilDiv at0 q.geom.tokens)); decide (shared.any (fun p => v.store.frames.any (fun f => f.pfn == p.pfn && decide (65535 ≤ f.refs))) = false) && ((match newSeq v c.fn q.model q.cls q.geom none with | some (x, _, _) => (let y : State := setSeq (shared.foldl (fun s p => raiseFrame s p.pfn) x) { q with pages := q.pages.map (fun p => if p.index < ceilDiv at0 q.geom.tokens then { p with shared := true } else p) }; true) | _ => false))))) | _ => false))) | _ => false))
    && (let p : Packet := tCtx (tP [(24, 4, 0xFFFFFFFF)]); let s : State := { tWithSeq with work := { tWithSeq.work with steps := [tSeqStep] } }; (match startOf .seqFork 0x42 p s with | some (c, w) => (let v : State := contextRead c w; decide (rangesPoisoned v (contextRanges w c) = false) && ((match seqOf v c.fn (ctxHandle c.pkt) with | some q => ((inStep v c.fn q.handle)) | _ => false))) | _ => false))
    && (let p : Packet := tCtx (tPB 256 ([(0, 2, 1), (4, 4, 2), (8, 1, 2)] ++ tDesc 64 0 1 [16, 2])); let s : State := tWithSeq; (match startOf .seqAppend 0x41 p s with | some (c, w) => (let v : State := contextRead c w; decide (rangesPoisoned v (contextRanges w c) = false) && ((match seqOf v c.fn (ctxHandle c.pkt) with | some q => ((match modelOf v c.fn q.model with | some m => ((appendAgrees v c m q) && (let others : List Cmd := v.cmds.filter (fun d => d.id != c.id && d.fn == c.fn && d.op == .seqAppend && d.phase != .waiting && ctxHandle d.pkt == q.handle); decide (q.length + (others.map (fun d => blk d 4 4 - d.cnt)).sum + blk c 4 4 ≤ 65536) && (let d : Cmd := { c with sseq := (others.map (·.sseq)).foldl max 0 + 1, phase := .parked .turn, misc := [0, 0] }; true))) | _ => false)) | _ => false))) | _ => false))
    && (let p : Packet := tCtx (tPB 256 ([(0, 2, 1), (4, 4, 2), (8, 1, 2)] ++ tDesc 64 0 1 [16, 2])); let s : State := { tWork with work := { tWork.work with seqs := [{ tSeq with length := 65535 }] } }; (match startOf .seqAppend 0x41 p s with | some (c, w) => (let v : State := contextRead c w; decide (rangesPoisoned v (contextRanges w c) = false) && ((match seqOf v c.fn (ctxHandle c.pkt) with | some q => ((match modelOf v c.fn q.model with | some m => ((appendAgrees v c m q) && (let others : List Cmd := v.cmds.filter (fun d => d.id != c.id && d.fn == c.fn && d.op == .seqAppend && d.phase != .waiting && ctxHandle d.pkt == q.handle); decide (65536 < q.length + (others.map (fun d => blk d 4 4 - d.cnt)).sum + blk c 4 4))) | _ => false)) | _ => false))) | _ => false))
    && (let p : Packet := tCtx (tPB 256 ([(0, 2, 1), (4, 4, 2), (8, 1, 2)] ++ tDesc 64 0 1 [16, 2])); let s : State := tWithSeq; (match startOf .seqAppend 0x41 p s with | some (c, w) => (let v : State := contextRead c w; decide (rangesPoisoned v (contextRanges w c) = false) && ((match seqOf v c.fn (ctxHandle c.pkt) with | some q => ((match modelOf v c.fn q.model with | some m => ((appendAgrees v c m q) && (let others : List Cmd := v.cmds.filter (fun d => d.id != c.id && d.fn == c.fn && d.op == .seqAppend && d.phase != .waiting && ctxHandle d.pkt == q.handle); decide (q.length + (others.map (fun d => blk d 4 4 - d.cnt)).sum + blk c 4 4 ≤ 65536) && (let d : Cmd := { c with sseq := (others.map (·.sseq)).foldl max 0 + 1, phase := .parked .turn, misc := [0, 0] }; (match goesOn (matchWatch (setCmd v { d with res := appendResult d q.length }) d) with | some (e, u) => (decide (e.op = .seqAppend) && (decide (e.phase = .parked .turn) && ((match seqOf u e.fn (ctxHandle e.pkt) with | some _ => (decide (earlierOn u e = [])) | _ => false)))) | _ => false)))) | _ => false)) | _ => false))) | _ => false))
    && (let s : State := { tWork with work := { tWork.work with seqs := [{ tSeq with dir := 0x100000, charge := 64 }], cached := [9] }, store := { tWork.store with poison := [0x4000] } }; let c : Cmd := { tCopyCmd with op := .seqFork, pkt := tCtx (tP []) }; (rangesPoisoned (contextRead c s) (contextRanges s c)))) = true := by decide +kernel

theorem meets_StreamCommandsComplete_part1 :
    ((let p : Packet := tP [(24, 2, 5), (28, 1, 2)]; let s : State := { tWork with store := { tWork.store with quotas := [{ fn := .pf0, kind := 4, coppice := 0, limit := 0 }] } }; (match startOf .streamOpen 0x44 p s with | some (c, w) => ((match modelOf w c.fn (arg c 24 2) with | some m => ((m.recurrent) && (decide (arg c 32 8 = 0) && (decide (newStream w c m (List.replicate (wideSize m / 4) 0) = none)))) | _ => false)) | _ => false))
    && (let p : Packet := tCtx (tPB 320 ([(0, 2, 1), (4, 4, 2), (8, 1, 2)] ++ tDesc 64 0 1 [16, 2])); let s : State := tWithStream; (match startOf .streamChunk 0x45 p s with | some (c, w) => (let v : State := contextRead c w; decide (rangesPoisoned v (contextRanges w c) = false) && ((match streamNamed v c with | some x => ((match modelOf v c.fn x.model with | some m => ((agrees (m.tmplIn 0) (descAt c.pkt.block 64) (some (blk c 4 4))) && (((!(descAt c.pkt.block 128).present || agrees (m.tmplOut 0) (descAt c.pkt.block 128) none)) && ((operandsPlaced v c) && ((match goesOn (park v c .turn) with | some (d, u) => (decide (d.op = .streamChunk) && (decide (d.phase = .parked .turn) && ((match streamNamed u d with | some _ => ((streamTurn u d)) | _ => false)))) | _ => false))))) | _ => false)) | _ => false))) | _ => false))
    && (let p : Packet := tCtx (tPB 320 ([(0, 2, 1), (4, 4, 2), (8, 1, 2)] ++ tDesc 64 0 1 [16, 2])); let s : State := tWithStream; (match startOf .streamChunk 0x45 p s with | some (c, w) => (let v : State := contextRead c w; decide (rangesPoisoned v (contextRanges w c) = false) && ((match streamNamed v c with | some x => ((match modelOf v c.fn x.model with | some m => ((agrees (m.tmplIn 0) (descAt c.pkt.block 64) (some (blk c 4 4))) && (((!(descAt c.pkt.block 128).present || agrees (m.tmplOut 0) (descAt c.pkt.block 128) none)) && ((operandsPlaced v c)))) | _ => false)) | _ => false))) | _ => false))
    && (let p : Packet := tCtx (tP []); let s : State := tWithStream; (match startOf .streamClose 0x46 p s with | some (c, w) => (let v : State := contextRead c w; decide (rangesPoisoned v (contextRanges w c) = false) && ((match streamNamed v c with | some _ => (let z : State := (if arg c 24 1 = 1 then endAll (park v c .turn) (((streamCmds (park v c .turn) c).filter (fun d => decide (d.sseq < c.sseq))).map (·.id)) .cancelled else park v c .turn); (match goesOn z with | some (d, u) => (decide (d.op = .streamClose) && ((match streamNamed u d with | some _ => ((streamTurn u d) && (let later : List Nat := ((streamCmds u d).filter (fun z => z.id != d.id)).map (·.id); true)) | _ => false))) | _ => false)) | _ => false))) | _ => false))
    && (let p : Packet := tCtx (tP []); let s : State := tWithStream; (match startOf .streamClose 0x46 p s with | some (c, w) => (let v : State := contextRead c w; decide (rangesPoisoned v (contextRanges w c) = false) && ((match streamNamed v c with | some _ => (let z : State := (if arg c 24 1 = 1 then endAll (park v c .turn) (((streamCmds (park v c .turn) c).filter (fun d => decide (d.sseq < c.sseq))).map (·.id)) .cancelled else park v c .turn); true) | _ => false))) | _ => false))
    && (let p : Packet := tCtx (tP [(25, 1, 2)]); let s : State := tWithStream; (match startOf .stateSwap 0x47 p s with | some (c, w) => (let v : State := contextRead c w; decide (rangesPoisoned v (contextRanges w c) = false) && ((match streamNamed v c with | some x => ((match modelOf v c.fn x.model with | some m => (decide ((arg c 24 1 = 1 ∨ arg c 24 1 = 2 → [1, 2, 3].contains (tierOf (arg c 28 8)) = true ∧ ownsRange v c.fn (tierOf (arg c 28 8)) (offOf (arg c 28 8)) (arg c 36 4) = true ∧ 64 + wideSize m ≤ arg c 36 4))) | _ => false)) | _ => false))) | _ => false))
    && (let p : Packet := tCtx (tP [(25, 1, 2)]); let s : State := tWithStream; (match startOf .stateSwap 0x47 p s with | some (c, w) => (let v : State := contextRead c w; decide (rangesPoisoned v (contextRanges w c) = false) && ((match streamNamed v c with | some x => ((match modelOf v c.fn x.model with | some m => (decide ((arg c 24 1 = 1 ∨ arg c 24 1 = 2 → [1, 2, 3].contains (tierOf (arg c 28 8)) = true ∧ ownsRange v c.fn (tierOf (arg c 28 8)) (offOf (arg c 28 8)) (arg c 36 4) = true ∧ 64 + wideSize m ≤ arg c 36 4)) && ((match goesOn (park v c .turn) with | some (d, u) => (decide (d.op = .stateSwap) && ((match streamNamed u d with | some y => ((match modelOf u d.fn y.model with | some n => ((streamTurn u d) && (decide (y.prefetch = false) && ((match swapAct d n y u with | some _ => (true) | _ => false)))) | _ => false)) | _ => false))) | _ => false))) | _ => false)) | _ => false))) | _ => false))
    && (let c : Cmd := { tCopyCmd with op := .stateSwap, pkt := tCtx (tP [(25, 1, 3)]) }; let x : Stream := { tStream with home := 3 }; decide (arg c 24 1 = 0) && (decide (arg c 25 1 = 3) && (decide (x.home = 3))))
    && (let s : State := { tWithStream with nand := [{ inService := true, sparePermille := 100 }] }; let c : Cmd := { tCopyCmd with op := .stateSwap, pkt := tCtx (tP [(25, 1, 3)]) }; let x : Stream := tStream; decide (arg c 24 1 = 0) && (decide (arg c 25 1 = 3) && (decide (x.home ≠ 3) && (let u : State := strikeState (captureBy s c 0x54) x s; decide (statePoisoned u x = false) && ((match stateToStore u x with | some _ => (true) | _ => false))))))
    && (let c : Cmd := { tCopyCmd with op := .stateSwap, pkt := tCtx (tP [(25, 1, 2)]) }; let x : Stream := tStream; decide (arg c 24 1 = 0) && (decide (arg c 25 1 = 2) && (decide (x.home = 2) && (decide ((x.narrow && arg c 26 1 == 1) = false)))))
    && (let s : State := tWithStream; let c : Cmd := { tCopyCmd with op := .stateSwap, pkt := tCtx (tP [(25, 1, 2)]) }; let m : Model := tModel; let x : Stream := { tStream with home := 3 }; decide (arg c 24 1 = 0) && (decide (arg c 25 1 = 2) && (decide ((x.home ≠ 2 ∨ (x.narrow && arg c 26 1 == 1) = true)) && (let u : State := strikeState (captureBy s c 0x54) x s; decide (statePoisoned u x = false) && ((match placeState u m x (arg c 26 1 == 1) with | some (_, _, _) => (decide (c.resWaited = false)) | _ => false))))))
    && (let s : State := tWithStream; let c : Cmd := { tCopyCmd with op := .stateSwap, pkt := tCtx (tP [(25, 1, 2)]) }; let m : Model := tModel; let x : Stream := { tStream with home := 3, wide := 2 ^ 50 }; decide (arg c 24 1 = 0) && (decide (arg c 25 1 = 2) && (decide ((x.home ≠ 2 ∨ (x.narrow && arg c 26 1 == 1) = true)) && (let u : State := strikeState (captureBy s c 0x54) x s; decide (statePoisoned u x = false) && (decide (placeState u m x (arg c 26 1 == 1) = none) && (decide (c.resWaited = false)))))))) = true := by decide +kernel

theorem meets_StreamCommandsComplete_part2 :
    ((let s : State := tMem; let c : Cmd := { tCopyCmd with op := .stateSwap, pkt := tCtx (tP [(24, 1, 1), (28, 8, 2 ^ 61 + 0x100000), (36, 4, 68)]) }; let x : Stream := tStream; decide (arg c 24 1 = 1) && (let u : State := strikeState (captureBy s c 0x54) x s; decide (statePoisoned u x = false) && (decide (¬(tierOf (arg c 28 8) = 3 ∧ (nandCh u (offOf (arg c 28 8) / nandSize)).readOnly = true)))))
    && (let c : Cmd := { tCopyCmd with op := .stateSwap, pkt := tCtx (tP [(24, 1, 3)]) }; decide (arg c 24 1 = 3))) = true := by decide +kernel

theorem meets_StepCommandsStart :
    ((let p : Packet := tPB 192 ([(0, 2, 1), (2, 2, 5), (5, 1, 1), (6, 1, 1)] ++ tDesc 64 0 1 [16, 2] ++ tDesc 128 0x8000 1 [16, 2]); let s : State := { tWork with work := { tWork.work with models := [{ tModel with kv := none, recurrent := false }] } }; (match startOf .graphRun 0x50 p s with | some (c, w) => ((match modelOf w c.fn (blk c 2 2) with | some m => (decide (m.kv = none) && (decide (m.recurrent = false) && ((graphAgrees w c m) && (let cops : List Nat := stepCoppices w c.fn m.id (blk c 4 1); decide (cops ≠ []) && (decide (m.minCoppices ≤ cops.length) && (decide (cops.any (fun k => decide (activeTiles w k < m.minTiles)) = false) && (let d : Cmd := { c with res := zeroBytes 12 }; true))))))) | _ => false)) | _ => false))
    && (let p : Packet := tPB 192 ([(0, 2, 1), (2, 2, 5), (4, 1, 8), (5, 1, 1), (6, 1, 1)] ++ tDesc 64 0 1 [16, 2] ++ tDesc 128 0x8000 1 [16, 2]); let s : State := updDom ({ tWork with work := { tWork.work with models := [{ tModel with kv := none, recurrent := false }] } }) (domCop 3) (fun d => { d with heldOff := true }); (match startOf .graphRun 0x50 p s with | some (c, w) => ((match modelOf w c.fn (blk c 2 2) with | some m => (decide (m.kv = none) && (decide (m.recurrent = false) && ((graphAgrees w c m) && (decide (stepCoppices w c.fn m.id (blk c 4 1) = []))))) | _ => false)) | _ => false))
    && (let p : Packet := tPB 256 ([(0, 2, 1), (2, 2, 5), (4, 2, 6), (7, 1, 1), (8, 4, 2)] ++ tDesc 64 0 1 [16, 2] ++ tDesc 128 0x1000 1 [16, 2] ++ tDesc 192 0x8000 5 [16, 2]); let s : State := { tWork with work := { tWork.work with models := [{ tModel with training := [tModel.inputs.getD 0 [], tModel.inputs.getD 0 [], tPut [(8, 2, 5)] (tModel.inputs.getD 0 [])] }, { tModel with id := 6 }] } }; (match startOf .trainStep 0x53 p s with | some (c, w) => (let v : State := contextRead c w; decide (rangesPoisoned v (contextRanges w c) = false) && ((match modelOf v c.fn (blk c 2 2) with | some m => ((match modelOf v c.fn (blk c 4 2) with | some _ => (decide (m.training.length = 3) && (([(0, 64), (1, 128), (2, 192)].all (fun x => agrees (descAt (m.training.getD x.1 []) 0) (descAt c.pkt.block x.2) none)) && ((operandsPlaced v c) && (decide (ctxValid c.pkt = false) && (decide (stepCoppices v c.fn m.id (blk c 7 1) ≠ []) && (decide (blk c 8 4 ≤ 65536) && (let d : Cmd := { c with res := zeroBytes 12, aux := 0 }; true))))))) | _ => false)) | _ => false))) | _ => false))
    && (let p : Packet := tCtx (tPB 256 ([(0, 2, 1), (2, 2, 5), (4, 2, 6), (7, 1, 1), (8, 4, 2)] ++ tDesc 64 0 1 [16, 2] ++ tDesc 128 0x1000 1 [16, 2] ++ tDesc 192 0x8000 5 [16, 2])); let s : State := { tWithSeq with work := { tWithSeq.work with models := [{ tModel with training := [tModel.inputs.getD 0 [], tModel.inputs.getD 0 [], tPut [(8, 2, 5)] (tModel.inputs.getD 0 [])] }, { tModel with id := 6 }] } }; (match startOf .trainStep 0x53 p s with | some (c, w) => (let v : State := contextRead c w; decide (rangesPoisoned v (contextRanges w c) = false) && ((match modelOf v c.fn (blk c 2 2) with | some m => ((match modelOf v c.fn (blk c 4 2) with | some _ => (decide (m.training.length = 3) && (([(0, 64), (1, 128), (2, 192)].all (fun x => agrees (descAt (m.training.getD x.1 []) 0) (descAt c.pkt.block x.2) none)) && ((operandsPlaced v c) && ((match trainPrefix v c with | some q => (decide (q.model = m.id) && (decide (q.length + blk c 8 4 ≤ 65536) && (decide (stepCoppices v c.fn m.id (blk c 7 1) ≠ []) && (let d : Cmd := { c with res := zeroBytes 12, aux := q.length }; true)))) | _ => false))))) | _ => false)) | _ => false))) | _ => false))
    && (let p : Packet := tP [(26, 2, 5), (36, 2, 16), (38, 2, 8)]; let s : State := tWork; (match startOf .stepPolicy 0x52 p s with | some (c, w) => (((modelOf w c.fn (arg c 26 2)).isSome) && (decide (arg c 24 1 = 0))) | _ => false))
    && (let p : Packet := tP [(24, 1, 1), (26, 2, 5)]; let s : State := tWork; (match startOf .stepPolicy 0x52 p s with | some (c, w) => (((modelOf w c.fn (arg c 26 2)).isSome) && (decide (arg c 24 1 = 1))) | _ => false))
    && (let p : Packet := tP [(24, 1, 2), (56, 8, 0x4000)]; let s : State := tWork; (match startOf .stepPolicy 0x52 p s with | some (c, _) => (decide (arg c 24 1 = 2)) | _ => false))
    && (let p : Packet := tP [(24, 1, 3), (48, 4, 9), (56, 8, 0x4000)]; let s : State := tWithSeq; (match startOf .stepPolicy 0x52 p s with | some (c, w) => (decide (arg c 24 1 = 3) && (let v : State := contextRead c w; decide (rangesPoisoned v (contextRanges w c) = false))) | _ => false))) = true := by decide +kernel

theorem meets_OperatorCommandsStart :
    ((let p : Packet := tPB 576 ([(0, 2, 1), (2, 2, 1), (4, 1, 1)] ++ tDesc 64 0 1 [4, 2] ++ tDesc 128 0x1000 1 [3, 4] ++ tDesc 192 0x2000 1 [3, 2]); let s : State := tMem; (match startOf .matmul 0x51 p s with | some (c, w) => ((operandsPlaced w c) && ((hostTableOk w c 16) && (let n : Nat := (matmulProb w c).rows * (matmulProb w c).cols * (matmulProb w c).batches; decide (0 < n) && ((someUnit w (cmdCoppices c) (blk c 5 1) false))))) | _ => false))
    && (let p : Packet := tPB 576 ([(0, 2, 1), (2, 2, 1), (4, 1, 1)] ++ tDesc 64 0 1 [4, 0] ++ tDesc 128 0x1000 1 [3, 4] ++ tDesc 192 0x2000 1 [3, 0]); let s : State := tMem; (match startOf .matmul 0x51 p s with | some (c, w) => ((operandsPlaced w c) && ((hostTableOk w c 16) && (decide ((matmulProb w c).rows * (matmulProb w c).cols * (matmulProb w c).batches = 0)))) | _ => false))
    && (let p : Packet := tPB 512 ([(0, 2, 0x10), (2, 2, 1), (4, 1, 1)] ++ (List.range 6).map (fun i => (12 + i, 1, 1)) ++ [(22, 2, 1)] ++ tDesc 64 0 1 [2, 4, 4] ++ tDesc 128 0x1000 1 [3, 2, 1, 1] ++ tDesc 192 0x2000 1 [3, 4, 4]); let s : State := tMem; (match startOf .conv2d 0x51 p s with | some (c, w) => (decide (blk c 34 1 ≠ 1) && ((operandsPlaced w c) && ((hostTableOk w c 24) && (let g : Geo := convGeoOf c none; decide (g.empty = false) && ((waysAvailable w (cmdCoppices c)) && ((someUnit w (cmdCoppices c) (blk c 5 1) (onEdge c)) && (let j : Job := { id := c.id, edge := onEdge c, total := g.rowsOut * g.colsOut * g.cout * g.batch, frame := none, outFlags := flagIf (onEdge c) flagEdge ||| 0 }; let d : Cmd := { c with aux := min 8 (fewestWays w (cmdCoppices c)) * waySize }; true))))))) | _ => false))
    && (let p : Packet := tPB 512 ([(0, 2, 0x10), (2, 2, 1), (4, 1, 1)] ++ (List.range 6).map (fun i => (12 + i, 1, 1)) ++ [(22, 2, 1), (11, 1, 2), (34, 1, 1), (36, 4, 0xFFFFFFFF)] ++ tDesc 128 0x1000 1 [3, 1, 1, 1] ++ tDesc 192 0x2000 1 [3, 4, 4]); let s : State := { tCam with cam0 := { tCam.cam0 with frames := [{ number := 2, stamp := 6143000, width := 4, height := 4, base := 0x180000 }] }, store := tMem.store }; (match startOf .conv2d 0x51 p s with | some (c, w) => (decide (blk c 34 1 = 1) && (((camOf w (blk c 35 1)).gateOpen) && ((match frameNamed w c with | some f => ((operandsPlaced w c) && ((hostTableOk w c 24) && (let g : Geo := convGeoOf c (some f); (convShapes c g (fun r => r == 3 || r == 4)) && (decide (g.empty = false) && ((waysAvailable w (cmdCoppices c)) && ((someUnit w (cmdCoppices c) (blk c 5 1) (onEdge c)) && (let j : Job := { id := c.id, edge := onEdge c, total := g.rowsOut * g.colsOut * g.cout * g.batch, frame := some f, outFlags := flagIf (onEdge c) flagEdge ||| flagIf (f.flags.getLsbD 0) flagSrcTruncated }; let d : Cmd := { c with aux := min 8 (fewestWays w (cmdCoppices c)) * waySize }; true))))))) | _ => false)))) | _ => false))
    && (let p : Packet := tPB 512 ([(0, 2, 0x10), (2, 2, 1), (4, 1, 1)] ++ (List.range 6).map (fun i => (12 + i, 1, 1)) ++ [(22, 2, 1), (11, 1, 2), (34, 1, 1), (36, 4, 0xFFFFFFFF)] ++ tDesc 128 0x1000 1 [3, 1, 1, 1] ++ tDesc 192 0x2000 1 [3, 4, 4]); let s : State := tMem; (match startOf .conv2d 0x51 p s with | some (c, w) => (decide (blk c 34 1 = 1) && (decide ((camOf w (blk c 35 1)).gateOpen = false))) | _ => false))
    && (let p : Packet := tPB 512 ([(0, 2, 0x10), (2, 2, 1), (4, 1, 1)] ++ (List.range 6).map (fun i => (12 + i, 1, 1)) ++ [(22, 2, 1), (12, 1, 7)] ++ tDesc 64 0 1 [2, 4, 4] ++ tDesc 128 0x1000 1 [3, 2, 1, 7] ++ tDesc 192 0x2000 1 [3, 1, 1]); let s : State := tMem; (match startOf .conv2d 0x51 p s with | some (c, w) => (decide (blk c 34 1 ≠ 1) && ((operandsPlaced w c) && ((hostTableOk w c 24) && (((convGeoOf c none).empty))))) | _ => false))
    && (let p : Packet := tPB 192 ([(0, 2, 0x11), (2, 2, 1), (4, 1, 1)] ++ (List.range 6).map (fun i => (12 + i, 1, 1)) ++ tDesc 64 0 1 [2, 4, 4] ++ tDesc 128 0x2000 1 [2, 4, 4]); let s : State := tMem; (match startOf .pool2d 0x51 p s with | some (c, w) => ((operandsPlaced w c) && (let g : Geo := poolGeo c; decide (g.empty = false) && ((waysAvailable w (cmdCoppices c)) && ((someUnit w (cmdCoppices c) (blk c 5 1) false))))) | _ => false))
    && (let p : Packet := tPB 192 ([(0, 2, 0x11), (2, 2, 1), (4, 1, 1)] ++ (List.range 6).map (fun i => (12 + i, 1, 1)) ++ [(12, 1, 7)] ++ tDesc 64 0 1 [2, 4, 4] ++ tDesc 128 0x2000 1 [2, 1, 1]); let s : State := tMem; (match startOf .pool2d 0x51 p s with | some (c, w) => ((operandsPlaced w c) && (((poolGeo c).empty))) | _ => false))
    && (let p : Packet := tPB 384 ([(7, 1, 1), (20, 4, 2)] ++ [(0, 2, 0x20), (2, 2, 1), (4, 1, 1), (32, 2, 1), (34, 2, 1)] ++ tDesc 64 0 1 [16, 2, 1] ++ tDesc 256 0x4000 1 [16, 2, 1] ++ tDesc 128 0x1000 1 [16, 2, 1] ++ tDesc 192 0x2000 1 [16, 2, 1]); let s : State := tMem; (match startOf .attention 0x51 p s with | some (c, w) => (let v : State := contextRead c w; decide (rangesPoisoned v (contextRanges w c) = false) && (decide ((attnArgs c 0).pages = false) && (decide (attnSeq v c = none) && ((operandsPlaced v c) && (let n : Nat := (descAt c.pkt.block 64).dim 0 * (descAt c.pkt.block 64).dim1 1 * (attnArgs c 0).qHeads; decide (0 < n) && ((someUnit v (cmdCoppices c) (blk c 5 1) false))))))) | _ => false))
    && (let p : Packet := tCtx (tPB 384 ([(20, 4, 2)] ++ [(0, 2, 0x20), (2, 2, 1), (4, 1, 1), (32, 2, 1), (34, 2, 1)] ++ tDesc 64 0 1 [16, 2, 1] ++ tDesc 256 0x4000 1 [16, 2, 1])); let s : State := { tWork with work := { tWork.work with seqs := [{ tSeq with length := 4 }] } }; (match startOf .attention 0x51 p s with | some (c, w) => (let v : State := contextRead c w; decide (rangesPoisoned v (contextRanges w c) = false) && (((attnArgs c 0).pages) && ((match attnSeq v c with | some x => ((attnSeqOk c x) && ((operandsPlaced v c) && (let n : Nat := (descAt c.pkt.block 64).dim 0 * (descAt c.pkt.block 64).dim1 1 * (attnArgs c 0).qHeads; decide (0 < n) && ((someUnit v (cmdCoppices c) (blk c 5 1) false))))) | _ => false)))) | _ => false))
    && (let p : Packet := tPB 384 ([(7, 1, 1), (20, 4, 2)] ++ [(0, 2, 0x20), (2, 2, 1), (4, 1, 1), (32, 2, 1), (34, 2, 1)] ++ tDesc 64 0 1 [16, 0, 1] ++ tDesc 256 0x4000 1 [16, 0, 1] ++ tDesc 128 0x1000 1 [16, 2, 1] ++ tDesc 192 0x2000 1 [16, 2, 1]); let s : State := tMem; (match startOf .attention 0x51 p s with | some (c, w) => (let v : State := contextRead c w; decide (rangesPoisoned v (contextRanges w c) = false) && (decide ((attnArgs c 0).pages = false) && ((operandsPlaced v c) && (decide ((descAt c.pkt.block 64).dim 0 * (descAt c.pkt.block 64).dim1 1 * (attnArgs c 0).qHeads = 0))))) | _ => false))
    && (let s : State := tMem; let j : Job := { id := 1 }; let x : State := bumpFree { s with work := { s.work with jobs := s.work.jobs ++ [{ j with draw := s.freeCtr }] } }; true)) = true := by decide +kernel

theorem meets_ListeningCommandsComplete_part1 :
    ((let p : Packet := tP [(25, 1, 2), (31, 1, 1), (40, 2, 300), (46, 1, 1), (51, 1, 1)]; let s : State := tBase; (match startOf .listenPolicy 0x60 p s with | some (_, w) => (decide (w.listen.priv = false)) | _ => false))
    && (let s : State := { tBase with listen := { tBase.listen with priv := true } }; let c : Cmd := { tCopyCmd with op := .wakeArm, pkt := tP [] }; (privBlocked c.op) && ((s.listen.priv) && ((opAllowed s c.fn c.op) && (decide (unitAbsent s c = false) && (decide (c.session ≠ 0) && ((check5 c.fn c.op c.pkt c.pkt.body (expandedNb s c.pkt) (expandedDl s c.pkt)) && (((expandedDl s c.pkt).all (fun d => decide ((ctrlStamp s : Int) ≤ d))) && ((paramsOk s c)))))))))
    && (let p : Packet := tP [(25, 1, 2)]; let s : State := { tBase with listen := { tBase.listen with armed := 2 } }; (match startOf .wakeArm 0x61 p s with | some (c, w) => (decide (w.listen.priv = false) && (decide (arg c 24 1 = 0) && (decide (arg c 25 1 &&& w.listen.policy.sources.toNat = arg c 25 1) && (decide (arg c 25 1 = w.listen.armed.toNat))))) | _ => false))
    && (let p : Packet := tP []; let s : State := tBase; (match startOf .wakeArm 0x61 p s with | some (c, w) => (decide (w.listen.priv = false) && (decide (arg c 24 1 = 0) && (decide (arg c 25 1 &&& w.listen.policy.sources.toNat = arg c 25 1) && (decide (arg c 25 1 ≠ w.listen.armed.toNat))))) | _ => false))
    && (let p : Packet := tP [(24, 1, 1)]; let s : State := { tBase with listen := { tBase.listen with armed := 4 } }; (match startOf .wakeArm 0x61 p s with | some (c, w) => (decide (w.listen.priv = false) && (decide (arg c 24 1 = 1) && (decide (w.fault.haltGorse = false) && ((w.listen.armed.getLsbD 2) && (let x : State := wake w .manual (boundaryAfter w.stb) w.listen.policy 0xFFFF; true))))) | _ => false))
    && (let s : State := { tBase with listen := { tBase.listen with priv := true } }; (s.listen.priv))
    && (let p : Packet := tP [(24, 4, 0xFFFFFFFF), (28, 2, 1), (31, 1, 1), (36, 8, 0x4000), (44, 4, 4096)]; let s : State := tAudio; (match startOf .audioRead 0x62 p s with | some (c, w) => (decide (w.listen.priv = false) && (decide ((audioRate c = 1 → (audioPolicy w).arrayRate ≠ 0)) && (decide (arg c 31 1 * audioRecord w c ≤ arg c 44 4) && ((w.listen.gateOpen) && (let start : Nat := (if arg c 24 4 = 2 ^ 32 - 1 then w.listen.unread else (expand32 (BitVec.ofNat 32 (arg c 24 4)) c.fetchStamp).toNat); let d : Cmd := { c with first := max (boundaryAfter start) w.listen.release, cnt := 0, lost := 0, misc := [] }; true))))) | _ => false))
    && (let p : Packet := tP [(24, 4, 0xFFFFFFFF), (28, 2, 1), (31, 1, 1), (32, 1, 2), (36, 8, 0x4000), (44, 4, 4096)]; let s : State := tBase; (match startOf .audioRead 0x62 p s with | some (c, w) => (decide (w.listen.priv = false) && (decide ((audioRate c = 1 → (audioPolicy w).arrayRate ≠ 0)) && (decide (arg c 31 1 * audioRecord w c ≤ arg c 44 4) && (decide (w.listen.gateOpen = false) && ((audioWaits c)))))) | _ => false))
    && (let p : Packet := tP [(24, 4, 0xFFFFFFFF), (28, 2, 1), (31, 1, 1), (36, 8, 0x4000), (44, 4, 4096)]; let s : State := tBase; (match startOf .audioRead 0x62 p s with | some (c, w) => (decide (w.listen.priv = false) && (decide ((audioRate c = 1 → (audioPolicy w).arrayRate ≠ 0)) && (decide (arg c 31 1 * audioRecord w c ≤ arg c 44 4) && (decide (w.listen.gateOpen = false) && (decide (audioWaits c = false)))))) | _ => false))
    && (let s : State := { tBase with listen := { tBase.listen with priv := true } }; (s.listen.priv))
    && (let s : State := tAudio; let c : Cmd := { tCopyCmd with op := .audioRead, pkt := tP [(24, 4, 0xFFFFFFFF), (28, 2, 1), (31, 1, 1), (32, 1, 2), (36, 8, 0x4000), (44, 4, 4096)] }; let r : State × Cmd := (audioReady s c).foldl writeAudio (s, c); decide ((arg c 31 1 ≤ r.2.cnt ∨ audioWaits c = false)))
    && (let s : State := tAudio; let c : Cmd := { tCopyCmd with op := .audioRead, pkt := tP [(24, 4, 0xFFFFFFFF), (28, 2, 1), (31, 1, 2), (32, 1, 2), (36, 8, 0x4000), (44, 4, 4096)] }; let r : State × Cmd := (audioReady s c).foldl writeAudio (s, c); decide (r.2.cnt < arg c 31 1) && ((audioWaits c) && (let d : Cmd := { r.2 with phase := .parked .frames }; true)))) = true := by decide +kernel

theorem meets_ListeningCommandsComplete_part2 :
    ((let s : State := tAudio; let c : Cmd := { tCopyCmd with op := .audioRead, pkt := tP [(24, 4, 0xFFFFFFFF), (28, 2, 1), (31, 1, 1), (32, 1, 1), (36, 8, 0x4000), (44, 4, 4096)] }; let x : State := (if audioCloses c ∧ s.listen.gateOpen then { s with listen := { s.listen with closeDue := true } } else s); true)) = true := by decide +kernel

theorem meets_CameraCommandsComplete_part1 :
    ((let p : Packet := tP [(28, 8, 0x4000), (36, 4, 64), (42, 1, 1), (43, 1, 1)]; let s : State := { tBase with store := { tBase.store with host := tCamHost } }; (match startOf .cameraConfig 0x63 p s with | some (c, w) => (decide (arg c 25 1 = 0) && (let n : Nat := arg c 24 1; let b : List Byte := memReadN w.store.host (arg c 28 8) (arg c 36 4); let cal : List Byte := memReadN w.store.host (field b 48 8) 8592; (camConfigOk b cal) && (let g : CamConfig := camConfigOf b cal; (match placeObject (dropAllocs w .pf0 [19] n) .pf0 2 0 (g.frameSlots * (yBytes g + cBytes g)) 19 n false with | some r => (let old : Cam := camOf w n; let y : State := (openParams r.1 n).foldl (fun s d => complete (dropWork s d) d .notPresent) r.1; let x : Cam := { configured := true, cfg := g, cascadeTop := min (arg c 26 1) 2, autoRelease := arg c 27 1 == 1, motionThreshold := arg c 40 2, motionFrames := arg c 42 1, absentHold := arg c 43 1, presenceThreshold := arg c 44 2, presenceModel := arg c 46 1, attendCoppice := arg c 47 1, attendModel := arg c 48 2, gateOpen := old.gateOpen, gateStage2 := old.gateStage2, opener := old.opener, closeDue := old.closeDue, openDue := old.openDue, openDueStage2 := old.openDueStage2, enAt := old.enAt, gapRecv := old.gapRecv, i2cOut := old.i2cOut, initLeft := old.initLeft, initGo := old.initGo, initTries := old.initTries, streaming := decide (1 ≤ arg c 26 1) || old.streaming, lastStart := y.stb, armedRx := old.armedRx, initAt := old.initAt }; true) | _ => false)))) | _ => false))
    && (let p : Packet := tP [(25, 1, 1)]; let s : State := tCam; (match startOf .cameraConfig 0x63 p s with | some (c, w) => (decide (arg c 25 1 = 1) && (let n : Nat := arg c 24 1; let x : Cam := camOf w n; (x.configured))) | _ => false))
    && (let p : Packet := tP [(25, 1, 2)]; let s : State := tCam; (match startOf .cameraConfig 0x63 p s with | some (c, w) => (decide (arg c 25 1 = 2) && (let n : Nat := arg c 24 1; let x : Cam := camOf w n; (x.gateOpen))) | _ => false))
    && (let p : Packet := tP [(25, 1, 2)]; let s : State := { tCam with cam0 := { tCam.cam0 with gateOpen := false } }; (match startOf .cameraConfig 0x63 p s with | some (c, w) => (decide (arg c 25 1 = 2) && (let n : Nat := arg c 24 1; let x : Cam := camOf w n; decide (x.gateOpen = false))) | _ => false))
    && (let p : Packet := tP [(25, 1, 3)]; let s : State := tCam; (match startOf .cameraConfig 0x63 p s with | some (c, w) => (decide (3 ≤ arg c 25 1) && (let n : Nat := arg c 24 1; let x : Cam := camOf w n; (x.gateOpen))) | _ => false))
    && (let p : Packet := tP [(25, 1, 3)]; let s : State := { tCam with cam0 := { tCam.cam0 with gateOpen := false } }; (match startOf .cameraConfig 0x63 p s with | some (c, w) => (decide (3 ≤ arg c 25 1) && (let n : Nat := arg c 24 1; decide ((camOf w n).gateOpen = false))) | _ => false))
    && (let p : Packet := tP [(26, 1, 2), (28, 4, 0xFFFFFFFF), (38, 2, 16)]; let s : State := tCam; (match startOf .cameraParams 0x64 p s with | some (c, w) => (decide (w.listen.priv = false) && (let x : Cam := camOf w (arg c 24 1); (x.configured) && (decide (arg c 28 4 = 2 ^ 32 - 1)))) | _ => false))
    && (let p : Packet := tP [(26, 1, 2), (28, 4, 9), (38, 2, 16)]; let s : State := tCam; (match startOf .cameraParams 0x64 p s with | some (c, w) => (decide (w.listen.priv = false) && (let x : Cam := camOf w (arg c 24 1); (x.configured) && (decide (arg c 28 4 ≠ 2 ^ 32 - 1) && (let n : Int := expand32 (BitVec.ofNat 32 (arg c 28 4)) (earliestFrame x c); decide ((earliestFrame x c : Int) ≤ n) && ((writesFit x c n.toNat)))))) | _ => false))
    && (let p : Packet := tP [(25, 1, 1)]; let s : State := tCam; (match startOf .cameraParams 0x64 p s with | some (c, w) => (decide (w.listen.priv = false) && (let x : Cam := camOf w (arg c 24 1); (x.configured) && (decide (arg c 28 4 ≠ 2 ^ 32 - 1) && (let n : Int := expand32 (BitVec.ofNat 32 (arg c 28 4)) (earliestFrame x c); decide ((n < (earliestFrame x c : Int) ∨ writesFit x c n.toNat = false)))))) | _ => false))
    && (let p : Packet := tP [(27, 1, 1), (28, 4, 0xFFFFFFFF), (32, 8, 0x4000), (40, 4, 4096)]; let s : State := tCam; (match startOf .frameRead 0x65 p s with | some (c, w) => (decide (w.listen.priv = false) && (let x : Cam := camOf w (readPort c); decide (arg c 27 1 * frameRecord x.cfg (arg c 25 1) ≤ arg c 40 4) && ((x.gateOpen) && (let start : Nat := (if arg c 28 4 = 2 ^ 32 - 1 then x.unread else (expand32 (BitVec.ofNat 32 (arg c 28 4)) x.frameNo).toNat); let d : Cmd := { c with first := max start x.openFrame, cnt := 0, lost := 0, misc := [] }; true)))) | _ => false))
    && (let p : Packet := tP [(26, 1, 1), (27, 1, 1), (28, 4, 0xFFFFFFFF), (32, 8, 0x4000), (40, 4, 8192)]; let s : State := { tCam with cam0 := { tCam.cam0 with gateOpen := false } }; (match startOf .frameRead 0x65 p s with | some (c, w) => (decide (w.listen.priv = false) && (let x : Cam := camOf w (readPort c); decide ((x.configured = true → arg c 27 1 * frameRecord x.cfg (arg c 25 1) ≤ arg c 40 4)) && (decide (x.gateOpen = false) && ((readWaits c))))) | _ => false))
    && (let p : Packet := tP [(26, 1, 0), (27, 1, 1), (28, 4, 0xFFFFFFFF), (32, 8, 0x4000), (40, 4, 8192)]; let s : State := { tCam with cam0 := { tCam.cam0 with gateOpen := false } }; (match startOf .frameRead 0x65 p s with | some (c, w) => (decide (w.listen.priv = false) && (let x : Cam := camOf w (readPort c); decide ((x.configured = true → arg c 27 1 * frameRecord x.cfg (arg c 25 1) ≤ arg c 40 4)) && (decide (x.gateOpen = false) && (decide (readWaits c = false))))) | _ => false))) = true := by decide +kernel

theorem meets_CameraCommandsComplete_part2 :
    ((let s : State := { tCam with cam0 := { tCam.cam0 with frames := [{ number := 2, stamp := 6143000, width := 4, height := 4, base := 0x180000 }] }, store := tMem.store }; let c : Cmd := { tCopyCmd with op := .frameRead, pkt := tP [(26, 1, 1), (27, 1, 1), (28, 4, 0xFFFFFFFF), (32, 8, 0x4000), (40, 4, 8192)] }; ((frameReady s c).all (fun f => !framePoisoned s c f)) && (let r : State × Cmd := (frameReady s c).foldl writeFrame (s, c); decide ((arg c 27 1 ≤ r.2.cnt ∨ readWaits c = false))))
    && (let s : State := { tCam with cam0 := { tCam.cam0 with frames := [{ number := 2, stamp := 6143000, width := 4, height := 4, base := 0x180000 }] }, store := tMem.store }; let c : Cmd := { tCopyCmd with op := .frameRead, pkt := tP [(26, 1, 1), (27, 1, 2), (28, 4, 0xFFFFFFFF), (32, 8, 0x4000), (40, 4, 8192)] }; ((frameReady s c).all (fun f => !framePoisoned s c f)) && (let r : State × Cmd := (frameReady s c).foldl writeFrame (s, c); decide (r.2.cnt < arg c 27 1) && ((readWaits c) && (let d : Cmd := { r.2 with phase := .parked .frames }; true))))) = true := by decide +kernel

theorem meets_PowerCommandsComplete_part1 :
    ((let p : Packet := tP [(24, 1, 0x20), (26, 1, 2), (28, 4, 5000), (32, 4, 50000)]; let s : State := tBase; (match startOf .domainPolicy 0x70 p s with | some (c, w) => (decide (namesTenant1 w c = false) && (let d : Nat := arg c 24 1; decide (arg c 25 1 = 0) && (decide ((audioDoms.contains d = true → c.aux ≠ 0))))) | _ => false))
    && (let p : Packet := tP [(24, 1, 1), (25, 1, 1), (27, 1, 1)]; let s : State := tBase; (match startOf .domainPolicy 0x70 p s with | some (c, w) => (decide (namesTenant1 w c = false) && (decide (arg c 25 1 ≠ 3) && ((audioDoms.contains (arg c 24 1)) && (decide (c.aux = 0))))) | _ => false))
    && (let c : Cmd := { tCopyCmd with op := .domainPolicy, phase := .parked .policyHold, aux := 1 }; decide (c.op = .domainPolicy) && (decide (c.phase = .parked .policyHold) && (decide (c.aux = 1))))
    && (let p : Packet := tP [(24, 1, 0x20), (25, 1, 1), (27, 1, 1)]; let s : State := updDom tBase 0x20 (fun x => { x with state := .off }); (match startOf .domainPolicy 0x70 p s with | some (c, w) => (decide (namesTenant1 w c = false) && (let d : Nat := arg c 24 1; decide (arg c 25 1 = 1) && (decide ((audioDoms.contains d = true → c.aux ≠ 0)) && (decide ((domOf w d).state = .off ∨ ((domOf w d).state = .ret ∧ arg c 27 1 = 1)))))) | _ => false))
    && (let p : Packet := tP [(24, 1, 0x20), (25, 1, 1), (27, 1, 2)]; let s : State := updDom tBase 0x20 (fun x => { x with ceiling := 1 }); (match startOf .domainPolicy 0x70 p s with | some (c, w) => (decide (namesTenant1 w c = false) && (let d : Nat := arg c 24 1; decide (arg c 25 1 = 1) && (decide ((audioDoms.contains d = true → c.aux ≠ 0)) && (decide ((domOf w d).state = .on) && (decide ((domOf w d).ceiling < arg c 27 1)))))) | _ => false))
    && (let p : Packet := tP [(24, 1, 0x20), (25, 1, 1), (27, 1, 1)]; let s : State := updDom tBase 0x20 (fun x => { x with busy := true }); (match startOf .domainPolicy 0x70 p s with | some (c, w) => (decide (namesTenant1 w c = false) && (let d : Nat := arg c 24 1; decide (arg c 25 1 = 1) && (decide ((audioDoms.contains d = true → c.aux ≠ 0)) && (decide ((domOf w d).state = .on) && (decide (arg c 27 1 ≤ (domOf w d).ceiling) && (decide (d ≠ domCtrl) && ((match refusalOf w d (arg c 27 1) (some c.id) (isUnit d && arg c 27 1 == 2) with | some _ => (true) | _ => false)))))))) | _ => false))
    && (let p : Packet := tP [(24, 1, 0x20), (25, 1, 1), (27, 1, 1)]; let s : State := tBase; (match startOf .domainPolicy 0x70 p s with | some (c, w) => (decide (namesTenant1 w c = false) && (let d : Nat := arg c 24 1; decide (arg c 25 1 = 1) && (decide ((audioDoms.contains d = true → c.aux ≠ 0)) && (decide ((domOf w d).state = .on) && (decide (arg c 27 1 ≤ (domOf w d).ceiling) && (decide (d ≠ domCtrl) && (decide (refusalOf w d (arg c 27 1) (some c.id) (isUnit d && arg c 27 1 == 2) = none) && (let x : State := startEntry w d (arg c 27 1) (some c.id) (isUnit d && arg c 27 1 == 2); true)))))))) | _ => false))
    && (let p : Packet := tP [(24, 1, 0x20), (25, 1, 2), (27, 1, 0)]; let s : State := tBase; (match startOf .domainPolicy 0x70 p s with | some (c, w) => (decide (namesTenant1 w c = false) && (let d : Nat := arg c 24 1; decide (arg c 25 1 = 2) && (decide ((audioDoms.contains d = true → c.aux ≠ 0))))) | _ => false))
    && (let p : Packet := tP [(25, 1, 3)]; let s : State := tBase; (match startOf .domainPolicy 0x70 p s with | some (c, w) => (decide (namesTenant1 w c = false) && (decide (arg c 25 1 = 3))) | _ => false))
    && (let p : Packet := tP [(24, 1, 0x20), (25, 1, 4), (27, 1, 0)]; let s : State := tBase; (match startOf .domainPolicy 0x70 p s with | some (c, w) => (decide (namesTenant1 w c = false) && (let d : Nat := arg c 24 1; decide (4 ≤ arg c 25 1) && (decide ((audioDoms.contains d = true → c.aux ≠ 0))))) | _ => false))
    && (let s : State := tBase; let c : Cmd := { tCopyCmd with op := .domainPolicy, phase := .parked .domain, aux := 3, pkt := tP [(24, 1, 0x20)] }; decide (c.op = .domainPolicy) && (decide (c.phase = .parked .domain) && (decide (c.aux = 3) && (decide ((domOf s (arg c 24 1)).byHost ≠ some c.id)))))
    && (let p : Packet := tP [(24, 4, 9000)]; let s : State := tBase; (match startOf .powerLimit 0x71 p s with | some (c, w) => (let x : State := (if arg c 24 4 = 0 then w else { w with power := { w.power with nextLimit := some (arg c 24 4) } }); let n : Nat := x.power.nextLimit.getD x.power.limit; true) | _ => false))) = true := by decide +kernel

theorem meets_PowerCommandsComplete_part2 :
    ((let p : Packet := tP [(32, 8, 0x4000), (40, 4, 0x4000)]; let s : State := tBase; (match startOf .powerStats 0x72 p s with | some (c, w) => (let l : List Dom := statDoms w c.fn; decide (destNeed c (64 + 64 * l.length) ≤ arg c 40 4) && (let x : State := writeDest w c (arg c 32 8) (powerHeader w c.fn l.length ++ l.flatMap (domBytes w)); let y : State := (if arg c 24 1 = 1 then clearRefusals x else x); true)) | _ => false))) = true := by decide +kernel

theorem meets_FaultCommandsComplete :
    ((let p : Packet := tP [(24, 4, 0xFFFFFFFF), (28, 2, 1), (32, 8, 0x4000), (40, 4, 64)]; let s : State := { tBase with fault := { tBase.fault with log := [{ stamp := 5, fseq := 2, source := 0x0B, inst := 0, cls := 1 }] } }; (match startOf .faultRead 0x90 p s with | some (c, w) => (let l : List Capture := w.fault.log.filter (fun x => readsRecord c.fn x && (arg c 30 1 == 0 || (arg c 30 1).testBit x.cls) && (BitVec.ofNat 32 (arg c 24 4) == (0xFFFFFFFF : U32) || decide (0 ≤ low32Diff x.fseq (BitVec.ofNat 32 (arg c 24 4))))); let out : List Capture := l.take (arg c 28 2); let x : State := (if out.isEmpty then w else writeDest w c (arg c 32 8) (out.flatMap (fun y => captureBytes y (c.fn == Fn.pf1 && y.device)))); true) | _ => false))
    && (let p : Packet := tP [(24, 4, 2)]; let s : State := { tBase with fault := { tBase.fault with log := [{ stamp := 5, fseq := 2, source := 0x0B, inst := 0, cls := 1 }] } }; (match startOf .faultClear 0x91 p s with | some (c, w) => (let gone : Capture → Bool := (fun x => clearsRecord c.fn x && (BitVec.ofNat 32 (arg c 24 4) == (0xFFFFFFFF : U32) || x.fseq == BitVec.ofNat 32 (arg c 24 4))); decide (BitVec.ofNat 32 (arg c 24 4) = (0xFFFFFFFF : U32) ∨ w.fault.log.filter gone ≠ [])) | _ => false))
    && (let p : Packet := tP [(24, 4, 3)]; let s : State := { tBase with fault := { tBase.fault with log := [{ stamp := 5, fseq := 2, source := 0x0B, inst := 0, cls := 1 }] } }; (match startOf .faultClear 0x91 p s with | some (c, w) => (let gone : Capture → Bool := (fun x => clearsRecord c.fn x && (BitVec.ofNat 32 (arg c 24 4) == (0xFFFFFFFF : U32) || x.fseq == BitVec.ofNat 32 (arg c 24 4))); decide (BitVec.ofNat 32 (arg c 24 4) ≠ (0xFFFFFFFF : U32)) && (decide (w.fault.log.filter gone = []))) | _ => false))
    && (let p : Packet := tP [(24, 1, 0x09), (26, 1, 1)]; let s : State := tBase; (match startOf .faultInject 0x92 p s with | some (c, w) => (decide (injectForeign w (arg c 24 1) (arg c 25 1) (arg c 28 8) = false) && (decide ((sharedTargets.contains (arg c 24 1) && bothActive w) = false) && (decide ((integrityTargets.contains (arg c 24 1) && w.fuse.oemLock) = false) && (decide (w.fault.injections.length < 4) && ((injectPresent w (arg c 24 1) (arg c 25 1) (arg c 28 8)) && (let x : State := setCmd w { c with phase := .parked .injection, misc := [] }; true)))))) | _ => false))
    && (let s : State := { tBase with fuse := { tBase.fuse with part := .wy6440 } }; let c : Cmd := { tCopyCmd with op := .faultInject, pkt := tP [(24, 1, 0x09), (25, 1, 3), (26, 1, 1)] }; decide (c.op = .faultInject) && ((injectRange c) && (decide (injectPresent s (arg c 24 1) (arg c 25 1) (arg c 28 8) = false))))
    && (let t : Nat := 0x09; decide ([0x02, 0x03, 0x0B, 0x0D, 0x22, 0x23].contains t = false))
    && (let t : Nat := 0x0D; ([0x0D, 0x22, 0x23].contains t))) = true := by decide +kernel

theorem meets_ObservationCommandsComplete :
    ((let p : Packet := tP [(32, 8, 0x4000), (40, 4, 4096)]; let s : State := tBase; (match startOf .counterRead 0xA0 p s with | some (c, _) => (decide (arg c 24 1 = 0)) | _ => false))
    && (let p : Packet := tP [(24, 1, 1), (32, 8, 0x4000), (40, 4, 4096)]; let s : State := { tBase with obs := { tBase.obs with haltHeld := true } }; (match startOf .counterRead 0xA0 p s with | some (c, w) => (decide (arg c 24 1 = 1) && ((w.obs.haltHeld))) | _ => false))
    && (let s : State := tBase; let c : Cmd := { tCopyCmd with op := .counterRead, pkt := tP [(32, 8, 0x4000), (40, 4, 4096)] }; let recs : List (List Byte) := [zeroBytes 16]; let n : Nat := recordsThatFit c ((recs.headD []).length) recs.length; let x : State := (if n = 0 then s else writeDest s c (arg c 32 8) (recs.take n).flatten); true)
    && (let p : Packet := tP [(24, 1, 1), (25, 1, 10), (26, 2, 2)]; let s : State := tBase; (match startOf .traceConfig 0xA1 p s with | some (c, w) => (let f : TraceDest → TraceDest := (fun t => { t with events := BitVec.ofNat 16 (arg c 26 2), filterLayer := BitVec.ofNat 16 (arg c 28 2), filterOp := BitVec.ofNat 16 (arg c 30 2) }); let x : State := hostOut (flushTrace w) .pf0 (arg c 40 8) (zeroBytes 8); let y : State := (if bit (arg c 24 1) 0 then { x with obs := { x.obs with trace0 := f { log2 := arg c 25 1, base := BitVec.ofNat 64 (arg c 32 8), countAddr := BitVec.ofNat 64 (arg c 40 8) } } } else w); true) | _ => false))
    && (let p : Packet := tP [(32, 4, 1), (48, 4, 64)]; let s : State := tBase; (match startOf .watchSet 0xA2 p s with | some (c, w) => ((watchFields c) && (decide (arg c 24 1 = 0) && (let x : State := endWatch w (arg c 25 1); true))) | _ => false))
    && (let p : Packet := tP [(24, 1, 1), (32, 8, 0x4000), (40, 4, 4096)]; let s : State := { tBase with obs := { tBase.obs with haltHeld := true } }; (match startOf .watchSet 0xA2 p s with | some (c, _) => ((watchFields c) && (decide (arg c 24 1 ≠ 0))) | _ => false))
    && (let p : Packet := tP [(32, 8, 0x4000), (40, 4, 4096)]; let s : State := tBase; (match startOf .watchSet 0xA2 p s with | some (c, _) => (decide (watchFields c = false)) | _ => false))
    && (let p : Packet := tP [(24, 1, 1), (25, 1, 6)]; let s : State := { tGroup with i3c := { tGroup.i3c with mark := 6, markValid := true } }; (match startOf .timeSync 0xA3 p s with | some (c, w) => (decide (w.group.state = 2) && (decide (argS c (28 + 8 * w.group.self) 8 = 0) && (decide ((arg c 24 1 = 1 → w.i3c.markValid = true ∧ arg c 25 1 = w.i3c.mark.toNat))))) | _ => false))) = true := by decide +kernel

theorem meets_GroupCommandsComplete :
    ((let p : Packet := tPB 192 [(0, 2, 1), (3, 1, 2), (4, 4, 9), (96, 8, 0x10000000), (104, 8, 2 ^ 61 + 0x100000), (112, 4, 4096), (116, 2, 3)]; let s : State := { tGroup with group := {} }; (match startOf .groupJoin 0xB0 p s with | some (c, w) => (decide (w.group.state = 0) && (decide (areasOverlap ((joinUnits c).map (joinPeer c)) = false) && ((joinObjects w ((joinUnits c).map (joinPeer c))) && (let x : State := { w with group := { w.group with state := 1, groupId := BitVec.ofNat 32 (blk c 4 4), self := blk c 2 1, units := blk c 3 1, joinGen := w.group.joinGen + 1, joinAt := ctrlStamp w, joinCmd := some c.id, peers := (joinUnits c).map (joinPeer c) } }; true)))) | _ => false))
    && (let s : State := { tGroup with group := { tGroup.group with state := 1, joinCmd := some 1 } }; let c : Cmd := { tCopyCmd with op := .groupJoin }; decide (c.op = .groupJoin) && (decide (s.group.joinCmd = some c.id) && ((s.group.peers.all (·.present)))))
    && (let p : Packet := tP [(24, 1, 1), (26, 1, 1), (27, 1, 1), (28, 8, 2 ^ 61 + 0x100000), (36, 4, 64)]; let s : State := tGroup; (match startOf .peerSend 0xB1 p s with | some (c, w) => ((ownsRange w .pf0 (tierOf (arg c 28 8)) (offOf (arg c 28 8)) (arg c 36 4)) && (decide (w.group.state = 2) && ((match peerOf w (arg c 24 1) with | some q => ((q.present) && (decide (q.broken = false) && (decide (arg c 40 4 + dstBytes c (arg c 36 4) ≤ q.advLen)))) | _ => false)))) | _ => false))
    && (let p : Packet := tP [(24, 1, 1), (26, 1, 1), (27, 1, 1), (28, 8, 2 ^ 61 + 0x100000), (36, 4, 64)]; let s : State := tGroup; (match startOf .peerSend 0xB1 p s with | some (c, w) => ((ownsRange w .pf0 (tierOf (arg c 28 8)) (offOf (arg c 28 8)) (arg c 36 4)) && (decide (w.group.state = 2) && ((match peerOf w (arg c 24 1) with | some q => ((q.present) && (decide (q.broken = false) && (decide (arg c 40 4 + dstBytes c (arg c 36 4) ≤ q.advLen) && ((match goesOn (setCmd w { c with phase := .parked .turn }) with | some (d, u) => (decide (d.op = .peerSend) && (decide (d.phase = .parked .turn) && ((match livePeer u (arg d 24 1) with | some _ => (decide (sendAhead u d = false) && ((hostWritable u .pf0 false))) | _ => false)))) | _ => false))))) | _ => false)))) | _ => false))
    && (let s : State := { tGroup with cmds := [{ tCopyCmd with op := .peerSend, pkt := tP [(24, 1, 1), (26, 1, 1), (27, 1, 1), (28, 8, 2 ^ 61 + 0x100000), (36, 4, 64)] }] }; let c : Cmd := { tCopyCmd with op := .peerSend, pkt := tP [(24, 1, 1), (26, 1, 1), (27, 1, 1), (28, 8, 2 ^ 61 + 0x100000), (36, 4, 64)] }; (match livePeer s (arg c 24 1) with | some q => ((hostWritable s .pf0 false) && (decide (creditsOf q ≠ 0) && (let off : Nat := offOf (arg c 28 8) + 4096 * c.cnt; let n : Nat := min 4096 (arg c 36 4 - 4096 * c.cnt); (match checkedRead s c (dmaMaster c.fn) (tierOf (arg c 28 8)) off n with | (x, none) => ((match commitUnit c q (tierRead x (tierOf (arg c 28 8)) off n) x with | (_, _) => (true))) | _ => false)))) | _ => false))
    && (let s : State := { tGroup with group := { tGroup.group with peers := [{ tPeer with pseq := 64 }] } }; let c : Cmd := { tCopyCmd with op := .peerSend, pkt := tP [(24, 1, 1), (26, 1, 1), (27, 1, 1), (28, 8, 2 ^ 61 + 0x100000), (36, 4, 64)] }; (match livePeer s (arg c 24 1) with | some q => ((hostWritable s .pf0 false) && (decide (creditsOf q = 0))) | _ => false))
    && (let s : State := { tGroup with cmds := [{ tCopyCmd with op := .peerSend, pkt := tP [(24, 1, 1), (26, 1, 1), (27, 1, 1), (28, 8, 2 ^ 61 + 0x100000), (36, 4, 64)] }] }; let c : Cmd := { tCopyCmd with op := .peerSend, pkt := tP [(24, 1, 1), (26, 1, 1), (27, 1, 1), (28, 8, 2 ^ 61 + 0x100000), (36, 4, 64)] }; decide (c.op = .peerSend) && (decide (cmdOf s c.id = some c) && (decide (c.phase = .parked .units) && ((pathOpen s c) && (decide (overdue s c = false) && ((allOn s (cmdDoms s c))))))))
    && (let p : Packet := tP [(24, 1, 1), (28, 4, 2)]; let s : State := tGroup; (match startOf .peerCredit 0xB2 p s with | some (c, w) => (decide (w.group.state = 2) && ((match peerOf w (arg c 24 1) with | some q => (decide (livePeer w (arg c 24 1) = some q) && (decide (arg c 28 4 ≤ (q.rxNext - q.returned).toNat))) | _ => false))) | _ => false))
    && (let p : Packet := tP [(24, 1, 1)]; let s : State := tGroup; (match startOf .groupLeave 0xB3 p s with | some (c, _) => (decide (arg c 24 1 = 1)) | _ => false))
    && (let p : Packet := tP []; let s : State := tGroup; (match startOf .groupLeave 0xB3 p s with | some (c, _) => (decide (arg c 24 1 ≠ 1)) | _ => false))
    && (let p : Packet := tP []; let s : State := tGroup; (match startOf .groupLeave 0xB3 p s with | some (c, w) => (decide (arg c 24 1 ≠ 1) && ((match goesOn (setCmd w { c with phase := .parked .others, awaited := sendsBefore w c }) with | some (d, v) => (decide (d.op = .groupLeave) && (decide (stillOpen v d.awaited = false))) | _ => false))) | _ => false))) = true := by decide +kernel

theorem meets_SidebandCccsAnswer :
    ((let s : State := { tBase with i3c := { tBase.i3c with enabled := true } }; (s.i3c.enabled) && (decide (s.boot.inReset = false) && (decide (s.i3c.addr = none))))
    && (let s : State := { tBase with i3c := { tBase.i3c with enabled := true } }; (s.i3c.enabled) && (decide (s.boot.inReset = false)))
    && (let s : State := { tBase with i3c := { tBase.i3c with enabled := true, addr := some 8 } }; (s.i3c.enabled) && (decide (s.boot.inReset = false) && ((match s.i3c.addr with | some _ => (true) | _ => false))))
    && (let s : State := { tBase with i3c := { tBase.i3c with enabled := true, addr := some 8 } }; (s.i3c.enabled) && (decide (s.boot.inReset = false) && ((match s.i3c.addr with | some _ => (true) | _ => false))))
    && (let s : State := { tBase with i3c := { tBase.i3c with enabled := true, addr := some 8 } }; (s.i3c.enabled) && (decide (s.boot.inReset = false) && ((match s.i3c.addr with | some _ => (true) | _ => false))))
    && (let s : State := { tBase with i3c := { tBase.i3c with enabled := true, addr := some 8 } }; (s.i3c.enabled) && (decide (s.boot.inReset = false) && ((match s.i3c.addr with | some _ => (true) | _ => false))))
    && (let s : State := { tBase with i3c := { tBase.i3c with enabled := true, addr := some 8 } }; (s.i3c.enabled) && (decide (s.boot.inReset = false) && ((match s.i3c.addr with | some _ => (true) | _ => false))))
    && (let s : State := { tBase with i3c := { tBase.i3c with enabled := true } }; (s.i3c.enabled) && (decide (s.boot.inReset = false)))) = true := by decide +kernel

theorem meets_WakeStatusRegisters :
    ((let s : State := { tBase with i3c := { tBase.i3c with enabled := true, addr := some 8 } }; let v : Byte := 0x80; (s.i3c.enabled) && (decide (s.boot.inReset = false) && ((match s.i3c.addr with | some _ => ((v.getLsbD 7)) | _ => false))))
    && (let v : Byte := 0x7F; decide (v.getLsbD 7 = false))
    && (let s : State := { tBase with i3c := { tBase.i3c with enabled := true, addr := some 8 } }; (s.i3c.enabled) && (decide (s.boot.inReset = false) && ((match s.i3c.addr with | some _ => (true) | _ => false))))) = true := by decide +kernel

theorem meets_TestStopSuppressesAlive :
    ((let s : State := { tBase with i3c := { tBase.i3c with enabled := true, addr := some 8 } }; (s.i3c.enabled) && (decide (s.boot.inReset = false) && ((match s.i3c.addr with | some _ => (decide (s.fuse.oemLock = false)) | _ => false))))
    && (let s : State := { tBase with i3c := { tBase.i3c with enabled := true, addr := some 8 } }; (s.i3c.enabled) && (decide (s.boot.inReset = false) && ((match s.i3c.addr with | some _ => (decide (s.fuse.oemLock = false)) | _ => false))))
    && (let s : State := { tBase with fuse := { tBase.fuse with oemLock := true } }; (s.fuse.oemLock))
    && (let s : State := { tBase with fault := { tBase.fault with testStop := true } }; (s.fault.testStop))
    && (let s : State := { tBase with fault := { tBase.fault with testStop := true } }; (s.fault.testStop) && (decide (s.fault.testAt + 12288 ≤ s.stb)))
    && (let s : State := { tBase with fault := { tBase.fault with testStop := true, testAt := 6131713 } }; decide (s.stb < s.fault.testAt + 12288))
    && (let s : State := { tBase with fault := { tBase.fault with aliveRun := true, healthAt := 6143000 } }; (s.fault.aliveRun) && (decide (s.stb % 1536 = 0) && (decide (s.fault.lastEdge ≠ s.stb) && (decide (aliveCause s = 0)))))) = true := by decide +kernel

theorem meets_AliveEdges :
    ((let s : State := tBase; decide (s.fault.aliveRun = false))
    && (let s : State := { tBase with stb := 6144001 }; decide (s.stb % 1536 ≠ 0))
    && (let s : State := { tBase with fault := { tBase.fault with aliveRun := true, healthAt := 6143000 } }; (s.fault.aliveRun) && (decide (s.stb % 1536 = 0) && (decide (s.fault.lastEdge ≠ s.stb) && (decide (aliveCause s = 0)))))
    && (let s : State := { tBase with fault := { tBase.fault with aliveRun := true, healthAt := 6143000, gorseWdt := true } }; (s.fault.aliveRun) && (decide (s.stb % 1536 = 0) && (decide (s.fault.lastEdge ≠ s.stb) && (decide (aliveCause s ≠ 0)))))) = true := by decide +kernel

theorem meets_FuseProvisioning_part1 :
    ((let s : State := { tBase with i3c := { tBase.i3c with enabled := true, addr := some 8 }, pins := { tBase.pins with vpp := true } }; (s.i3c.enabled) && (decide (s.boot.inReset = false) && ((match s.i3c.addr with | some _ => (decide (1 ≤ s.boot.stage) && (decide (s.root.provBusy = false) && ((s.pins.vpp) && (decide (s.regs.admin0.enable = false) && (decide (s.fuse.oemLock = false) && (decide (s.fuse.oemKeySet = false))))))) | _ => false))))
    && (let s : State := { tBase with i3c := { tBase.i3c with enabled := true, addr := some 8 }, pins := { tBase.pins with vpp := true } }; (s.i3c.enabled) && (decide (s.boot.inReset = false) && ((match s.i3c.addr with | some _ => (decide (1 ≤ s.boot.stage) && (decide (s.root.provBusy = false) && ((s.pins.vpp) && (decide (s.regs.admin0.enable = false) && (decide (s.fuse.oemLock = false)))))) | _ => false))))
    && (let s : State := { tBase with i3c := { tBase.i3c with enabled := true, addr := some 8 }, pins := { tBase.pins with vpp := true } }; (s.i3c.enabled) && (decide (s.boot.inReset = false) && ((match s.i3c.addr with | some _ => (decide (1 ≤ s.boot.stage) && (decide (s.root.provBusy = false) && ((s.pins.vpp) && (decide (s.regs.admin0.enable = false) && (decide (s.fuse.dbgOff = false)))))) | _ => false))))
    && (let s : State := { tBase with i3c := { tBase.i3c with enabled := true, addr := some 8 }, pins := { tBase.pins with vpp := false } }; (s.i3c.enabled) && (decide (s.boot.inReset = false) && ((match s.i3c.addr with | some _ => (decide (1 ≤ s.boot.stage) && (decide (s.root.provBusy = false) && (decide (s.pins.vpp = false)))) | _ => false))))
    && (let s : State := { tBase with i3c := { tBase.i3c with enabled := true, addr := some 8 }, pins := { tBase.pins with vpp := false } }; (s.i3c.enabled) && (decide (s.boot.inReset = false) && ((match s.i3c.addr with | some _ => (decide (1 ≤ s.boot.stage) && (decide (s.root.provBusy = false) && (decide (s.pins.vpp = false)))) | _ => false))))
    && (let s : State := { tBase with i3c := { tBase.i3c with enabled := true, addr := some 8 }, pins := { tBase.pins with vpp := false } }; (s.i3c.enabled) && (decide (s.boot.inReset = false) && ((match s.i3c.addr with | some _ => (decide (1 ≤ s.boot.stage) && (decide (s.root.provBusy = false) && (decide (s.pins.vpp = false)))) | _ => false))))
    && (let s : State := { tBase with i3c := { tBase.i3c with enabled := true, addr := some 8 }, pins := { tBase.pins with vpp := true }, regs := { tBase.regs with admin0 := { enable := true } } }; (s.i3c.enabled) && (decide (s.boot.inReset = false) && ((match s.i3c.addr with | some _ => (decide (1 ≤ s.boot.stage) && (decide (s.root.provBusy = false) && ((s.pins.vpp) && ((s.regs.admin0.enable))))) | _ => false))))
    && (let s : State := { tBase with i3c := { tBase.i3c with enabled := true, addr := some 8 }, pins := { tBase.pins with vpp := true }, regs := { tBase.regs with admin0 := { enable := true } } }; (s.i3c.enabled) && (decide (s.boot.inReset = false) && ((match s.i3c.addr with | some _ => (decide (1 ≤ s.boot.stage) && (decide (s.root.provBusy = false) && ((s.pins.vpp) && ((s.regs.admin0.enable))))) | _ => false))))
    && (let s : State := { tBase with i3c := { tBase.i3c with enabled := true, addr := some 8 }, pins := { tBase.pins with vpp := true }, regs := { tBase.regs with admin0 := { enable := true } } }; (s.i3c.enabled) && (decide (s.boot.inReset = false) && ((match s.i3c.addr with | some _ => (decide (1 ≤ s.boot.stage) && (decide (s.root.provBusy = false) && ((s.pins.vpp) && ((s.regs.admin0.enable))))) | _ => false))))
    && (let s : State := { tBase with i3c := { tBase.i3c with enabled := true, addr := some 8 }, pins := { tBase.pins with vpp := true }, fuse := { tBase.fuse with oemKeySet := true } }; (s.i3c.enabled) && (decide (s.boot.inReset = false) && ((match s.i3c.addr with | some _ => (decide (1 ≤ s.boot.stage) && (decide (s.root.provBusy = false) && ((s.pins.vpp) && (decide (s.regs.admin0.enable = false) && (decide (s.fuse.oemLock = true ∨ s.fuse.oemKeySet = true)))))) | _ => false))))
    && (let s : State := { tBase with i3c := { tBase.i3c with enabled := true, addr := some 8 }, pins := { tBase.pins with vpp := true }, fuse := { tBase.fuse with oemLock := true } }; let b : BitVec 7 := 8; (s.i3c.enabled) && (decide (s.boot.inReset = false) && (decide (s.i3c.addr = some b) && (decide (1 ≤ s.boot.stage) && (decide (s.root.provBusy = false) && ((s.pins.vpp) && (decide (s.regs.admin0.enable = false) && ((s.fuse.oemLock)))))))))
    && (let s : State := { tBase with i3c := { tBase.i3c with enabled := true, addr := some 8 }, pins := { tBase.pins with vpp := true }, fuse := { tBase.fuse with dbgOff := true } }; let b : BitVec 7 := 8; (s.i3c.enabled) && (decide (s.boot.inReset = false) && (decide (s.i3c.addr = some b) && (decide (1 ≤ s.boot.stage) && (decide (s.root.provBusy = false) && ((s.pins.vpp) && (decide (s.regs.admin0.enable = false) && ((s.fuse.dbgOff)))))))))) = true := by decide +kernel

theorem meets_FuseProvisioning_part2 :
    ((let s : State := { tBase with i3c := { tBase.i3c with enabled := true, addr := some 8 }, pins := { tBase.pins with vpp := true }, root := { tBase.root with provBusy := true, provOp := 1 } }; let u : State := sweep s; (u.root.provBusy) && (decide (u.boot.inReset = false)))
    && (let s : State := { tBase with i3c := { tBase.i3c with enabled := true, addr := some 8 }, pins := { tBase.pins with vpp := true }, root := { tBase.root with provBusy := true, provOp := 1 } }; let u : State := sweep s; (u.root.provBusy) && (decide (u.boot.inReset = false) && (decide (u.root.provOp = 1))))
    && (let s : State := { tBase with i3c := { tBase.i3c with enabled := true, addr := some 8 }, pins := { tBase.pins with vpp := true }, root := { tBase.root with provBusy := true, provOp := 2 } }; let u : State := sweep s; (u.root.provBusy) && (decide (u.boot.inReset = false) && (decide (u.root.provOp = 2))))
    && (let s : State := { tBase with i3c := { tBase.i3c with enabled := true, addr := some 8 }, pins := { tBase.pins with vpp := true }, root := { tBase.root with provBusy := true, provOp := 3 } }; let u : State := sweep s; (u.root.provBusy) && (decide (u.boot.inReset = false) && (decide (u.root.provOp = 3))))) = true := by decide +kernel

theorem meets_DoorbellsKeepTheirLimits :
    ((let s : State := tBase; let fn : Fn := .pf0; let rn : Nat := 0; let v : U64 := 17; let u : State := sweep s; (barReached u) && (decide (u.boot.recovery = false) && ((ownsRing u fn rn) && (let r : Ring := ringOf u rn; (r.enabled) && (decide (2 ^ r.log2 < ((v.extractLsb' 0 32 : U32) - r.fetched).toNat ∨ 2 ^ r.log2 < (r.cqTail - (v.extractLsb' 32 32 : U32)).toNat))))))
    && (let s : State := tBase; let fn : Fn := .pf0; let rn : Nat := 0; let v : U64 := 16; let u : State := sweep s; (barReached u) && (decide (u.boot.recovery = false) && ((ownsRing u fn rn) && (let r : Ring := ringOf u rn; (r.enabled) && (decide (((v.extractLsb' 0 32 : U32) - r.fetched).toNat ≤ 2 ^ r.log2) && (decide ((r.cqTail - (v.extractLsb' 32 32 : U32)).toNat ≤ 2 ^ r.log2)))))))) = true := by decide +kernel

theorem meets_WritesBeforeCapsValid :
    ((let s : State := { tBase with boot := { tBase.boot with capsValid := false } }; let u : State := sweep s; decide (u.boot.capsValid = false))
    && (let s : State := { tBase with boot := { tBase.boot with capsValid := false } }; let u : State := sweep s; decide (u.boot.capsValid = false))
    && (let s : State := { tBase with boot := { tBase.boot with capsValid := false } }; let u : State := sweep s; decide (u.boot.capsValid = false))
    && (let s : State := { tBase with boot := { tBase.boot with capsValid := false } }; let fn : Fn := .pf0; let v : U32 := 1; let u : State := sweep s; decide (u.boot.capsValid = false) && ((barReached u) && (decide (u.boot.recovery = false) && ((v.getLsbD 0) && (decide ((admin u fn).enable = false))))))
    && (let s : State := { tBase with boot := { tBase.boot with capsValid := false } }; let v : U32 := 0; let u : State := sweep s; decide (u.boot.capsValid = false) && (decide (v.getLsbD 0 = false)))) = true := by decide +kernel

theorem meets_ConfigurationWrites_part1 :
    ((let s : State := tBase; let v : U32 := 512; let u : State := sweep s; (barReached u) && ((u.boot.capsValid) && (decide (u.regs.admin0.enable = false) && (decide (u.regs.admin1.enable = false) && (decide (v.toNat % 4096 % 256 = 0) && (decide (v.toNat % 4096 ≤ 2048)))))))
    && (let s : State := tBase; let u : State := sweep s; true)
    && (let s : State := { tBase with nand := tBase.nand.map (fun n => { n with inService := true }) }; let v : U32 := 0x2222; let u : State := sweep s; (barReached u) && ((u.boot.capsValid) && (decide (u.regs.admin0.enable = false) && (decide (u.regs.admin1.enable = false) && ((partitionOk u (v.toNat % 65536)) && (let x : State := (maskList (movedUnits u (v.toNat % 65536) % 16)).foldl (fun s c => disableUnit s (domCop c)) u; true))))))
    && (let s : State := tBase; let v : U32 := 512; let u : State := sweep s; decide (u.regs.admin0.enable = true ∨ partitionOk u (v.toNat % 65536) = false))
    && (let s : State := tBase; let v : U64 := 0x0000003208004444; let u : State := sweep s; (barReached u) && ((u.boot.capsValid) && (let n : Nat := v.toNat; (memConfigOk n) && (decide (u.regs.admin0.enable = false) && (decide (u.regs.admin1.enable = false) && (let x : State := ((List.range 4).filter (fun g => bits (n % 65536) (4 * g + 3) (4 * g) != bits u.regs.memConfig.toNat (4 * g + 3) (4 * g))).foldl grainChange u; true))))))
    && (let s : State := { tBase with regs := { tBase.regs with admin0 := { enable := true } } }; let v : U64 := 0x0000003208004444; let u : State := sweep s; (barReached u) && ((u.boot.capsValid) && ((memConfigOk v.toNat) && ((u.regs.admin0.enable)))))
    && (let s : State := tBase; let fn : Fn := .pf0; let v : U32 := 1; let u : State := sweep s; (barReached u) && (decide (u.boot.recovery = false) && ((v.getLsbD 0) && (let a : Admin := admin u fn; decide (a.enable = false) && ((u.boot.capsValid) && (decide (u.regs.clearing = 0) && (decide (4 ≤ a.log2) && (decide (a.log2 ≤ 16) && (decide (adminRing u fn < 4096) && (let r : Ring := { num := adminRing u fn, enabled := true, cls := 1, log2 := a.log2, sqBase := a.sqBase, cqBase := a.cqBase, cwAddr := a.cwAddr, dbIgnored := (ringOf u (adminRing u fn)).dbIgnored }; true))))))))))
    && (let s : State := { tBase with regs := { tBase.regs with admin0 := { log2 := 3 } } }; let fn : Fn := .pf0; let v : U32 := 1; let u : State := sweep s; (barReached u) && (decide (u.boot.recovery = false) && ((v.getLsbD 0) && (decide ((admin u fn).enable = false) && (decide (mayEnable u fn = false))))))
    && (let s : State := { tBase with regs := { tBase.regs with admin0 := { enable := true } } }; let fn : Fn := .pf0; let v : U32 := 0; let u : State := sweep s; (barReached u) && (decide (u.boot.recovery = false) && (decide (v.getLsbD 0 = false) && ((u.boot.capsValid) && (((admin u fn).enable) && (let x : State := setAdmin u fn { admin u fn with error := false }; let y : State := (if sessionOf x fn ≠ 0 then closeSession x fn else x); true))))))
    && (let s : State := tBase; let fn : Fn := .pf0; let v : U32 := 0; let u : State := sweep s; (barReached u) && (decide (u.boot.recovery = false) && (decide (v.getLsbD 0 = false) && ((u.boot.capsValid) && (decide ((admin u fn).enable = false))))))
    && (let s : State := tBase; let fn : Fn := .pf0; let rn : Nat := 0; let u : State := sweep s; (barReached u) && ((ownsRing u fn rn) && ((u.rings.any (fun r => r.num == rn)) && (let x : State := { u with regs := { u.regs with ioOut := natLe 8 (ringStatus u fn rn) } }; true))))
    && (let s : State := tBase; let fn : Fn := .pf0; let rn : Nat := 0; let u : State := sweep s; (barReached u) && ((ownsRing u fn rn) && ((u.rings.any (fun r => r.num == rn)) && (let x : State := { u with regs := { u.regs with readLatch := (rn, ringStatus u fn rn / 2 ^ 32) :: u.regs.readLatch.filter (fun e => e.1 != rn), ioOut := natLe 4 (ringStatus u fn rn) } }; true))))) = true := by decide +kernel

theorem meets_ConfigurationWrites_part2 :
    ((let s : State := { tBase with regs := { tBase.regs with readLatch := [(3, 5)] } }; let rn : Nat := 3; let u : State := sweep s; (barReached u) && ((match u.regs.readLatch.find? (fun e => e.1 == rn) with | some _ => (true) | _ => false)))
    && (let s : State := tBase; let fn : Fn := .pf0; let rn : Nat := 3; let data : List Byte := zeroBytes 4; let u : State := sweep s; (barReached u) && (decide (u.boot.recovery = false) && (decide (rn < 4096) && ((ownsRing u fn rn) && (decide (data.length ≠ 8))))))
    && (let s : State := { tBase with i3c := { tBase.i3c with enabled := true, addr := some 8 } }; let b : BitVec 7 := 8; let data : List Byte := zeroBytes 32; let u : State := sweep s; (u.i3c.enabled) && (decide (u.boot.inReset = false) && (decide (u.i3c.addr = some b) && (decide (u.boot.recovery = false) && (decide (u.root.provBusy = false) && (decide (data.length = 32)))))))
    && (let s : State := tBase; let fn : Fn := .pf0; let data : List Byte := zeroBytes 8; let u : State := sweep s; (barReached u) && (decide (u.boot.recovery = false) && (decide (data.length = 8) && (decide ((admin u fn).enable = false)))))
    && (let s : State := { tBase with regs := { tBase.regs with admin0 := { enable := true } } }; let fn : Fn := .pf0; let data : List Byte := zeroBytes 8; let u : State := sweep s; decide (data.length = 8) && (((admin u fn).enable) && (decide (u.boot.recovery = false))))) = true := by decide +kernel

theorem meets_BootChain :
    ((let s : State := State.reset; let u : State := sweep s; (u.boot.inReset) && (let x : State := { u with stb := 0, boot := { u.boot with inReset := false }, pins := { u.pins with grstN := true, clkreqLow := true }, root := { u.root with kemId := 1, kemPair := u.freeCtr } }; true))
    && (let s : State := { State.reset with boot := { State.reset.boot with inReset := false } }; let u : State := sweep s; decide (u.boot.inReset = false) && (decide (u.boot.stage = 0) && (decide (failedImages u = 0) && (let x : State := { u with boot := { u.boot with stage := 1 }, fw := { u.fw with running := u.fw.nor, norState := [0, 0, 0, 0, 0, 0] }, i3c := { u.i3c with enabled := true }, fault := { u.fault with aliveRun := true, kickGorse := u.stb } }; true))))
    && (let s : State := { State.reset with boot := { State.reset.boot with inReset := false }, fw := { State.reset.fw with nor := [] } }; let u : State := sweep s; decide (u.boot.inReset = false) && (decide (u.boot.stage = 0) && (decide (failedImages u ≠ 0))))
    && (let s : State := { State.reset with boot := { State.reset.boot with inReset := false } }; let u : State := sweep s; decide (u.boot.inReset = false) && (decide (u.boot.stage = 0)))
    && (let s : State := { tBase with boot := { tBase.boot with laurelReleased := false, stage := 1 }, fw := { tBase.fw with running := [{ component := 3 }] } }; let u : State := sweep s; (gorseRuns u) && (decide (u.boot.laurelReleased = false) && (decide (u.boot.laurelHeld = false) && (decide (u.custody.noReturn = false) && (decide (u.fault.haltGorse = false) && ((domOn u domCtrl) && ((laurelVerified u) && (let x : State := { u with boot := { u.boot with laurelReleased := true, stage := if u.boot.capsValid then 4 else 2 }, dlink := { u.dlink with trained := false, limitAt := some (u.stb + 8192), limitDir := 0, replaysGL := 0, replaysLG := 0 }, custody := { u.custody with grantAsked := true }, sess0 := { u.sess0 with opened := 0 }, sess1 := { u.sess1 with opened := 0 }, fault := { u.fault with healthAt := u.stb, kickCp0 := u.stb, kickCp1 := u.stb } }; let y : State := { x with obs := { x.obs with restarted := false } }; let z : State := (if u.boot.capsValid then x else demandDom (demandDom (demandDom y domLink 0x00 0x06) domMema 0x00 0x06) domMemb 0x00 0x06); true))))))))
    && (let s : State := State.reset; let u : State := sweep s; decide (laurelVerified u = false))
    && (let s : State := { tBase with boot := { tBase.boot with stage := 2 } }; let full : Bool := true; let failed : List Nat := [32]; let u : State := sweep s; decide (u.boot.stage = 2) && (decide (u.boot.inReset = false) && ((domOn u domMema) && (decide (domPresent u.fuse.part domMemb = false ∨ domOn u domMemb = true) && (let x : State := ((failed.filter (fun ch => decide (ch / 8 < unitsOf u.fuse.part) && !u.dram.moved.any (fun m => m.1 == ch))).dedup).foldl untrained u; let y : State := { x with boot := { x.boot with trainFull := full || !x.fw.trainValid }, fw := { x.fw with trainValid := true } }; true)))))
    && (let s : State := { tBase with boot := { tBase.boot with stage := 3 } }; let failed : List Nat := [1]; let u : State := sweep s; decide (u.boot.stage = 3) && (decide (u.boot.inReset = false) && ((domOn u domNand) && (let x : State := discardKeyless ((unitList (nandPresent u)).foldl (mountChannel failed) u); true))))
    && (let s : State := State.reset; let u : State := sweep s; true)) = true := by decide +kernel

theorem meets_RecoveryLoader :
    ((let s : State := { tBase with boot := { tBase.boot with recovery := true, rcvComponent := 3, rcvLen := 4096, failed := 4 } }; (barReached s) && ((s.boot.recovery) && (decide (s.boot.rcvBusy = false))))
    && (let s : State := { tBase with boot := { tBase.boot with recovery := true, rcvComponent := 3, rcvLen := 4096, failed := 4, rcvBusy := true } }; let hostOk : Bool := true; let norOk : Bool := true; let u : State := sweep s; (u.boot.recovery) && ((u.boot.rcvBusy) && (decide (loadReason u hostOk norOk ≠ 0))))
    && (let s : State := { tBase with boot := { tBase.boot with recovery := true, rcvComponent := 3, rcvLen := 4096, failed := 4, resetAt := some 6143999 } }; let u : State := sweep s; (u.boot.recovery) && ((match u.boot.resetAt with | some n => (decide (n ≤ u.stb)) | _ => false)))) = true := by decide +kernel

theorem meets_HostLinkEvents_part1 :
    ((let s : State := tBase; let u : State := sweep s; decide (u.boot.inReset = false) && (let x : State := { u with pins := { u.pins with perstN := false }, pcie := { u.pcie with link := .down, detect := false, perstRise := none, answer := .none } }; true))
    && (let s : State := { tBase with pins := { tBase.pins with perstN := false } }; let u : State := sweep s; decide (u.pins.perstN = false) && ((u.boot.laurelReleased) && (let x : State := { u with pins := { u.pins with perstN := true }, pcie := { u.pcie with perstRise := some u.stb, d0 := .d0, d1 := .d0, detect := domOn u domLink && !u.boot.inReset } }; true)))
    && (let s : State := { tBase with boot := { tBase.boot with laurelReleased := false }, pins := { tBase.pins with perstN := false } }; let u : State := sweep s; decide (u.pins.perstN = false) && (decide (u.boot.laurelReleased = false)))
    && (let s : State := tBase; let u : State := sweep s; decide (u.pcie.link ≠ .down) && (decide (u.boot.inReset = false)))
    && (let s : State := tBase; let u : State := sweep s; decide (u.boot.inReset = false))
    && (let s : State := tBase; let u : State := sweep s; decide (u.pcie.d1 = .d0) && (decide (u.pcie.link ≠ .down)))
    && (let s : State := tBase; let u : State := sweep s; decide (u.pcie.d0 = .d0) && (decide (u.pcie.link ≠ .down)))
    && (let s : State := tBase; let u : State := sweep s; (u.pins.perstN) && (decide (u.boot.inReset = false)))
    && (let s : State := tBase; let u : State := sweep s; (u.pins.perstN) && (decide (u.boot.inReset = false)))
    && (let s : State := { tBase with pcie := { tBase.pcie with detect := true } }; let u : State := sweep s; (u.pins.perstN) && ((u.pcie.detect) && ((domOn u domLink) && (decide (u.boot.inReset = false)))))
    && (let s : State := { tBase with pcie := { tBase.pcie with detect := true } }; let u : State := sweep s; (u.pins.perstN) && ((u.pcie.detect) && (decide (u.boot.inReset = false))))
    && (let s : State := { tBase with pcie := { tBase.pcie with detect := true } }; let u : State := sweep s; (u.pins.perstN) && ((u.pcie.detect) && (decide (u.boot.inReset = false))))) = true := by decide +kernel

theorem meets_HostLinkEvents_part2 :
    ((let s : State := { tBase with pcie := { tBase.pcie with detect := true } }; let u : State := sweep s; (u.pins.perstN) && ((u.pcie.detect) && (decide (u.boot.inReset = false) && (let x : State := { u with pcie := { u.pcie with link := .l12 }, pins := { u.pins with clkreqLow := false } }; true))))
    && (let s : State := tBase; let u : State := sweep s; decide (u.boot.inReset = false))
    && (let s : State := { tBase with boot := { tBase.boot with recovery := true } }; decide (s.pcie.link ≠ .down) && (decide (s.boot.inReset = false) && ((s.boot.recovery))))
    && (let s : State := { tBase with boot := { tBase.boot with capsValid := false }, pcie := { tBase.pcie with perstRise := some 6143999 } }; decide (s.pcie.link ≠ .down) && (decide (s.boot.inReset = false) && (decide (s.boot.recovery = false) && (decide (s.boot.capsValid = false) && ((match s.pcie.perstRise with | some n => (decide (s.stb < n + 2764800)) | _ => false))))))
    && (let s : State := { tBase with pcie := { tBase.pcie with perstRise := some 6143999 } }; decide (s.pcie.link ≠ .down) && (decide (s.boot.inReset = false) && (decide (s.boot.recovery = false) && ((match s.pcie.perstRise with | some n => (decide (s.boot.capsValid = true ∨ n + 2764800 ≤ s.stb)) | _ => false)))))) = true := by decide +kernel

theorem meets_CustodyLease_part1 :
    ((let s : State := { tBase with stb := 6146048 }; (laurelRuns s) && (decide (s.custody.state = .granted) && ((s.custody.line) && (decide (s.custody.quiescing = false) && (decide (s.custody.renewAt ≤ ctrlStamp s))))))
    && (let s : State := { tBase with stb := 6146048 }; let u : State := sweep s; (gorseRuns u) && (decide (u.fault.haltGorse = false) && (decide (u.custody.state = .granted) && ((u.dlink.trained) && (let epoch : U32 := u.custody.epoch; decide (u.stb ≤ u.custody.expiry))))))
    && (let s : State := tBase; let epoch : U32 := 7; let u : State := sweep s; (gorseRuns u) && (decide (u.fault.haltGorse = false) && (decide (u.custody.state = .granted) && ((u.dlink.trained) && (decide (epoch ≠ u.custody.epoch))))))
    && (let s : State := { tBase with custody := { tBase.custody with acks := [6146048] } }; let e : Nat := 6146048; let u : State := sweep s; (u.boot.laurelReleased) && ((u.dlink.trained) && ((u.custody.acks.contains e) && (let x : State := { u with custody := { u.custody with laurelExpiry := max u.custody.laurelExpiry e, acks := u.custody.acks.erase e, stopped := u.custody.stopped && !(u.custody.line && decide (ctrlStamp u + 16 < max u.custody.laurelExpiry e)) } }; true))))
    && (let s : State := { tBase with stb := 6150130 }; let u : State := sweep s; (leaseHeld u) && (decide (u.custody.laurelExpiry ≤ ctrlStamp u + 16)))
    && (let s : State := { tBase with stb := 6150144 }; let u : State := sweep s; decide (u.custody.state = .granted) && (decide (u.custody.expiry ≤ u.stb)))
    && (let s : State := { tBase with custody := { tBase.custody with state := .revoked, revokedAt := some 6140000 } }; let u : State := sweep s; decide (u.custody.state = .revoked) && ((match u.custody.revokedAt with | some _ => (decide (u.custody.revokeSeen = false) && ((u.dlink.trained) && ((u.boot.laurelReleased) && (let v : State := { u with rings := u.rings.map (fun r => if r.enabled then { r with latched := some r.fetched } else r) }; let x : State := endAll ((contested v).foldl undoInstall v) (contested v) .contested; let y : State := forgetAll x (x.cmds.map (·.id)); let z : State := y.work.steps.foldl discardStep y; true)))) | _ => false)))
    && (let s : State := { tBase with custody := { tBase.custody with state := .revoked, revokedAt := some 6140000, quietSent := true, cause := 1 } }; let u : State := sweep s; decide (u.custody.state = .revoked) && ((u.custody.quietSent) && ((u.dlink.trained) && (decide (u.custody.cause < 4) && (decide (u.fault.laurelFatal = false) && (decide (u.fault.gorseFatal = false)))))))
    && (let s : State := { tBase with custody := { tBase.custody with state := .revoked, revokedAt := some 6140000, quietSent := true, cause := 4 } }; let u : State := sweep s; decide (u.custody.state = .revoked) && ((u.custody.quietSent) && ((u.dlink.trained) && (decide (4 ≤ u.custody.cause ∨ u.fault.laurelFatal = true ∨ u.fault.gorseFatal = true)))))
    && (let s : State := { tBase with custody := { tBase.custody with state := .revoked, revokedAt := some 6139904 } }; let u : State := sweep s; decide (u.custody.state = .revoked) && ((match u.custody.revokedAt with | some n => (decide (n + 4096 ≤ u.stb)) | _ => false)))
    && (let s : State := { tBase with custody := { tBase.custody with state := .revoked, grantAsked := true } }; let u : State := sweep s; (u.custody.grantAsked) && ((u.dlink.trained) && (decide (u.custody.state ≠ .granted) && (decide (u.custody.noReturn = false) && ((gorseRuns u) && (decide (u.fault.haltGorse = false)))))))
    && (let s : State := { tBase with stb := 6146048 }; decide (s.custody.heldWake = false) && (decide (s.heldOut = []) && (decide (s.listen.stage3 = false))))) = true := by decide +kernel

theorem meets_CustodyLease_part2 :
    ((let s : State := tBase; let epoch : U32 := 7; let u : State := sweep s; decide (u.custody.state = .granted) && ((u.dlink.trained) && (decide (epoch ≠ u.custody.epoch))))
    && (let s : State := { updDom tBase 0x10 (fun x => { x with state := .entering, entryAt := 6143996 }) with stb := 6144000 }; let u : State := sweep s; decide (u.custody.state = .granted) && ((u.dlink.trained) && (let epoch : U32 := u.custody.epoch; decide ((domOf u domCtrl).state = .entering) && (decide ((domOf u domCtrl).entryAt + 4 ≤ u.stb)))))) = true := by decide +kernel

theorem meets_DieLinkAndMirrors_part1 :
    ((let s : State := tBase; let u : State := sweep s; (u.dlink.trained) && (decide (u.fault.haltLaurel = false) && (decide (armed u 0x10 0 (fun _ => true) = none))))
    && (let s : State := tBase; let u : State := sweep s; (u.dlink.trained) && (decide (u.fault.haltLaurel = false) && (decide (armed u 0x10 1 (fun _ => true) = none) && (let x : State := { u with dlink := { u.dlink with replaysLG := 0, seqLG := u.dlink.seqLG + 1 } }; true))))
    && (let s : State := tBase; (gorseRuns s) && (decide (s.fault.haltGorse = false)))
    && (let s : State := tBase; (gorseRuns s) && (decide (s.fault.haltGorse = false)))
    && (let s : State := tBase; let d : Nat := 5; (gorseRuns s) && (decide (s.fault.haltGorse = false) && (decide (d < 0x10 ∨ (domOf s d).state = .entering ∨ (domOf s d).state = .returning))))
    && (let s : State := tBase; let u : State := sweep s; (u.dlink.trained) && (decide (u.fault.haltLaurel = false) && (let dir : Nat := 0; decide (armed u 0x10 dir (fun _ => true) = none) && (let x : State := countUp (raise u (capture u 0x10 dir 0)) 0x0020 dir 1; decide (x.dlink.replaysGL < 7)))))
    && (let s : State := tBase; let u : State := sweep s; (u.dlink.trained) && (decide (u.fault.haltLaurel = false) && (let dir : Nat := 1; decide (armed u 0x10 dir (fun _ => true) = none) && (let x : State := countUp (raise u (capture u 0x10 dir 0)) 0x0020 dir 1; decide (x.dlink.replaysLG < 7)))))
    && (let s : State := { tBase with dlink := { tBase.dlink with replaysGL := 7 } }; let dir : Nat := 0; let u : State := sweep s; (u.dlink.trained) && (decide (u.fault.haltLaurel = false) && (decide (armed u 0x10 dir (fun _ => true) = none) && (let x : State := countUp (raise u (capture u 0x10 dir 0)) 0x0020 dir 1; decide (dir < 2) && (decide (7 ≤ (if dir = 0 then x.dlink.replaysGL else x.dlink.replaysLG)) && (let y : State := { x with dlink := { x.dlink with trained := false, limitAt := some (x.stb + 8192), limitDir := dir, replaysGL := 0, replaysLG := 0 } }; true))))))
    && (let s : State := { tBase with fault := { tBase.fault with injections := [{ target := 0x10, unit := 0, bits := 1, address := 0, cmd := 1 }] } }; let dir : Nat := 0; let u : State := sweep s; (u.dlink.trained) && (decide (u.fault.haltLaurel = false) && (decide (dir < 2) && ((match armed u 0x10 dir (fun _ => true) with | some i => (decide (i.bits = 1)) | _ => false)))))
    && (let s : State := { tBase with dlink := { tBase.dlink with trained := false } }; let u : State := sweep s; decide (u.dlink.trained = false) && ((u.boot.laurelReleased)))
    && (let s : State := tBase; let u : State := sweep s; true)
    && (let s : State := { tBase with dlink := { tBase.dlink with trained := false, limitAt := some 6143999 } }; let u : State := sweep s; (match u.dlink.limitAt with | some n => (decide (n ≤ u.stb) && (decide (u.dlink.trained = false) && (let x : State := { u with dlink := { u.dlink with limitAt := none }, fault := { u.fault with firstSource := if u.fault.firstSource = 0 then 0x10 else u.fault.firstSource } }; true))) | _ => false))) = true := by decide +kernel

theorem meets_DieLinkAndMirrors_part2 :
    ((let s : State := { tBase with mirrors := [{ dom := 0x10, offset := 3 }] }; let d : Nat := 0x10; let u : State := sweep s; (u.dlink.trained) && ((domOn u d) && (decide (0x10 ≤ d) && (decide (u.stb % 4096 = 0) && (decide (stampOf u d ≠ u.stb))))))
    && (let s : State := tBase; let d : Nat := 0x10; let u : State := sweep s; decide (stampOf u d = u.stb))
    && (let s : State := { tBase with mirrors := [{ dom := 0x10, offset := 3, uncertain := true }] }; let d : Nat := 0x10; let v : Nat := 6143999; let u : State := sweep s; ((mirrorOf u d).uncertain) && ((u.dlink.trained) && (decide (v ≤ u.stb))))
    && (let s : State := { tBase with mirrors := [{ dom := 0x10, offset := 3 }] }; let d : Nat := 0x10; let u : State := sweep s; (domOn u d) && (decide (0x10 ≤ d) && ((domPresent u.fuse.part d))))
    && (let s : State := { tBase with cmds := [{ id := 0, fn := .pf0, op := .nop, pkt := tP [], nb := some 6143000, dl := some 6143999 }] }; let id : Nat := 0; let u : State := sweep s; (nbReached s id))
    && (let s : State := { tBase with cmds := [{ id := 0, fn := .pf0, op := .nop, pkt := tP [], nb := some 6143000, dl := some 6143999 }] }; let id : Nat := 0; (match cmdOf s id with | some c => ((laurelRuns s) && ((overdue s c))) | _ => false))
    && (let s : State := tBase; decide (s.cmds = []))) = true := by decide +kernel

theorem meets_FaultReports_part1 :
    ((let s : State := { tBase with fault := { tBase.fault with haltLaurel := true } }; (s.boot.laurelReleased) && ((s.dlink.trained) && ((domOn s domCtrl) && ((s.fault.haltLaurel)))))
    && (let s : State := tBase; (s.boot.laurelReleased) && ((s.dlink.trained) && ((domOn s domCtrl) && (decide (s.fault.haltLaurel = false) && (decide (s.fault.gorseFatal = false) && (decide (s.fault.integrity = false)))))))
    && (let s : State := { tBase with fault := { tBase.fault with haltLaurel := true } }; let u : State := sweep s; (healthOwed u) && (decide (u.fault.laurelFatal = false) && (decide (u.fault.healthAt + 3072 ≤ u.stb))))
    && (let s : State := { tBase with fault := { tBase.fault with haltLaurel := true } }; let u : State := sweep s; (gorseRuns u) && (decide (u.fault.kickGorse + 3072 ≤ u.stb) && (let x : State := { u with fault := { u.fault with gorseWdt := true } }; true)))
    && (let s : State := tBase; let u : State := sweep s; (laurelRuns u) && (decide (u.custody.state ≠ .relinquished) && (decide (u.fault.kickCp0 + 3072 ≤ u.stb))))
    && (let s : State := tBase; let u : State := sweep s; (laurelRuns u) && (decide (u.custody.state ≠ .relinquished) && (decide (u.fault.kickCp1 + 3072 ≤ u.stb))))
    && (let s : State := { tBase with fault := { tBase.fault with forward := [{ stamp := 5, fseq := 2, source := 0x0B, inst := 0, cls := 1 }] } }; let u : State := sweep s; (match u.fault.forward with | c :: _ => ((u.dlink.trained) && (decide (u.boot.inReset = false) && (decide (c.cls ≠ 2)))) | _ => false))
    && (let s : State := { tBase with fault := { tBase.fault with forward := [{ stamp := 5, fseq := 2, source := 0x0B, inst := 0, cls := 2 }] } }; let u : State := sweep s; (match u.fault.forward with | c :: _ => ((u.dlink.trained) && (decide (u.boot.inReset = false) && (decide (c.cls = 2)))) | _ => false))
    && (let s : State := tBase; let src : Nat := 0x02; let inst : Nat := 0; let u : State := sweep s; (u.boot.laurelReleased) && (decide (src ∈ [0x02, 0x04, 0x0B, 0x10, 0x18, 0x1A, 0x1D, 0x1E, 0x1F]) && (decide (inst < 256))))
    && (let s : State := tBase; let src : Nat := 0x03; let inst : Nat := 255; let u : State := sweep s; (gorseRuns u) && (decide (src ∈ [0x03, 0x04]) && (decide (inst < 256))))
    && (let s : State := tBase; let inst : Nat := 0; let u : State := sweep s; (gorseRuns u) && (decide (inst < 256) && (let x : State := { u with fault := { u.fault with gorseWdt := true } }; true)))
    && (let s : State := tBase; let src : Nat := 0x03; let inst : Nat := 255; let u : State := sweep s; decide (u.boot.inReset = false) && (decide (src ∈ [0x03, 0x04, 0x0D, 0x19, 0x1B, 0x22, 0x23, 0x24]) && (decide (inst < 256))))) = true := by decide +kernel

theorem meets_FaultReports_part2 :
    ((let s : State := tBase; let rail : Rail := .vddSram; let u : State := sweep s; decide (u.boot.inReset = false) && (decide (rail = .vddAon ∨ rail = .vddGorse ∨ rail = .vddSram)))
    && (let s : State := tBase; let rail : Rail := .vddq; let u : State := sweep s; decide (u.boot.inReset = false) && (decide (rail ≠ .vddAon) && (decide (rail ≠ .vddGorse) && (decide (rail ≠ .vddSram)))))
    && (let s : State := tBase; let clk : ClockMon := .gorse; let u : State := sweep s; decide (u.boot.inReset = false) && (decide (clk = .crystal ∨ clk = .gorse)))
    && (let s : State := { tBase with fault := { tBase.fault with haltLaurel := true } }; let u : State := sweep s; decide (u.boot.inReset = false) && ((u.boot.laurelReleased)))) = true := by decide +kernel

theorem meets_FatalFaultsHaltTheirDie :
    ((let c : Capture := { stamp := 5, fseq := 2, source := 0x19, inst := 0, cls := 2 }; decide (c.laurel = false))
    && (let s : State := tBase; let c : Capture := { stamp := 5, fseq := 2, source := 0x0D, inst := 0, cls := 3 }; let x : State := raiseAt (suppressAlive s) c.source c.inst c; let y : State := wipeCams (wipeAudio { x with fault := { x.fault with integrity := true } }); true)
    && (let s : State := tBase; decide (s.custody.state = .granted))
    && (let s : State := { tBase with custody := { tBase.custody with state := .relinquished } }; decide (s.custody.state ≠ .granted))) = true := by decide +kernel

theorem meets_RetirementScrubAndThermalCap_part1 :
    ((let s : State := tBase; let tile : Nat := 3; let u : State := sweep s; (gorseRuns u) && (decide (u.fault.haltGorse = false) && ((coppicePresent u (tile / 10)) && (decide ((copTiles u (tile / 10)).retired.contains tile = false)))))
    && (let s : State := tBase; let tile : Nat := 3; let u : State := sweep s; (gorseRuns u) && (decide (u.fault.haltGorse = false) && ((coppicePresent u (tile / 10)) && (let x : CopTiles := copTiles u (tile / 10); decide (x.retired.contains tile = false) && (decide ((x.rowsUsed.filter (· == tile)).length < 2) && (let y : State := (match x.logical.findIdx? (· == tile) with | some n => rerunOn u (tile / 10) n | none => u); true))))))
    && (let s : State := tBase; let unit : Nat := 3; let u : State := sweep s; (scrubRuns u .tileBuffer unit) && (decide (u.fault.integrity = false)))
    && (let s : State := tBase; let unit : Nat := 3; let u : State := sweep s; (scrubRuns u .coppiceBuffer unit) && (decide (u.fault.integrity = false)))
    && (let s : State := tBase; let reg : SramRegion := .gateBoundary; let unit : Nat := 0; let u : State := sweep s; (scrubRuns u reg unit) && (decide (u.fault.integrity = false) && (decide (reg ≠ .tileBuffer) && (decide (reg ≠ .coppiceBuffer)))))
    && (let s : State := tBase; let unit : Nat := 1; let addr : Nat := 64; let u : State := sweep s; (scrubRuns u .coppiceBuffer unit) && (decide (u.fault.integrity = false) && (let x : State := { u with store := { u.store with poison1 := u.store.poison1 ++ [(unit * 33554432 + addr % 33554432) / 64] } }; true)))
    && (let s : State := tBase; let unit : Nat := 3; let u : State := sweep s; (scrubRuns u .tileBuffer unit) && (decide (u.fault.integrity = false)))
    && (let s : State := tBase; let unit : Nat := 3; let u : State := sweep s; (scrubRuns u .laurelControl unit) && (decide (u.fault.integrity = false)))
    && (let s : State := tBase; let unit : Nat := 3; let u : State := sweep s; (scrubRuns u .gorse unit) && (decide (u.fault.integrity = false)))
    && (let s : State := tBase; let reg : SramRegion := .gateBoundary; let unit : Nat := 0; let u : State := sweep s; (scrubRuns u reg unit) && (decide (u.fault.integrity = false) && (decide (reg = .gateBoundary ∨ reg = .rootEngine))))
    && (let s : State := tBase; let t : Int := 105; decide (s.boot.inReset = false) && (decide ((if s.fuse.gradeE then -40 else -10) ≤ t) && (decide (t ≤ 105) && (decide (100 ≤ t)))))
    && (let s : State := tBase; let t : Int := 94; decide (s.boot.inReset = false) && (decide ((if s.fuse.gradeE then -40 else -10) ≤ t) && (decide (t < 95))))) = true := by decide +kernel

theorem meets_RetirementScrubAndThermalCap_part2 :
    ((let s : State := tBase; let t : Int := 99; decide (s.boot.inReset = false) && (decide (95 ≤ t) && (decide (t < 100))))
    && (let s : State := tBase; let t : Int := 106; decide (s.boot.inReset = false) && (decide (105 < t ∨ t < (if s.fuse.gradeE then -40 else -10))))) = true := by decide +kernel

theorem meets_ListeningEvents_part1 :
    ((let s : State := State.reset; let u : State := sweep s; (u.boot.inReset))
    && (let s : State := tBase; let u : State := sweep s; decide (u.boot.inReset = false) && (let x : State := zeroStores (wipeAudio (withdrawWake (forceSensors { u with listen := { u.listen with priv := true, privLowAt := u.stb, privReturn := false } }))); let y : State := markReads { x with cam0 := privCam x.cam0, cam1 := privCam x.cam1 }; let z : State := killImages y ((y.cmds.filter (fun c => readsFrames 0 c || readsFrames 1 c)).map (·.id)); true))
    && (let s : State := { tBase with listen := { tBase.listen with priv := true, privLowAt := 6082560 } }; let u : State := sweep s; decide (u.boot.inReset = false) && ((u.listen.priv) && (decide (u.listen.privLowAt + 61440 ≤ u.stb))))
    && (let s : State := tBase; let u : State := sweep s; decide (u.boot.inReset = false) && (decide ((u.listen.priv = false ∨ u.stb < u.listen.privLowAt + 61440))))
    && (let s : State := { tBase with listen := { tBase.listen with priv := true } }; let t : Nat := 6128640; let u : State := sweep s; decide (u.boot.inReset = false) && (decide (t + 15360 ≤ u.stb) && ((u.pins.talkN) && ((u.listen.priv)))))
    && (let s : State := { tBase with listen := { tBase.listen with armed := 2 } }; let t : Nat := 6128640; let u : State := sweep s; decide (u.boot.inReset = false) && (decide (t + 15360 ≤ u.stb) && ((u.pins.talkN) && (decide (u.listen.priv = false) && ((u.listen.armed.getLsbD 1))))))
    && (let s : State := { tBase with listen := { tBase.listen with armed := 4 } }; let t : Nat := 6128640; let u : State := sweep s; decide (u.boot.inReset = false) && (decide (t + 15360 ≤ u.stb) && ((u.pins.talkN) && (decide (u.listen.priv = false) && (decide (u.listen.armed.getLsbD 1 = false))))))
    && (let s : State := tBase; let t : Nat := 6128641; let u : State := sweep s; decide (u.stb < t + 15360))
    && (let s : State := { tBase with pins := { tBase.pins with talkN := false } }; let t : Nat := 6128640; let u : State := sweep s; decide (u.boot.inReset = false) && (decide (t + 15360 ≤ u.stb) && (decide (u.pins.talkN = false) && (decide (u.listen.gateOpen = false)))))
    && (let s : State := { tAudio with pins := { tAudio.pins with talkN := false } }; let t : Nat := 6128640; let u : State := sweep s; decide (u.boot.inReset = false) && (decide (t + 15360 ≤ u.stb) && (decide (u.pins.talkN = false) && ((u.listen.gateOpen) && (let f : Nat := t / 30720 * 30720; let mark : List AudioFrame → List AudioFrame := (fun l => l.map (fun x => if x.stamp = f then { x with endOfTurn := true } else x)); true)))))
    && (let s : State := tBase; let a : AudioIn := { energy := -40, share := 100 }; let u : State := sweep s; decide (u.stb % 30720 = 0) && (decide (u.boot.inReset = false) && (decide (u.listen.boundaryAt ≠ some u.stb) && (let x : State := runStages a (recordFrame a { u with listen := { u.listen with boundaryAt := some u.stb } }); let y : State := closeAudio (serveAudio x); true))))
    && (let s : State := { tBase with stb := 6144001 }; let u : State := sweep s; decide (u.stb % 30720 ≠ 0))) = true := by decide +kernel

theorem meets_ListeningEvents_part2 :
    ((let s : State := { tBase with listen := { tBase.listen with stage1 := true, policy := { mode := 1, s1Threshold := 200 } } }; let score : Nat := 200; let u : State := sweep s; (listens u) && (decide (u.listen.priv = false) && ((u.listen.stage1) && ((domOn u 0x04) && (decide (u.listen.candidate = none) && (decide (u.listen.policy.s1Threshold ≤ score) && (let x : State := raiseAudio { u with listen := { u.listen with candidate := some u.stb, candAt := u.stb, candPolicy := u.listen.policy, workArea := natLe 2 score } }; true)))))))
    && (let s : State := { tBase with listen := { tBase.listen with stage1 := true, policy := { mode := 1, s1Threshold := 200 } } }; let score : Nat := 199; let u : State := sweep s; decide (score < u.listen.policy.s1Threshold))
    && (let s : State := { tBase with listen := { tBase.listen with candidate := some 6113280, candPolicy := { mode := 1, s2Threshold := 100 }, policy := { mode := 1 }, frames := [{ stamp := 6113280, fseq := 4, valid := 3 }] } }; let ver : Nat := 100; let spk : Nat := 0; let t : Nat := 6113280; let dir : Option Nat := some 359; let u : State := sweep s; (match u.listen.candidate with | some n => ((listens u) && ((domOn u 0x04) && (decide (t ≤ u.stb) && (decide (u.stb ≤ t + 460800) && (decide (u.stb ≤ n + 6144000) && (let p : ListenPolicy := u.listen.candPolicy; decide (p.s2Threshold ≤ ver) && (decide (p.spkProfile = 0 ∨ p.spkThreshold ≤ spk) && (let d : Nat := (if arrayHeard u then (match dir with | some d => if d < 360 then d else 0xFFFF | none => 0xFFFF) else 0xFFFF); true)))))))) | _ => false))
    && (let s : State := { tBase with listen := { tBase.listen with candidate := some 6113280, candPolicy := { mode := 1, s2Threshold := 100 }, policy := { mode := 1 }, frames := [{ stamp := 6113280, fseq := 4, valid := 3 }] } }; let ver : Nat := 99; let spk : Nat := 0; let t : Nat := 6113280; let u : State := sweep s; (match u.listen.candidate with | some n => ((listens u) && ((domOn u 0x04) && (decide (t ≤ u.stb) && (decide (u.stb ≤ t + 460800) && (decide (u.stb ≤ n + 6144000) && (let p : ListenPolicy := u.listen.candPolicy; decide ((ver < p.s2Threshold ∨ (p.spkProfile ≠ 0 ∧ spk < p.spkThreshold))))))))) | _ => false))
    && (let s : State := { tBase with listen := { tBase.listen with candidate := some 0 } }; let u : State := sweep s; (match u.listen.candidate with | some n => (decide (n + 6144000 ≤ u.stb)) | _ => false))
    && (let s : State := { tBase with listen := { tBase.listen with wakeDecided := some 6113280 } }; let u : State := sweep s; (match u.listen.wakeDecided with | some _ => (decide (u.listen.priv = false) && ((listens u))) | _ => false))
    && (let s : State := { tBase with listen := { tBase.listen with gateOpen := true, release := 5836800, wakePolicy := { releaseMax := 1 } } }; let u : State := sweep s; (u.listen.gateOpen) && (decide (u.listen.release + 307200 * (if u.listen.wakePolicy.releaseMax = 0 then 300 else u.listen.wakePolicy.releaseMax) ≤ u.stb)))) = true := by decide +kernel

theorem meets_WakesAndPoliciesTakeEffect :
    ((let s : State := { tBase with listen := { tBase.listen with gateOpen := true } }; (listens s) && (decide (s.listen.priv = false) && ((wakeUnderWay s))))
    && (let s : State := tBase; let src : WakeSource := .phrase; let r : Nat := 6113280; let d : Nat := 5; let p : ListenPolicy := {}; (listens s) && (decide (s.listen.priv = false) && (decide (wakeUnderWay s = false) && (let x : State := { s with listen := { dropBefore r s.listen with wakeId := s.listen.wakeId + 1, lastSource := src, wakePending := true, wakeDecided := some r, release := r, candidate := none, closedAt := if s.listen.candidate.isSome then some s.stb else s.listen.closedAt, wokeAt := some s.stb, stage3 := true, wakePolicy := p, direction := d, overMain := 0, over48 := 0, start48 := 0, endOfTurnAt := none, closeDue := false } }; true))))
    && (let s : State := tBase; let c : Cmd := { id := 0, fn := .pf0, op := .listenPolicy, pkt := tP [] }; (holdOver s c) && (decide (c.op = .listenPolicy)))
    && (let s : State := tBase; let c : Cmd := { id := 0, fn := .pf0, op := .wakeArm, pkt := tP [] }; (holdOver s c) && (decide (c.op = .wakeArm) && (decide (arg c 25 1 &&& s.listen.policy.sources.toNat = arg c 25 1))))
    && (let s : State := { tBase with listen := { tBase.listen with candidate := some 6113280 } }; let c : Cmd := { tCopyCmd with op := .wakeArm, startStamp := 6143999 }; decide (holdOver s c = false))
    && (let s : State := { tBase with listen := { tBase.listen with gateOpen := true } }; decide (s.listen.candidate = none) && (decide (s.listen.closedAt ≠ some s.stb)))
    && (let s : State := { tBase with listen := { tBase.listen with candidate := some 6113280 } }; let c : Cmd := { tCopyCmd with op := .wakeArm, startStamp := 6143999 }; let t : Nat := 6113280; decide (s.listen.candidate = some t) && (decide (s.listen.candAt ≤ c.startStamp) && (decide (s.stb < c.startStamp + 6144000))))) = true := by decide +kernel

theorem meets_CameraEvents_part1 :
    ((let s : State := { tCam with cam0 := { tCam.cam0 with armedRx := true } }; let port : Nat := 0; let k : CsiPacket := { vc := 0, dataType := 0x2B }; let u : State := sweep s; (camRuns u port) && (let x : Cam := camOf u port; (x.armedRx) && (decide (k.dataType ≠ 2) && (decide (k.dataType ≠ 3) && (decide (k.ecc ≠ .bad) && (decide (x.inFrame = false)))))))
    && (let s : State := { tCam with cam0 := { tCam.cam0 with armedRx := true, inFrame := true } }; let port : Nat := 0; let k : CsiPacket := { vc := 0, dataType := 0x2B, ecc := .bad }; let u : State := sweep s; (camRuns u port) && (let x : Cam := camOf u port; (x.armedRx) && (decide (k.dataType ≠ 2) && (decide (k.dataType ≠ 3) && (decide (k.ecc = .bad))))))
    && (let s : State := { tCam with cam0 := { tCam.cam0 with armedRx := true, inFrame := true } }; let port : Nat := 0; let k : CsiPacket := { vc := 0, dataType := 0x2B }; let u : State := sweep s; (camRuns u port) && (let x : Cam := camOf u port; (x.armedRx) && (decide (k.dataType ≠ 2) && (decide (k.dataType ≠ 3) && (decide (k.dataType ≠ 0x12) && (decide (k.ecc ≠ .bad) && ((x.inFrame) && (let y : Cam := (if k.ecc = .corrected then { x with eccCorrected := x.eccCorrected + 1 } else x); decide (k.dataType = x.cfg.dataType) && ((match (List.range x.cfg.exposures).find? (fun i => vcOf x i == k.vc) with | some _ => (true) | _ => false))))))))))
    && (let s : State := { tCam with cam0 := { tCam.cam0 with armedRx := true, inFrame := true } }; let port : Nat := 0; let k : CsiPacket := { vc := 0, dataType := 0x12, data := [1] }; let u : State := sweep s; (camRuns u port) && (let x : Cam := camOf u port; (x.armedRx) && (decide (k.dataType = 0x12) && (decide (k.ecc ≠ .bad) && ((x.inFrame) && (let y : Cam := (if k.ecc = .corrected then { x with eccCorrected := x.eccCorrected + 1 } else x); decide (vcOf x 3 = k.vc)))))))
    && (let s : State := { tCam with cam0 := { tCam.cam0 with armedRx := true, inFrame := true } }; let port : Nat := 0; let k : CsiPacket := { dataType := 0x2A }; let u : State := sweep s; (camRuns u port) && (let x : Cam := camOf u port; (x.armedRx) && (decide (k.dataType ≠ 2) && (decide (k.dataType ≠ 3) && (decide (k.ecc ≠ .bad) && ((x.inFrame) && (let y : Cam := (if k.ecc = .corrected then { x with eccCorrected := x.eccCorrected + 1 } else x); decide ((k.dataType = 0x12 ∧ vcOf x 3 ≠ k.vc) ∨ (k.dataType ≠ 0x12 ∧ (k.dataType ≠ x.cfg.dataType ∨ (List.range x.cfg.exposures).find? (fun i => vcOf x i == k.vc) = none))))))))))
    && (let s : State := { tCam with cam0 := { tCam.cam0 with armedRx := true } }; let port : Nat := 0; let vc : Nat := 3; let ecc : HeaderEcc := .ok; let u : State := sweep s; (camRuns u port) && (let x : Cam := camOf u port; (x.armedRx) && (decide (vc < 4) && (decide (ecc ≠ .bad) && (decide ((List.range x.cfg.exposures ++ [3]).any (fun i => vcOf x i == vc) = false))))))
    && (let s : State := { tCam with cam0 := { tCam.cam0 with armedRx := true } }; let port : Nat := 0; let vc : Nat := 3; let u : State := sweep s; (camRuns u port) && (let x : Cam := camOf u port; (x.armedRx) && (decide (vc < 4))))
    && (let s : State := { tCam with cam0 := { tCam.cam0 with armedRx := true, cfg := { tCamCfg with exposures := 2, vcMap := 4 } } }; let port : Nat := 0; let vc : Nat := 1; let ecc : HeaderEcc := .ok; let u : State := sweep s; (camRuns u port) && (let x : Cam := camOf u port; (x.armedRx) && (decide (vc < 4) && (decide (ecc ≠ .bad) && (((List.range x.cfg.exposures ++ [3]).any (fun i => vcOf x i == vc)) && (decide (vc ≠ vcOf x 0)))))))
    && (let s : State := { tCam with cam0 := { tCam.cam0 with armedRx := true } }; let port : Nat := 0; let ecc : HeaderEcc := .corrected; let u : State := sweep s; (camRuns u port) && (let x : Cam := camOf u port; (x.armedRx) && (decide (ecc ≠ .bad) && (let vc : Nat := vcOf x 0; decide (vc < 4) && (((List.range x.cfg.exposures ++ [3]).any (fun i => vcOf x i == vc)) && (let y : State := updCam u port (fun x => shortEcc x ecc); let z : State := gateAtStart (if x.inFrame then endFrame y port true else y) port; true))))))
    && (let s : State := { tCam with cam0 := { tCam.cam0 with armedRx := true, inFrame := true } }; let port : Nat := 0; let ecc : HeaderEcc := .ok; let u : State := sweep s; (camRuns u port) && (((camOf u port).armedRx) && (decide (ecc ≠ .bad) && (let v : State := updCam u port (fun x => shortEcc x ecc); ((camOf v port).inFrame)))))
    && (let s : State := { tCam with cam0 := { tCam.cam0 with armedRx := true } }; let port : Nat := 0; let u : State := sweep s; (camRuns u port) && (((camOf u port).armedRx)))
    && (let s : State := { tCam with cam0 := { tCam.cam0 with armedRx := true } }; let port : Nat := 0; let u : State := sweep s; (camRuns u port) && (((camOf u port).armedRx) && (decide ((camOf u port).stalled = false) && (decide ((camOf u port).lastStart + ceilDiv (4 * 3072000) (max 1 (camOf u port).cfg.fpsMax) ≤ u.stb)))))) = true := by decide +kernel

theorem meets_CameraEvents_part2 :
    ((let s : State := { tCam with cam0 := { tCam.cam0 with cfg := { tCamCfg with syncMode := 1, syncPeriod := 102400 } } }; let port : Nat := 0; let u : State := sweep s; (camRuns u port) && (let x : CamConfig := (camOf u port).cfg; decide (x.syncMode = 1) && (decide (u.stb % x.syncPeriod = x.syncPhase))))
    && (let s : State := { tCam with cam0 := { tCam.cam0 with initAt := some 6143999 } }; let port : Nat := 0; let u : State := sweep s; (camRuns u port) && (let x : Cam := camOf u port; (match x.initAt with | some n => (decide (n ≤ u.stb)) | _ => false)))
    && (let s : State := { tCam with cam0 := { tCam.cam0 with onBus := true, initLeft := [{ reg := 1, wait := 0, data := [1] }] } }; let port : Nat := 0; let u : State := sweep s; (camRuns u port) && (((camOf u port).onBus) && (let x : Cam := { camOf u port with onBus := false }; (match x.initLeft with | _ :: _ => (true) | _ => false))))
    && (let s : State := { tCam with cam0 := { tCam.cam0 with onBus := true, writes := [{ kind := 1, value := [16], writeFrame := 2, effect := 4, paramId := 1, cmd := 1, seq := 0, tries := 0 }] } }; let port : Nat := 0; let u : State := sweep s; (camRuns u port) && (((camOf u port).onBus) && (let x : Cam := { camOf u port with onBus := false }; decide (x.initLeft = []) && ((match dueWrite x with | some _ => (true) | _ => false)))))
    && (let w : CamWrite := { kind := 1, value := [16], writeFrame := 2, effect := 4, paramId := 1, cmd := 1, seq := 0, tries := 1 }; decide (w.tries < 2))
    && (let s : State := { tCam with cmds := [{ tCopyCmd with op := .cameraParams }] }; let w : CamWrite := { kind := 1, value := [16], writeFrame := 2, effect := 4, paramId := 1, cmd := 1, seq := 0, tries := 2 }; decide (2 ≤ w.tries) && ((match cmdOf s w.cmd with | some _ => (true) | _ => false)))
    && (let s : State := { tCam with cam0 := { tCam.cam0 with stage1 := true, presFrame := some [1], presenceThreshold := 50 } }; let port : Nat := 0; let score : Nat := 49; let att : Nat := 3; let faces : Nat := 255; let u : State := sweep s; (camRuns u port) && (((camOf u port).stage1) && ((listens u) && ((domOn u 0x04) && (((camOf u port).presFrame.isSome) && (decide (att ≤ 3) && (decide (faces ≤ 255) && (let x : Cam := { camOf u port with presFrame := none }; decide (score < x.presenceThreshold)))))))))
    && (let s : State := { tCam with cam0 := { tCam.cam0 with stage1 := true, presFrame := some [1], presenceThreshold := 50, cascadeTop := 2, autoRelease := true } }; let port : Nat := 0; let score : Nat := 50; let att : Nat := 3; let faces : Nat := 255; let u : State := sweep s; (camRuns u port) && (((camOf u port).stage1) && ((listens u) && ((domOn u 0x04) && (((camOf u port).presFrame.isSome) && (decide (att ≤ 3) && (decide (faces ≤ 255) && (let x : Cam := { camOf u port with presFrame := none }; decide (x.presenceThreshold ≤ score) && (decide (2 ≤ x.cascadeTop) && ((x.autoRelease) && ((ownsCoppice u .pf0 x.attendCoppice) && (let v : State := setCam u port { x with presLow := none, stage2 := true, attn := if attends u x then att else 0, faces := if attends u x then faces else 0, openDue := x.openDue || !x.gateOpen || x.closeDue, openDueStage2 := if x.openDue then x.openDueStage2 else true }; true))))))))))))
    && (let s : State := { tCam with cam0 := { tCam.cam0 with stage1 := true, presFrame := some [1], presenceThreshold := 50 } }; let port : Nat := 0; let score : Nat := 50; let att : Nat := 3; let faces : Nat := 255; let u : State := sweep s; (camRuns u port) && (((camOf u port).stage1) && ((listens u) && ((domOn u 0x04) && (((camOf u port).presFrame.isSome) && (decide (att ≤ 3) && (decide (faces ≤ 255) && (let x : Cam := { camOf u port with presFrame := none }; decide (x.presenceThreshold ≤ score) && (decide ((x.cascadeTop < 2 ∨ x.autoRelease = false ∨ ownsCoppice u .pf0 x.attendCoppice = false)))))))))))
    && (let s : State := { tCam with cam0 := { tCam.cam0 with armedRx := true } }; let port : Nat := 0; let u : State := sweep s; (camRuns u port) && (decide ((camOf u port).stage1 = false)))
    && (let s : State := { tCam with cam0 := { tCam.cam0 with gateOpen := false, stage1 := true, motionLow := some 0 }, listen := { tCam.listen with stage1 := true } }; let port : Nat := 0; let u : State := sweep s; (camRuns u port) && (let x : Cam := camOf u port; (x.stage1) && ((heldFor u x x.motionLow) && (decide (x.gateOpen = false) && (let v : State := setCam u port { x with stage1 := false, stage2 := false, attn := 0, faces := 0, presTake := false, presFrame := none }; true)))))
    && (let s : State := { tCam with cam0 := { tCam.cam0 with gateStage2 := true, presLow := some 0 } }; let port : Nat := 0; let u : State := sweep s; (camRuns u port) && (let x : Cam := camOf u port; decide (x.stage1 = false) && ((x.gateOpen) && ((x.gateStage2) && ((heldFor u x x.presLow))))))) = true := by decide +kernel

theorem meets_MemoryEvents_part1 :
    ((let s : State := tBase; let line : Nat := 5; let u : State := sweep s; (groupRuns u (line * 64 / groupSize)) && (decide (u.fault.injections = [])))
    && (let s : State := tBase; let line : Nat := 5; let u : State := sweep s; (groupRuns u (line * 64 / groupSize)) && (decide (u.fault.injections = []) && (let x : State := { u with dram := { u.dram with scrubPos := line, corrected := if line < u.dram.scrubPos then [] else u.dram.corrected } }; true)))
    && (let s : State := tBase; let line : Nat := 5; let u : State := sweep s; (groupRuns u (line * 64 / groupSize)) && (decide (u.fault.injections = []) && (let x : State := { u with dram := { u.dram with scrubPos := line, corrected := if line < u.dram.scrubPos then [] else u.dram.corrected } }; let ch : Nat := channelOf u (line * 64); let r : Nat := rankOf u (line * 64); let y : State := correctedLine x (line * 64) 5 (capture x); let l : List (Nat × Nat × Nat) := y.dram.corrected; let n : Nat := (match l.find? (fun e => e.1 == ch && e.2.1 == r) with | some e => e.2.2 + 1 | none => 1); let z : State := { y with dram := { y.dram with corrected := (ch, r, n) :: l.filter (fun e => !(e.1 == ch && e.2.1 == r)) } }; true)))
    && (let s : State := { tBase with fault := { tBase.fault with injections := [{ target := 0x11, unit := channelOf tBase 320, bits := 1, address := 0, cmd := 1 }] } }; let line : Nat := 5; let u : State := sweep s; (groupRuns u (line * 64 / groupSize)) && (let x : State := { u with dram := { u.dram with scrubPos := line, corrected := if line < u.dram.scrubPos then [] else u.dram.corrected } }; (match u.fault.injections.find? (fun i => i.target == 0x11 && i.unit == channelOf u (line * 64) && (i.address == 0 || offOf i.address.toNat / 64 == line)) with | some i => (let y : State := fireInjection x i (captureAt (capture x 0x11 (channelOf u (line * 64)) (if i.bits = 1 then 0 else 1)) 2 (line * 64) 5); true) | _ => false)))
    && (let s : State := { tBase with dram := { tBase.dram with groupsUp := 0 }, power := { tBase.power with selfRefresh := 15 } }; let line : Nat := 5; let u : State := sweep s; decide (groupRuns u (line * 64 / groupSize) = false))
    && (let s : State := { tBase with dram := { tBase.dram with migrations := [{ ch := 1, rank := 0, spare := 0, spareRank := 0, watermark := 0 }] } }; let ch : Nat := 1; let rank : Nat := 0; let u : State := sweep s; (match u.dram.migrations.find? (fun m => m.ch == ch && m.rank == rank) with | some m => ((groupRuns u (ch / 8)) && (decide (m.watermark + 1 ≠ 15872))) | _ => false))
    && (let s : State := { tBase with dram := { tBase.dram with migrations := [{ ch := 1, rank := 0, spare := 0, spareRank := 0, watermark := 15871 }] } }; let ch : Nat := 1; let rank : Nat := 0; let u : State := sweep s; (match u.dram.migrations.find? (fun m => m.ch == ch && m.rank == rank) with | some m => ((groupRuns u (ch / 8)) && (decide (m.watermark + 1 = 15872))) | _ => false))
    && (let s : State := { tBase with dram := { tBase.dram with migrations := [{ ch := 1, rank := 0, spare := 0, spareRank := 0, watermark := 7 }] } }; let ch : Nat := 1; let rank : Nat := 0; let bad : List Nat := [5]; let u : State := sweep s; (match u.dram.migrations.find? (fun m => m.ch == ch && m.rank == rank) with | some m => ((groupRuns u (ch / 8)) && (let x : State := (bad.filter (fun l => channelOf u (l * 64) == ch && rankOf u (l * 64) == rank && unitOfRank u (l * 64) == m.watermark)).foldl (fun s l => badLine s (l * 64) 0 (capture s)) u; true)) | _ => false))
    && (let s : State := tBase; let u : State := sweep s; true)
    && (let s : State := tBase; let ch : Nat := 31; let r : Nat := 1; let u : State := sweep s; (groupRuns u (ch / 8)) && (decide (ch < 32) && (decide (r < 2))))
    && (let s : State := tBase; let ch : Nat := 31; let r : Nat := 1; let u : State := sweep s; (groupRuns u (ch / 8)) && (decide (ch < 32) && (decide (r < 2) && (let x : State := startRetire (raise u (capture u 0x12 ch 0)) ch r; true))))
    && (let s : State := { tBase with dram := { tBase.dram with migrations := [{ ch := 1, rank := 0, spare := 0, spareRank := 0, watermark := 0 }] } }; let ch : Nat := 1; let u : State := sweep s; (groupRuns u (ch / 8)) && (decide (ch < 32)))) = true := by decide +kernel

theorem meets_MemoryEvents_part2 :
    ((let s : State := { tBase with dram := { tBase.dram with spare0 := { rank0 := some (1, 0), owner := some .pf0, retraining := true } } }; let ch : Nat := 1; let u : State := sweep s; (match (List.range 2).find? (fun i => (spareOf u i).retraining && (spareOf u i).rank0 == some (ch, 0)) with | some _ => (decide (u.dram.migrations.any (fun m => m.ch == ch && m.retraining) = false)) | _ => false))
    && (let s : State := { tBase with nand := [{ inService := true, sparePermille := 0 }] }; let ch : Nat := 0; (nandPresent s ch) && (((nandCh s ch).inService)))
    && (let s : State := { tBase with nand := [{ inService := true, sparePermille := 0 }] }; let ch : Nat := 0; let block : Nat := 3; let u : State := sweep s; (nandPresent u ch) && (((nandCh u ch).inService) && (decide ((nandCh u ch).retired.contains block = false) && (decide ((nandCh u ch).readOnly = false) && (let left : Nat := min (nandCh u ch).sparePermille (Config.freeNat u.freeCtr); decide (left < 10) && (let x : State := updNand (bumpFree u) ch (fun x => { x with retired := x.retired ++ [block], sparePermille := left, readOnly := true }); true))))))
    && (let s : State := { tBase with regs := { tBase.regs with clearing := 0x101 } }; let u : State := sweep s; decide (u.regs.clearing ≠ 0) && (decide (u.boot.inReset = false) && (let x : State := (maskList (bits u.regs.clearing.toNat 11 8)).foldl clearNand ((maskList (bits u.regs.clearing.toNat 7 4)).foldl clearGroup ((maskList (u.regs.clearing.toNat % 16)).foldl clearCoppice u)); true)))) = true := by decide +kernel

theorem meets_PowerEvents_part1 :
    ((let s : State := tBase; let d : Nat := 0x20; let t : Nat := 6143999; let u : State := sweep s; (gorseRuns u) && ((domPresent u.fuse.part d) && (decide (t ≤ u.stb) && (decide (d < 0x10 ∨ u.dlink.trained = true)))))
    && (let s : State := tBase; let t : Nat := 6144001; let u : State := sweep s; decide (u.stb < t))
    && (let s : State := tBase; let d : Nat := 0x20; let t : Nat := 6143999; let u : State := sweep s; (gorseRuns u) && ((domPresent u.fuse.part d) && (decide (t ≤ u.stb) && (decide (d < 0x10 ∨ u.dlink.trained = true)))))
    && (let s : State := tBase; let d : Nat := 0x20; let u : State := sweep s; (gorseRuns u) && ((domPresent u.fuse.part d) && (decide ((domOf u d).busy = false) && (decide ((domOf u d).expiredAt = none) && ((match timerOf (domOf u d) with | some (n, t) => (decide (t ≤ u.stb) && (decide (n ≤ (domOf u d).ceiling))) | _ => false))))))
    && (let s : State := updDom tBase 0x20 (fun x => { x with busy := true }); let d : Nat := 0x20; let u : State := sweep s; ((domOf u d).busy))
    && (let s : State := updDom tBase 0x20 (fun x => { x with expiredAt := some 6143992 }); let d : Nat := 0x20; let u : State := sweep s; (match (domOf u d).expiredAt with | some e => ((match timerOf (domOf u d) with | some (_, _) => (decide (e + 8 ≤ u.stb) && ((gorseRuns u) && (decide (u.fault.haltGorse = false) && (decide (d < 0x10 ∨ u.dlink.trained = true))))) | _ => false)) | _ => false))
    && (let s : State := { updDom tBase 0x20 (fun x => { x with expiredAt := some 6143992 }) with dlink := { tBase.dlink with trained := false } }; let d : Nat := 0x20; let u : State := sweep s; (match (domOf u d).expiredAt with | some e => ((match timerOf (domOf u d) with | some (_, _) => (decide (e + 8 ≤ u.stb) && ((gorseRuns u) && (decide (u.fault.haltGorse = false) && (decide (0x10 ≤ d) && (decide (u.dlink.trained = false)))))) | _ => false)) | _ => false))
    && (let s : State := updDom tBase 0x20 (fun x => { x with state := .entering, target := 1, entryAt := 6143992 }); let d : Nat := 0x20; let u : State := sweep s; decide ((domOf u d).state = .entering) && (decide ((domOf u d).stopped = false) && (decide ((domOf u d).entryAt + 8 ≤ u.stb) && (decide (d ≠ domCtrl)))))
    && (let s : State := updDom tBase 0x10 (fun x => { x with state := .entering, target := 1, entryAt := 6143992 }); let u : State := sweep s; decide ((domOf u domCtrl).state = .entering) && (decide ((domOf u domCtrl).stopped = false) && (decide ((domOf u domCtrl).entryAt + 8 ≤ u.stb) && (decide (u.custody.state = .granted)))))
    && (let s : State := updDom tBase 0x20 (fun x => { x with state := .entering, target := 1, entryAt := 6143992, stopped := true }); let d : Nat := 0x20; let u : State := sweep s; decide ((domOf u d).state = .entering) && (((domOf u d).stopped) && (decide ((domOf u d).byHost = none) && (let x : State := traceDomain (updDom u d (fun x => { bookTime u x with state := if x.target = 2 then .off else .ret, entries := x.entries + 1, stopped := false, fromRet := false, byHost := none })) d; true))))
    && (let s : State := { updDom tBase 0x20 (fun x => { x with state := .entering, target := 1, entryAt := 6143992, stopped := true, byHost := some 1 }) with cmds := [{ tCopyCmd with op := .domainPolicy, phase := .parked .domain, aux := 3, pkt := tP [(24, 1, 0x20)] }] }; let d : Nat := 0x20; let u : State := sweep s; decide ((domOf u d).state = .entering) && (((domOf u d).stopped) && ((match (domOf u d).byHost with | some n => (let x : State := traceDomain (updDom u d (fun x => { bookTime u x with state := if x.target = 2 then .off else .ret, entries := x.entries + 1, stopped := false, fromRet := false, byHost := none })) d; let y : State := entered x d (domOf u d).target; (match cmdOf y n with | some _ => (true) | _ => false)) | _ => false))))
    && (let s : State := updDom tBase 1 (fun x => { x with state := .returning }); let d : Nat := 1; let u : State := sweep s; decide ((domOf u d).state = .returning) && ((gorseRuns u) && (decide (badRetained u (domOf u d) = false) && (decide (d < 0x10) && (let x : State := traceDomain (updDom u d (fun x => { bookTime u x with state := .on, target := 0, idleAt := u.stb, expiredAt := none })) d; true)))))) = true := by decide +kernel

theorem meets_PowerEvents_part2 :
    ((let s : State := updDom tBase 0x20 (fun x => { x with state := .returning }); let d : Nat := 0x20; let u : State := sweep s; decide ((domOf u d).state = .returning) && ((gorseRuns u) && (decide (badRetained u (domOf u d) = false) && (decide (0x10 ≤ d) && (let x : State := traceDomain (updDom u d (fun x => { bookTime u x with state := .on, target := 0, idleAt := u.stb, expiredAt := none })) d; true)))))
    && (let s : State := { updDom tBase 0x10 (fun x => { x with state := .returning, target := 2 }) with power := { (updDom tBase 0x10 (fun x => { x with state := .returning, target := 2 })).power with fwRetained := true }, store := { tBase.store with poison := [reserveBase 0 / 64] } }; let d : Nat := 0x10; let u : State := sweep s; decide ((domOf u d).state = .returning) && ((gorseRuns u) && ((badRetained u (domOf u d)) && (let x : State := { u with power := { u.power with fwRetained := false }, store := { u.store with poison := u.store.poison.filter (fun l => !retainedLine l) } }; true))))) = true := by decide +kernel

theorem meets_WorkEvents_part1 :
    ((let s : State := tWork; let fn : Fn := .pf0; let id : Nat := 5; let u : State := sweep s; (match modelOf u fn id with | some m => (decide ((mayRelease u fn m = false ∨ builtCoppices u fn id [] = []))) | _ => false))
    && (let s : State := { tParted with work := { tParted.work with slots := [{ tSlot with cmd := 7 }] } }; let fn : Fn := .pf1; let id : Nat := 5; let u : State := sweep s; (match modelOf u fn id with | some m => ((mayRelease u fn m) && (decide (builtCoppices u fn id [] ≠ []) && ((match (candidates u fn id).foldl (buildSlot m (policyOf u fn id)) (u, [], 0) with | (_, [], _) => (true) | _ => false)))) | _ => false))
    && (let s : State := tParted; let fn : Fn := .pf1; let id : Nat := 5; let u : State := sweep s; (match modelOf u fn id with | some m => ((mayRelease u fn m) && (decide (builtCoppices u fn id [] ≠ []) && ((match (candidates u fn id).foldl (buildSlot m (policyOf u fn id)) (u, [], 0) with | (w, ms, n) => (decide (ms ≠ []) && (let cops : List Nat := builtCoppices w fn id ms; let t : Step := { fn := fn, model := id, release := ctrlStamp w, members := ms, cls := ((ms.filterMap (fun k => (w.work.slots.find? (fun x => x.num == k.slot)).map (·.effCls))).min?).getD 3, coppices := BitVec.ofNat 4 (cops.map (2 ^ ·)).sum, est := max 1 (Config.soloEstimate m.image ms.length n cops.length) }; let x : State := { w with work := { w.work with steps := w.work.steps ++ [t] } }; let y : State := cops.foldl (takeWays t) (w.work.steps.foldl (preemptStep t) x); let z : State := demandWork y fn (stepDoms y t); true)))))) | _ => false))
    && (let s : State := tScan; let id : Nat := 1; let u : State := sweep s; (match cmdOf u id with | some c => ((match stepWith u id with | some (t, b) => ((match streamOf u t.fn b.handle with | some x => ((match modelOf u t.fn t.model with | some m => (decide (c.op = .streamChunk) && (decide (c.cnt < c.first + b.n) && (decide (u.fault.integrity = false) && (decide (u.custody.quiescing = false) && ((allOn u (t.cops.map domCop)) && (decide (u.fault.injections = []) && (decide (inputErr u (descAt c.pkt.block 64) c.cnt (c.cnt + (scanChunk c m.chunk c.cnt).1) = none) && (decide (statePoisoned u x = false))))))))) | _ => false)) | _ => false)) | _ => false)) | _ => false))
    && (let s : State := { tParted with work := { tParted.work with admitted := [{ cut := { work := .step .pf1 5 } }], steps := [tStep] } }; let fn : Fn := .pf1; let id : Nat := 5; let u : State := sweep s; (match stepOf u fn id with | some t => (decide (stepDone u t = false)) | _ => false))
    && (let s : State := { tParted with work := { tParted.work with steps := [tStep] } }; let fn : Fn := .pf1; let id : Nat := 5; let u : State := sweep s; (match stepOf u fn id with | some t => (decide (u.fault.integrity = false) && (decide (u.custody.quiescing = false) && ((stepDone u t) && ((allOn u (t.cops.map domCop ++ memDomsOf u fn)) && (let ms : List Member := sortOn (·.slot) t.members; let v : State := clearChunks { u with work := { u.work with steps := u.work.steps.filter (fun x => !(x.fn == fn && x.model == id)) } } t; (match modelOf v fn id with | some m => (let x : State := setModel v { m with lastUse := ctrlStamp v }; (match (ms.filter (fun m => decide (m.kind = 1))).foldl (fun x m => commitSeq t m x) (x, t.freed ++ t.members.flatMap (fun m => m.frames)) with | (y, pool) => (let z : State := countUp (ms.foldl (fun s m => if m.kind = 2 then commitStream t m s else if m.kind = 3 then commitGraph t m s else s) (returnFrames y pool)) 0x0007 (if fn = .pf0 then 0 else 1) 1; true))) | _ => false)))))) | _ => false))
    && (let s : State := tWork; let u : State := sweep s; (laurelRuns u))
    && (let s : State := { tWithStream with cmds := [{ tChunkCmd with phase := .parked .slot }] }; let fn : Fn := .pf0; let u : State := sweep s; (match (sortOn (fun c => ((slotWant u c).map (·.1)).getD 4) (sortOn (·.startStamp) (u.cmds.filter (fun c => c.fn == fn && c.phase == .parked .slot)))).head? with | some c => ((match slotWant u c with | some (_, _, _, _) => (true) | _ => false)) | _ => false))
    && (let s : State := { tWithStream with work := { tWithStream.work with streams := [{ tStream with home := 3, prefetch := true, wide := 4096 }] } }; let h : Nat := 9; let u : State := sweep s; (match u.work.streams.find? (fun x => x.handle == h) with | some x => ((x.prefetch) && ((laurelRuns u) && (decide (u.custody.quiescing = false) && ((allOn u (domNand :: memDomsOf u x.fn)) && ((match modelOf u x.fn x.model with | some m => (decide (u.fault.injections = []) && (decide (statePoisoned u x = false) && (decide (frontChunk u x = none) && ((match placeState u m x false with | some (_, _, _) => (true) | _ => false))))) | _ => false)))))) | _ => false))
    && (let s : State := { tWithStream with cmds := [tChunkCmd], work := { tWithStream.work with streams := [{ tStream with home := 3, prefetch := true, wide := 4096 }] } }; let h : Nat := 9; let u : State := sweep s; (match u.work.streams.find? (fun x => x.handle == h) with | some x => ((x.prefetch) && ((laurelRuns u) && (decide (u.custody.quiescing = false) && ((allOn u (domNand :: memDomsOf u x.fn)) && ((match modelOf u x.fn x.model with | some m => (decide (u.fault.injections = []) && (decide (statePoisoned u x = false) && ((match frontChunk u x with | some c => ((match placeDemoting u m x (u.work.streams.length + 1) with | some (z, y, e) => ((match cmdOf z c.id with | some d => (let f : Cmd := { (d.warns e warnEvicted).warns y.narrow warnNarrow with misc := [d.misc.getD 0 0, max (d.misc.getD 1 0) (b2n y.narrow), d.misc.getD 2 0] }; true) | _ => false)) | _ => false)) | _ => false)))) | _ => false)))))) | _ => false))
    && (let s : State := { tWork with work := { tWork.work with models := [{ tModel with loading := true, resident := none }] } }; let fn : Fn := .pf0; let id : Nat := 5; let u : State := sweep s; (match modelOf u fn id with | some m => ((m.loading) && ((laurelRuns u) && ((allOn u (residencyDoms u m)) && (decide (u.fault.injections = []) && (let src : List Nat := (u.store.allocs.filter (fun a => a.fn == fn && a.tier == 3 && a.obj == 22 && a.owner == id)).map (·.base); let dst : List Nat := (u.store.allocs.filter (fun a => a.fn == fn && a.tier == 2 && a.obj == 20 && a.owner == id)).map (·.base); decide ((loadRanges u m src).any (fun r => (firstPoison u 3 r.2.1 r.2.2).isSome) = false) && (let v : State := copyPieces u m src dst; true)))))) | _ => false))
    && (let s : State := { tWork with work := { tWork.work with models := [{ tModel with loading := true, resident := none, image := [1] }] }, store := { tWork.store with allocs := [{ fn := .pf0, session := 1, tier := 3, base := 0, size := 65536, obj := 22, owner := 5 }], poisonUnits := [0] } }; let fn : Fn := .pf0; let id : Nat := 5; let u : State := sweep s; (match modelOf u fn id with | some m => ((m.loading) && ((laurelRuns u) && ((allOn u (residencyDoms u m)) && (decide (u.fault.injections = []) && (let src : List Nat := (u.store.allocs.filter (fun a => a.fn == fn && a.tier == 3 && a.obj == 22 && a.owner == id)).map (·.base); ((loadRanges u m src).any (fun r => (firstPoison u 3 r.2.1 r.2.2).isSome)) && (let v : State := dropAllocs (setModel u { m with loading := false }) fn [20] id; true)))))) | _ => false))) = true := by decide +kernel

theorem meets_WorkEvents_part2 :
    ((let s : State := { tBase with fw := { tBase.fw with activating := some 3 } }; let ok : Bool := true; let u : State := sweep s; (match u.fw.activating with | some i => (decide (u.boot.inReset = false) && (let f : FwImage := { runningOf u i with valid := ok }; let x : State := { u with fw := { u.fw with activating := none, norState := u.fw.norState.set (i - 1) (if ok then 0 else 2), nor := u.fw.nor.map (fun g => if g.component = i then f else g) } }; true)) | _ => false))) = true := by decide +kernel

theorem meets_MembersCommitWithTheirStep :
    ((let t : Step := { tStep with fn := .pf0 }; let m : Member := { slot := 0, kind := 2, handle := 9, cmd := 1, n := 2 }; let s : State := tScan; (match cmdOf s m.cmd with | some _ => ((match streamOf s t.fn m.handle with | some q => (let u : State := setStream s { q with lastRun := ctrlStamp s }; true) | _ => false)) | _ => false))
    && (let t : Step := tStep; let m : Member := { slot := 0, kind := 3, handle := 0, cmd := 1, n := 1 }; let s : State := tParted; (match cmdOf s m.cmd with | some c => (decide (s.fault.injections = []) && (decide (memberBad s c m = none) && ((match modelOf s t.fn t.model with | some _ => (decide (c.op ≠ .trainStep) && (let w : State := (memberOuts c m).zipIdx.foldl (fun s o => commitOut s c o.2 o.1.1 o.1.2) s; true)) | _ => false)))) | _ => false))
    && (let t : Step := { tStep with fn := .pf0 }; let m : Member := { slot := 0, kind := 3, handle := 0, cmd := 1, n := 1 }; let s : State := tNext (.trainStep (tCtx (tPB 256 ([(0, 2, 1), (2, 2, 5), (4, 2, 6), (7, 1, 1), (8, 4, 2)] ++ tDesc 64 0 1 [16, 2] ++ tDesc 128 0x1000 1 [16, 2] ++ tDesc 192 0x8000 5 [16, 2])))) { tWithSeq with work := { tWithSeq.work with models := [{ tModel with training := [tModel.inputs.getD 0 [], tModel.inputs.getD 0 [], tPut [(8, 2, 5)] (tModel.inputs.getD 0 [])] }, { tModel with id := 6 }] } }; (match cmdOf s m.cmd with | some c => (decide (s.fault.injections = []) && (decide (memberBad s c m = none) && ((match modelOf s t.fn t.model with | some _ => (decide (c.op = .trainStep)) | _ => false)))) | _ => false))
    && (let s : State := tNext (.trainStep (tCtx (tPB 256 ([(0, 2, 1), (2, 2, 5), (4, 2, 6), (7, 1, 1), (8, 4, 2)] ++ tDesc 64 0 1 [16, 2] ++ tDesc 128 0x1000 1 [16, 2] ++ tDesc 192 0x8000 5 [16, 2])))) { tWithSeq with work := { tWithSeq.work with models := [{ tModel with training := [tModel.inputs.getD 0 [], tModel.inputs.getD 0 [], tPut [(8, 2, 5)] (tModel.inputs.getD 0 [])] }, { tModel with id := 6 }] } }; let c : Cmd := tCmd (tNext (.trainStep (tCtx (tPB 256 ([(0, 2, 1), (2, 2, 5), (4, 2, 6), (7, 1, 1), (8, 4, 2)] ++ tDesc 64 0 1 [16, 2] ++ tDesc 128 0x1000 1 [16, 2] ++ tDesc 192 0x8000 5 [16, 2])))) { tWithSeq with work := { tWithSeq.work with models := [{ tModel with training := [tModel.inputs.getD 0 [], tModel.inputs.getD 0 [], tPut [(8, 2, 5)] (tModel.inputs.getD 0 [])] }, { tModel with id := 6 }] } }); let m : Model := tModel; let n : Nat := blk c 8 4; (match m.kv with | some g => (let per : Nat := layerDraws m.image g n; let grads : List (List (List (List U32))) := (List.range g.layers).map (fun l => layerBackward s m.image g ((trainPrefix s c).map (fun q => (q, c.aux))) l n (s.freeCtr + l * per)); let v : State := commitGrad { s with freeCtr := s.freeCtr + g.layers * per } c grads m.image; let rows : Nat := emptyRowsOf m.image g.layers c.aux (c.aux + n); true) | _ => false))
    && (let t : Step := { tStep with fn := .pf0 }; let m : Member := { slot := 0, kind := 1, handle := 9, cmd := 1, n := 2 }; let s : State := tNext (.seqAppend (tCtx (tPB 256 ([(0, 2, 1), (4, 4, 2), (8, 1, 2)] ++ tDesc 64 0 1 [16, 2])))) tWithSeq; let pool : List Nat := [5, 6]; (match cmdOf s m.cmd with | some c => ((match seqOf s t.fn m.handle with | some q => ((match modelOf s t.fn t.model with | some md => (decide (s.fault.injections = []) && (decide (memberBad s c m = none) && (decide (rangesPoisoned s (seqRanges s q) = false) && (let a : Nat := q.length; let b : Nat := a + m.n; let w : PageWork := (q.geom.lists.flatMap (fun l => ((List.range (ceilDiv b q.geom.tokens - a / q.geom.tokens)).map (a / q.geom.tokens + ·)).map (fun i => (l, i)))).foldl (commitPage a b) { s := s, pool := pool, q := q, cow := false }; let u : State := (memberOuts c m).foldl (fun s o => if o.1.present then commitOut s c 0 o.1 o.2 else s) (setSeq w.s { w.q with length := b, lastRun := ctrlStamp s }); let v : State := commitStats u c md c.cnt (c.cnt + m.n) a; let d : Cmd := { bookStep v (c.warns (emptyRowsOf md.image q.geom.layers a b != 0) warnEmptyRow) t with cnt := c.cnt + m.n, misc := [max (c.misc.headD 0) (b2n w.sat), max (c.misc.getD 1 0) (b2n w.cow)] }; true)))) | _ => false)) | _ => false)) | _ => false))
    && (let s : State := tBase; let c : Cmd := tCopyCmd; let v : State := progress (setCmd s c) c 0x0006 c.steps true; true)
    && (let s : State := tBase; let c : Cmd := tCopyCmd; let v : State := progress (setCmd s c) c 0x0006 c.steps true; true)) = true := by decide +kernel

theorem meets_TileCommandsCommit :
    ((let s : State := tBase; let t : WorkCut := tCut; let u : State := sweep s; decide (admittedAs u t false = none))
    && (let s : State := tBase; let t : WorkCut := tCut; let u : State := sweep s; decide (admittedAs u t true = none))
    && (let i : Instr := .tileCommandCommit tCut none; let e : Bool := false; let t : WorkCut := tCut; let up : Option Upset := none; let s : State := tTile; decide ((i, e) = (.tileCommandCommit t up, false) ∨ (i, e) = (.edgeCommandCommit t up, true)) && (let u : State := sweep s; (match admittedAs u t e with | some _ => (decide (u.fault.integrity = false) && (let k : Nat × Nat := checkerOf u t e; decide (armed u k.1 k.2 (fun _ => true) = none) && ((match tileEcc u t e with | (v, false) => ((match t.work with | .cmd id => ((match cmdOf u id with | some c => ((match jobOf u id with | some j => ((match probOf u c j with | some pr => (decide (cutFails pr j t up = false) && (let w : State := strikeCut v c j t e; (match probOf w c j with | some qr => (decide (cutBad qr t = none) && ((match commitCut (removeCut w t) pr j t with | (_, _) => (true)))) | _ => false))) | _ => false)) | _ => false)) | _ => false)) | _ => false)) | _ => false)))) | _ => false)))
    && (let i : Instr := .tileCommandCommit tCut (some { pass := 0, delta := 1 }); let e : Bool := false; let t : WorkCut := tCut; let up : Option Upset := (some { pass := 0, delta := 1 }); let s : State := tTile; decide ((i, e) = (.tileCommandCommit t up, false) ∨ (i, e) = (.edgeCommandCommit t up, true)) && (let u : State := sweep s; (match admittedAs u t e with | some _ => (decide (u.fault.integrity = false) && (let k : Nat × Nat := checkerOf u t e; (match t.work with | .cmd id => ((match cmdOf u id with | some c => ((match jobOf u id with | some j => ((match probOf u c j with | some pr => (decide ((armed u k.1 k.2 (fun _ => true)).isSome = true ∨ cutFails pr j t up = true)) | _ => false)) | _ => false)) | _ => false)) | _ => false))) | _ => false)))
    && (let i : Instr := .tileCommandCommit tCut none; let e : Bool := false; let t : WorkCut := tCut; let up : Option Upset := none; let s : State := { tTile with fault := { tTile.fault with injections := [{ target := 0x01, unit := 0, bits := 2, address := 0, cmd := 9 }] } }; decide ((i, e) = (.tileCommandCommit t up, false) ∨ (i, e) = (.edgeCommandCommit t up, true)) && (let u : State := sweep s; (match admittedAs u t e with | some _ => (decide (u.fault.integrity = false) && (let k : Nat × Nat := checkerOf u t e; decide (armed u k.1 k.2 (fun _ => true) = none) && ((match tileEcc u t e with | (_, true) => ((match t.work with | .cmd id => ((match cmdOf u id with | some c => ((match jobOf u id with | some j => ((match probOf u c j with | some pr => (decide (cutFails pr j t up = false)) | _ => false)) | _ => false)) | _ => false)) | _ => false)) | _ => false)))) | _ => false)))
    && (let i : Instr := .tileCommandCommit tCut none; let e : Bool := false; let t : WorkCut := tCut; let up : Option Upset := none; let s : State := { tTile with store := { tTile.store with poison := [0x100000 / 64] } }; decide ((i, e) = (.tileCommandCommit t up, false) ∨ (i, e) = (.edgeCommandCommit t up, true)) && (let u : State := sweep s; (match admittedAs u t e with | some _ => (decide (u.fault.integrity = false) && (let k : Nat × Nat := checkerOf u t e; decide (armed u k.1 k.2 (fun _ => true) = none) && ((match tileEcc u t e with | (v, false) => ((match t.work with | .cmd id => ((match cmdOf u id with | some c => ((match jobOf u id with | some j => ((match probOf u c j with | some pr => (decide (cutFails pr j t up = false) && (let w : State := strikeCut v c j t e; (match probOf w c j with | some qr => ((match cutBad qr t with | some _ => (true) | _ => false)) | _ => false))) | _ => false)) | _ => false)) | _ => false)) | _ => false)) | _ => false)))) | _ => false)))
    && (let s : State := { tParted with work := { tParted.work with steps := [tStep], admitted := [{ cut := { work := .step .pf1 5, coppice := 1 } }] } }; let t : WorkCut := { work := .step .pf1 5, coppice := 1 }; let up : Option Upset := none; let u : State := sweep s; (match admittedAs u t false with | some _ => (decide (u.fault.integrity = false) && (let k : Nat × Nat := checkerOf u t false; decide (armed u k.1 k.2 (fun _ => true) = none) && ((match tileEcc u t false with | (v, false) => ((match t.work with | .step fn m => (decide ((∀ z, up = some z → z.delta = 0)) && (let x : State := countCommit (removeCut v t) (traceOwner v t.work) false k.2 (Config.freeNat v.freeCtr) 0; (match stepOf v fn m with | some st => (decide (stepCutBad v st t = none)) | _ => false))) | _ => false)) | _ => false)))) | _ => false))
    && (let c : Cmd := tCmd tTile; let j : Job := { id := 1, total := 6 }; let d : Cmd := { c with res := jobResult c j, warn := c.warn ||| (if 0 < j.emptyRows then warnEmptyRow else 0) }; decide (j.poisoned = false))
    && (let s : State := tTile; let t : WorkCut := tCut; let a : Admitted := { cut := tCut, retried := true }; let src : Nat := 0x08; let unit : Nat := 0; (match t.work with | .cmd id => ((a.retried) && (let y : State := discardTrace (raiseAt s src unit (match cmdOf s id with | some c => captureCmd s c src unit 1 | none => capture s src unit 1)) a 6; let x : State := bumpFree (if a.edge then y else countUp (countUp y 0x0005 unit 1) 0x0003 unit (Config.freeNat y.freeCtr)); decide (x.fault.haltLaurel = false))) | _ => false))
    && (let a : Admitted := { cut := tCut }; decide (a.retried = false))) = true := by decide +kernel

theorem meets_ControlBlocksJoinAndRepair_part1 :
    ((let s : State := tGroup; let u : State := sweep s; decide (u.group.state ≠ 0) && ((laurelRuns u)))
    && (let s : State := tBase; let u : State := sweep s; decide (u.group.state = 0))
    && (let s : State := tGroup; let w : Nat := 1; let b : ControlBlock := { groupId := 9, writer := 1, pstate := 2 }; let u : State := sweepOld s; (laurelRuns u) && ((match peerOf u w with | some p => (let q : Peer := takeBlock u p b; true) | _ => false)))
    && (let s : State := tGroup; let w : Nat := 2; let u : State := sweepOld s; (laurelRuns u) && (decide (peerOf u w = none)))
    && (let s : State := tGroup; let w : Nat := 1; let h : SlotHeader := { pseq := 4, dstFmt := 1 }; let d : List Byte := natLe 16 16 ++ [1]; let u : State := sweepOld s; (laurelRuns u) && ((match peerOf u w with | some p => ((p.present) && (decide (p.broken = false) && (decide (h.pseq = p.rxNext) && (decide ((crc32c d = h.ucrc → h.dstOff + unitSpan h.dstFmt d ≤ p.rxLen)))))) | _ => false)))
    && (let s : State := tGroup; let w : Nat := 1; let h : SlotHeader := { pseq := 5, dstFmt := 1 }; let d : List Byte := [1]; let u : State := sweepOld s; (laurelRuns u) && ((match peerOf u w with | some p => ((p.present) && (decide (p.broken = false) && (decide (h.pseq ≠ p.rxNext ∨ (crc32c d = h.ucrc ∧ p.rxLen < h.dstOff + unitSpan h.dstFmt d))))) | _ => false)))
    && (let s : State := { tGroup with group := { tGroup.group with peers := [{ tPeer with broken := true }] } }; let w : Nat := 1; let u : State := sweepOld s; (laurelRuns u) && ((match peerOf u w with | some p => ((p.present) && ((p.broken))) | _ => false)))
    && (let s : State := tGroup; let w : Nat := 2; let u : State := sweepOld s; (laurelRuns u) && (decide ((peerOf u w).filter (·.present) = none)))
    && (let s : State := tGroup; let p : Peer := tPeer; let h : SlotHeader := { pseq := 4, dstFmt := 1, ucrc := crc32c (wireUnit 0 1 [1]) }; let d : List Byte := wireUnit 0 1 [1]; decide (crc32c d = h.ucrc) && ((match decodeUnit h.dstFmt d with | some bs => (let x : State := tierWrite s 2 (offOf p.rxBase.toNat + h.dstOff) bs; true) | _ => false)))
    && (let s : State := tGroup; let p : Peer := tPeer; let h : SlotHeader := { pseq := 4, dstFmt := 1 }; let d : List Byte := natLe 16 16 ++ [1]; decide (crc32c d ≠ h.ucrc) && (let x : State := poisonRange s (offOf p.rxBase.toNat + h.dstOff) (min (unitSpan h.dstFmt d) (p.rxLen - h.dstOff)); true))
    && (let s : State := tGroup; let w : Nat := 1; let u : State := sweepOld s; (match peerOf u w with | some p => ((p.present) && (decide (p.lastBlock + 9216 ≤ ctrlStamp u))) | _ => false))
    && (let s : State := { tGroup with group := { tGroup.group with peers := [{ tPeer with lastBlock := 6134785 }] } }; let w : Nat := 1; let u : State := sweepOld s; (match peerOf u w with | some p => (decide (ctrlStamp u < p.lastBlock + 9216)) | _ => false))) = true := by decide +kernel

theorem meets_ControlBlocksJoinAndRepair_part2 :
    ((let s : State := { tGroup with group := { tGroup.group with state := 1, joinCmd := some 1, joinAt := 3072000 }, cmds := [{ id := 1, fn := .pf0, op := .groupJoin, pkt := tP [], phase := .parked .join }] }; let u : State := sweep s; (match u.group.joinCmd with | some n => ((match cmdOf u n with | some c => (decide (c.dl = none) && (decide (u.group.joinAt + 3072000 ≤ ctrlStamp u))) | _ => false)) | _ => false))) = true := by decide +kernel

theorem meets_SnapshotServesRequests :
    ((let s : State := { tBase with obs := { tBase.obs with snapWaiting := [1] } }; let ar : List (Nat × Nat) := []; let u : State := sweep s; (laurelRuns u) && ((domOn u domObs) && (decide (u.obs.snapWaiting ≠ []) && (decide (u.obs.snapAt = none) && (let d : Nat → Nat := (fun k => min 2 (((ar.find? (fun a => a.1 == k)).map (·.2)).getD 0)); let l : List CounterRec := (catalogue u).map (latchCounter u (fun k => u.stb + d k)); let n : Nat := (l.map (fun r => if r.frozen then 0 else d r.dom)).foldl max 0; true)))))
    && (let s : State := tBase; let u : State := sweep s; decide (u.obs.snapWaiting = []))
    && (let s : State := tBase; let id : Nat := 0x0020; let i : Nat := 0; (domOn s (counterDom id i)))
    && (let s : State := updDom tBase (counterDom 0x0020 0) (fun x => { x with state := .off }); let id : Nat := 0x0020; let i : Nat := 0; decide (domOn s (counterDom id i) = false))
    && (let s : State := { tBase with obs := { tBase.obs with counters := [{ id := 0x20, inst := 0, value := 3 }] } }; let id : Nat := 0x20; let i : Nat := 0; decide (¬ (0x10 ≤ id ∧ id ≤ 0x15)) && ((match s.obs.counters.find? (fun c => c.id == id && c.inst == i) with | some _ => (true) | _ => false)))) = true := by decide +kernel

theorem meets_ParkedCommandsGoOn :
    ((let s : State := { tBase with work := { tBase.work with sems := [{ num := 3, fn := .pf0, session := 1, count := 2 }] }, cmds := [{ id := 1, fn := .pf0, op := .semWait, pkt := tP [(24, 2, 3), (26, 2, 2)], phase := .parked .sem }] }; (match firstResume s with | some (c, v) => ((match resumeCmd c v with | some _ => (true) | _ => false)) | _ => false))
    && (let s : State := { tBase with work := { tBase.work with sems := [{ num := 3, fn := .pf0, session := 1, count := 2 }] }, cmds := [{ id := 1, fn := .pf0, op := .semWait, pkt := tP [(24, 2, 3), (26, 2, 2)], phase := .parked .sem }] }; let c : Cmd := { id := 1, fn := .pf0, op := .semWait, pkt := tP [(24, 2, 3), (26, 2, 2)], phase := .parked .sem }; decide (c.op = .semWait) && ((match semNamed s c with | some x => (decide (((semWaiters s x.num).head?.map (·.id)) = some c.id) && (decide (arg c 26 2 ≤ x.count.toNat))) | _ => false)))
    && (let s : State := { tBase with work := { tBase.work with sems := [{ num := 3, fn := .pf0, session := 1, count := 1 }] }, cmds := [{ id := 1, fn := .pf0, op := .semWait, pkt := tP [(24, 2, 3), (26, 2, 2)], phase := .parked .sem }] }; let c : Cmd := { id := 1, fn := .pf0, op := .semWait, pkt := tP [(24, 2, 3), (26, 2, 2)], phase := .parked .sem }; decide (c.op = .semWait) && ((match semNamed s c with | some x => (decide (x.count.toNat < arg c 26 2)) | _ => false)))
    && (let s : State := { tBase with cmds := [{ id := 1, fn := .pf0, op := .fence, pkt := tP [(24, 1, 1)], phase := .parked .others }] }; let c : Cmd := { id := 1, fn := .pf0, op := .fence, pkt := tP [(24, 1, 1)], awaited := [0], phase := .parked .others }; decide (c.op = .fence) && (decide (stillOpen s c.awaited = false)))
    && (let s : State := { tBase with cmds := [{ id := 1, fn := .pf0, op := .nop, pkt := tP [], phase := .parked .others }] }; let c : Cmd := { id := 1, fn := .pf0, op := .fence, pkt := tP [(24, 1, 1)], awaited := [1], phase := .parked .others }; decide (c.op = .fence) && ((stillOpen s c.awaited)))
    && (let s : State := tWork; let c : Cmd := { id := 1, fn := .pf0, op := .modelLoad, pkt := tP [], aux := 5, phase := .parked .residency }; decide (c.op = .modelLoad) && ((match modelOf s c.fn c.aux with | some m => ((m.resident.isSome)) | _ => false)))
    && (let s : State := { tGroup with group := { tGroup.group with joinCmd := some 1 } }; let c : Cmd := { id := 1, fn := .pf0, op := .groupJoin, pkt := tP [], phase := .parked .join }; decide (c.op = .groupJoin) && (decide (s.group.joinCmd = some c.id) && ((s.group.peers.all (·.present)))))
    && (let s : State := { tGroup with group := { tGroup.group with joinCmd := some 1, peers := [{ tPeer with present := false }] } }; let c : Cmd := { id := 1, fn := .pf0, op := .groupJoin, pkt := tP [], phase := .parked .join }; decide (c.op = .groupJoin) && (decide (s.group.joinCmd = some c.id) && (decide (s.group.peers.all (·.present) = false))))) = true := by decide +kernel

theorem meets_NothingFollowsWhenNothingWaits :
    ((let s : State := tBase; decide ((s.cmds = [] ∧ s.work.slots = [] ∧ s.work.steps = [] ∧ s.work.streams = [] ∧ s.work.models = [] ∧ s.heldOut = [] ∧ s.dram.pendingRetire = [] ∧ s.custody.state ≠ .relinquished ∧ ∀ r ∈ s.rings, r.boost = none)))
    && (let s : State := tBase; decide ((s.cmds = [] ∧ s.work.slots = [] ∧ s.work.steps = [] ∧ s.work.streams = [] ∧ s.work.models = [] ∧ s.heldOut = [] ∧ s.dram.pendingRetire = [] ∧ s.custody.state ≠ .relinquished ∧ ∀ r ∈ s.rings, r.boost = none)))
    && (let s : State := tBase; decide ((s.cmds = [] ∧ s.work.slots = [] ∧ s.work.steps = [] ∧ s.work.streams = [] ∧ s.work.models = [] ∧ s.heldOut = [] ∧ s.dram.pendingRetire = [] ∧ s.custody.state ≠ .relinquished ∧ ∀ r ∈ s.rings, r.boost = none)))
    && (let s : State := tBase; decide ((s.cmds = [] ∧ s.work.slots = [] ∧ s.work.steps = [] ∧ s.work.streams = [] ∧ s.work.models = [] ∧ s.heldOut = [] ∧ s.dram.pendingRetire = [] ∧ s.custody.state ≠ .relinquished ∧ ∀ r ∈ s.rings, r.boost = none)))) = true := by decide +kernel

theorem meets_StartAndCompletionFrames :
    ((let op : Op := .nop; let opc : Nat := 0; let p : Packet := tP []; let s : State := tBase; decide ((s.cmds = [] ∧ s.work.slots = [] ∧ s.work.steps = [] ∧ s.work.streams = [] ∧ s.work.models = [] ∧ s.heldOut = [] ∧ s.dram.pendingRetire = [] ∧ s.custody.state ≠ .relinquished ∧ ∀ r ∈ s.rings, r.boost = none)) && ((match startOf op opc p s with | some (_, _) => (true) | _ => false)))) = true := by decide +kernel

theorem meets_TierMemories :
    ((let s : State := tMem; let tier : Nat := 2; (memoriesWf s) && (decide (tier = 1 ∨ tier = 2 ∨ tier = 3)))
    && (let s : State := tMem; let tier : Nat := 3; let off : Nat := 0x100000; let a : Nat := 0x0FFFFF; let bs : List Byte := [1, 0, 2]; (memoriesWf s) && (decide (tier = 1 ∨ tier = 2 ∨ tier = 3) && (decide (a < off ∨ off + bs.length ≤ a))))
    && (let tier : Nat := 2; let k : Nat := 3; decide (tier = 1 ∨ tier = 2 ∨ tier = 3) && (decide (k ≤ 3) && (decide (k ≠ tier))))
    && (let s : State := tMem; (memoriesWf s))
    && (let len : Nat := 64; decide (0 < len))) = true := by decide +kernel

theorem meets_EveryStepKeepsBoosts :
    ((let s : State := { tBase with pending := [.nop (tP [])] }; decide ((boostAll s).rings = s.rings) && ((match step s with | .next _ => (true) | _ => false)))) = true := by decide +kernel

/-- A challenge in force, and the packet that answers it with the proof the device expects. -/
def tChallenge : Challenge := { id := 4, nonce := 77, expires := 6200000 }
def tProof : Packet :=
  { seq := 5, body := tPut [(0, 1, 1), (2, 2, 4)] (zeroBytes 8) ++ natLe 32 (proofOf 0 .pf0 tChallenge).toNat }
def tChallenged : State := { tBase with sess0 := { challenge := some tChallenge } }

theorem meets_SessionCommandsComplete_clause4 :
    (match startOf .sessionOpen 0x02 tProof tChallenged with
     | some (c, w) => decide (tenantKey w c.fn = some 0) && decide ((sess w c.fn).lockedUntil ≤ ctrlStamp w) && decide (arg c 24 1 = 1)
         && decide ((sess w c.fn).number = 0) && decide ((sess w c.fn).challenge = some tChallenge) && decide (tChallenge.id = arg c 26 2)
         && decide (ctrlStamp w < tChallenge.expires)
     | none => false) = true := by decide +kernel
theorem meets_SessionCommandsComplete_clause4_proof :
    (match startOf .sessionOpen 0x02 tProof tChallenged with
     | some (c, _) => argBytes c 32 32
     | none => []) = natLe 32 (proofOf 0 .pf0 tChallenge).toNat := by rfl

/-- A signed image of component 3 with an empty body, whose digest is that of SHA3-256 of nothing. -/
def tImageMem : Mem :=
  [(0x4000, 0x57), (0x4001, 0x59), (0x4002, 0x46), (0x4003, 0x57), (0x4004, 0x1), (0x4006, 0x3), (0x400d, 0x1), (0x400e, 0xb0), (0x4040, 0xa7), (0x4041, 0xff), (0x4042, 0xc6), (0x4043, 0xf8), (0x4044, 0xbf), (0x4045, 0x1e), (0x4046, 0xd7), (0x4047, 0x66), (0x4048, 0x51), (0x4049, 0xc1), (0x404a, 0x47), (0x404b, 0x56),
   (0x404c, 0xa0), (0x404d, 0x61), (0x404e, 0xd6), (0x404f, 0x62), (0x4050, 0xf5), (0x4051, 0x80), (0x4052, 0xff), (0x4053, 0x4d), (0x4054, 0xe4), (0x4055, 0x3b), (0x4056, 0x49), (0x4057, 0xfa), (0x4058, 0x82), (0x4059, 0xd8), (0x405a, 0xa), (0x405b, 0x4b), (0x405c, 0x80), (0x405d, 0xf8), (0x405e, 0x43), (0x405f, 0x4a)]
def tImage : List Byte := memReadN tImageMem 0x4000 96 ++ zeroBytes 4000
def tImageHost : State := { tBase with store := { tBase.store with host := tImageMem } }

theorem memReadN_none : ∀ (m : Mem) (n a : Nat), (∀ c ∈ m, c.1 < a ∨ a + n ≤ c.1) → memReadN m a n = zeroBytes n
  | _, 0, _, _ => rfl
  | m, n + 1, a, h => by
    have hr : ∀ (l : Mem), (∀ c ∈ l, c.1 ≠ a) → memRead l a = 0 := by
      intro l; induction l with
      | nil => intro _; rfl
      | cons c t ih =>
        intro hl
        unfold memRead
        rw [if_neg (fun e => hl c (by simp) e.symm)]
        split
        · rfl
        · exact ih (fun x hx => hl x (by simp [hx]))
    have := memReadN_none m n (a + 1) (fun c hc => by have := h c hc; omega)
    simp only [memReadN, this, hr m (fun c hc => by have := h c hc; omega)]
    rfl

theorem memReadN_add (m : Mem) : ∀ (k n a : Nat), memReadN m a (k + n) = memReadN m a k ++ memReadN m (a + k) n
  | 0, n, a => by simp [memReadN]
  | k + 1, n, a => by
    rw [show k + 1 + n = (k + n) + 1 by omega]
    simp only [memReadN, List.cons_append, memReadN_add m k n (a + 1)]
    rw [show a + 1 + k = a + (k + 1) by omega]

/-- An image is taken where its header fits, its key's digest is the fused one, its signature verifies, and the digest of its body is the one it carries. -/
theorem image_taken (s : State) (comp : Nat) (img key : List Byte) (hs : s.fuse = {}) (hk : bytesAt img 96 1312 = key)
    (c1 : ¬(bytesAt img 0 4 ≠ ascii "WYFW" ∨ field img 4 2 ≠ 1 ∨ field img 6 1 ≠ comp ∨ bits (field img 13 1) 7 3 ≠ 0 ∨ zeroAt img 15 15 = false
      ∨ zeroAt img 20 63 = false ∨ zeroAt img 3828 4095 = false))
    (c2 : ¬(bit (field img 13 1) (partBit .wy6480) = false ∨ field img 14 1 ≠ 0xB0))
    (c3 : ¬(bodyMax comp < field img 16 4 ∨ img.length ≠ 4096 + field img 16 4)) (c4 : field img 7 1 = 0)
    (h2 : Config.sha3 key = Config.romKeyDigest 0)
    (h3 : Config.mldsaVerify key (bytesAt img 0 96) firmwareLabel (bytesAt img 1408 2420) = true)
    (h1 : sha3Bytes (img.drop 4096) = bytesAt img 64 32) : imageReason s comp img = 0 := by
  have r : s.fuse.fwKeyRevoke.getLsbD 0 = false := by rw [hs]; rfl
  have p : s.fuse.part = .wy6480 := by rw [hs]
  have n : s.fuse.antiRollback = 0 := by rw [hs]
  unfold imageReason securityVersion
  simp only [hk, c4, p, n, r, h1, h2, h3, if_neg c1, if_neg c2, if_neg c3]
  simp

/-- Host memory after the fetch: `FETCHED` has moved. -/
def tImageMem2 : Mem := tImageMem ++ [(0x30004, 1)]

theorem tImage_read : memReadN tImageMem2 0x4000 4096 = tImage := by
  rw [memReadN_add _ 96 4000, memReadN_none _ 4000 _ (by decide +kernel)]
  have : memReadN tImageMem2 0x4000 96 = memReadN tImageMem 0x4000 96 := by decide +kernel
  rw [this]; rfl

theorem tImage_taken (h1 : sha3Bytes (tImage.drop 4096) = bytesAt tImage 64 32) (h2 : Config.sha3 (zeroBytes 1312) = Config.romKeyDigest 0)
    (h3 : Config.mldsaVerify (zeroBytes 1312) (bytesAt tImage 0 96) firmwareLabel (bytesAt tImage 1408 2420) = true) (s : State) (hs : s.fuse = {}) :
    imageReason s 3 tImage = 0 :=
  image_taken s 3 tImage (zeroBytes 1312) hs (by decide +kernel) (by decide +kernel) (by decide +kernel) (by decide +kernel) (by decide +kernel) h2 h3 h1

/-- Given these three facts of the opaque cryptography, an image is staged. -/
theorem meets_TrustCommandsComplete_clause3 (h : ∀ s : State, s.fuse = {} → imageReason s 3 tImage = 0) :
    (match startOf .fwStage 0x80 (tP [(24, 1, 3), (32, 8, 0x4000), (40, 4, 4096)]) tImageHost with
     | some (c, w) => decide (w.fuse = {}) && arg c 24 1 == 3 && arg c 32 8 == 0x4000 && arg c 40 4 == 4096 && w.store.host == tImageMem2
     | none => false) = true
      ∧ memReadN tImageMem2 0x4000 4096 = tImage ∧ ∀ w : State, w.fuse = {} → imageReason w 3 tImage = 0 :=
  ⟨by decide +kernel, tImage_read, h⟩

theorem loader_takes (s : State) (img : List Byte) (hi : imageReason s s.boot.rcvComponent img = 0) (hb : ¬(s.boot.rcvComponent = 0
    ∨ s.boot.failed.toNat.testBit (s.boot.rcvComponent - 1) = false)) (hm : memReadN s.store.host s.boot.rcvSrc.toNat s.boot.rcvLen = img) :
    loadReason s true true = 0 := by
  unfold loadReason; simp only [hm, hi, if_neg hb]; rfl

theorem tImage_read_plain : memReadN tImageMem 0x4000 4096 = tImage := by
  rw [memReadN_add _ 96 4000, memReadN_none _ 4000 _ (by decide +kernel)]; rfl

def tLoading : State :=
  { tImageHost with boot := { tBase.boot with recovery := true, rcvBusy := true, rcvSrc := 0x4000, rcvComponent := 3, rcvLen := 4096, failed := 4 } }

/-- Given the same facts, the recovery loader takes it. -/
theorem meets_RecoveryLoader_clause3 (h : ∀ s : State, s.fuse = {} → imageReason s 3 tImage = 0) :
    (sweep tLoading).boot.recovery = true ∧ (sweep tLoading).boot.rcvBusy = true ∧ loadReason (sweep tLoading) true true = 0 := by
  refine ⟨by decide +kernel, by decide +kernel, loader_takes _ tImage ?_ (by decide +kernel) ?_⟩
  · rw [show (sweep tLoading).boot.rcvComponent = 3 by decide +kernel]; exact h _ (by decide +kernel)
  · rw [show (sweep tLoading).boot.rcvSrc = 0x4000 by decide +kernel, show (sweep tLoading).boot.rcvLen = 4096 by decide +kernel,
      show (sweep tLoading).store.host = tImageMem by decide +kernel]
    exact tImage_read_plain

/-- A package with the four sections an install asks for, one input and one output of 16 INT8 values and no weights, in host memory. -/
def tPkgMem : Mem :=
  [(0x4000, 0x57), (0x4001, 0x59), (0x4002, 0x47), (0x4003, 0x49), (0x4004, 0x1), (0x4006, 0x4), (0x4008, 0x80), (0x4009, 0x1), (0x4010, 0x40), (0x4018, 0x1),
   (0x4019, 0x1), (0x4040, 0x1), (0x4048, 0xc0), (0x4050, 0x40), (0x4060, 0x2), (0x4069, 0x1), (0x4070, 0x40), (0x4080, 0x3), (0x4088, 0x40), (0x4089, 0x1),
   (0x4090, 0x40), (0x40a0, 0x4), (0x40a8, 0x80), (0x40a9, 0x1), (0x4108, 0x1), (0x410a, 0x1), (0x410c, 0x10), (0x4148, 0x1), (0x414a, 0x1), (0x414c, 0x10)]
def tPkg : List Byte := memReadN tPkgMem 0x4000 384
def tPkgHost : State :=
  { tBase with store := { tBase.store with host := tPkgMem }, nand := [{ inService := true, sparePermille := 100 }] }

/-- It can be installed where the sections that lie outside the manual are consistent. -/
theorem tPkg_ok : packageOk tPkg = Config.imageConsistent (tPkg.take (field tPkg 8 8)) := by
  unfold packageOk
  have h : (decide (64 ≤ tPkg.length) && imageHeaderOk tPkg && portsOk tPkg 2 && portsOk tPkg 3 && weightsOk tPkg && kvSectionOk tPkg
      && trainingOk tPkg) = true := by decide +kernel
  rw [h, Bool.true_and]

/-- It is installed by `ACTION` 0 and by `ACTION` 2. -/
theorem meets_ModelCommandsComplete_install :
    [0, 2].all (fun act => match startOf .modelLoad 0x30 (tP [(24, 1, act), (26, 2, 6), (28, 8, 0x4000), (36, 8, 384)]) tPkgHost with
     | some (c, w) => arg c 24 1 == act && arg c 26 2 == 6 && (modelOf w c.fn 6).isNone && decide (readSrc w c (arg c 28 8) (arg c 36 8) = (tPkg, none))
         && decide ((modelFrom c.fn 6 tPkg).resident = none)
         && (placeAll (fun s n => placeObject s c.fn 3 0 n 22 6 false) w (modelFrom c.fn 6 tPkg).pieces).isSome
     | none => false) = true := by decide +kernel

/-- Its residency starts where its graph has no tables of FIXED layers, as with no layer of a recurrence. -/
theorem meets_ModelCommandsComplete_residency (h : ∀ img, Config.recurrenceLayers img = []) :
    (startResidency tPkgHost (modelFrom .pf0 6 tPkg)).isSome = true := by
  have ht : ∀ img, tableBytesOf img = 0 := fun img => by unfold tableBytesOf layersOf; rw [h]; rfl
  unfold startResidency startResidencyBy Model.poolPieces
  rw [ht]
  decide +kernel

/-- A stream can be opened where the layers of its model's recurrence are known: here one channel with one state. -/
theorem tLayers (h : Config.recurrenceLayers [] = [(1, 1)]) : layersOf tModel.image = [(1, 1)] := by
  unfold layersOf; rw [show tModel.image = [] from rfl, h]; rfl
theorem tWide (h : Config.recurrenceLayers [] = [(1, 1)]) : wideSize tModel = 4 := by unfold wideSize; rw [tLayers h]; rfl
def tOpen : Option (Cmd × State) := startOf .streamOpen 0x44 (tP [(24, 2, 5), (28, 1, 2)]) tWork
def tOpenCmd : Cmd := match tOpen with | some x => x.1 | none => tChunkCmd
def tOpenState : State := match tOpen with | some x => x.2 | none => tWork
theorem meets_StreamCommandsComplete_clause1 (h : Config.recurrenceLayers [] = [(1, 1)]) :
    startOf .streamOpen 0x44 (tP [(24, 2, 5), (28, 1, 2)]) tWork = some (tOpenCmd, tOpenState)
      ∧ modelOf tOpenState tOpenCmd.fn (arg tOpenCmd 24 2) = some tModel ∧ tModel.recurrent = true ∧ arg tOpenCmd 32 8 = 0
      ∧ (newStream tOpenState tOpenCmd tModel (List.replicate (wideSize tModel / 4) 0)).isSome = true := by
  refine ⟨by decide +kernel, by decide +kernel, rfl, by decide +kernel, ?_⟩
  unfold newStream; rw [tWide h]; decide +kernel

/-- A state image of that model at 1 MiB of tier 2, and a swap that reads it. -/
def tImaged : State :=
  { tWithStream with store := { tWithStream.store with
      dram := [(0x100000, 1), (0x100002, 1), (0x100004, 5), (0x100006, 5), (0x100008, 68), (0x100042, 0x80), (0x100043, 0x3F)] } }
def tSwapIn : Cmd := { tCopyCmd with op := .stateSwap, pkt := tCtx (tP [(24, 1, 2), (28, 8, 2 ^ 61 + 0x100000), (36, 4, 68)]) }
theorem meets_StreamCommandsComplete_clauses15_16 (h : Config.recurrenceLayers [] = [(1, 1)]) :
    (match (readImage tImaged tSwapIn tModel (arg tSwapIn 28 8) (arg tSwapIn 36 4)).2 with
     | .ok vs => vs == [0x3F800000#32]
         && (placeState (readImage tImaged tSwapIn tModel (arg tSwapIn 28 8) (arg tSwapIn 36 4)).1 tModel { tStream with carried := vs } false).isSome
     | .error _ => false) = true ∧ arg tSwapIn 24 1 = 2 ∧ tStream.home = 2 := by
  refine ⟨?_, by decide +kernel, rfl⟩
  unfold readImage imageHeader imageValues
  rw [tLayers h, tWide h]
  decide +kernel

/-- A copy from tier 2 into a sealed buffer of tenant 1, given what the opaque GCM opens. -/
def tSealedCopy : Packet := { ring := 3073, flags := 32, body := zeroBytes 88, tag := zeroBytes 16 }
def tSealedBody : List Byte := fitBytes 88 (tArgs [(24, 8, 2 ^ 61 + 0x3E0000000), (32, 8, 2 ^ 63 + 0x4000), (40, 8, 16)])
def tSealedMem : State :=
  { tSealed with store := { tSealed.store with allocs := [{ fn := .pf1, session := 2, tier := 2, base := 0x3E0000000, size := 0x10000 }] } }
theorem meets_MemoryCommandsComplete_clause5
    (h : Config.gcmOpen 0 (submitIv (ringOf (sweepOld tSealedMem) 3073) 0) (headerBytes 0x22 tSealedCopy) (zeroBytes 88) (zeroBytes 16) = some tSealedBody) :
    (match startOf .copy 0x22 tSealedCopy tSealedMem with
     | some (c, w) => decide (c.cnt = 0) && copySide w c.fn (arg c 24 8) (arg c 40 8) true && copySide w c.fn (arg c 32 8) (arg c 40 8) false
         && decide (tierOf (arg c 24 8) = 2) && decide (tierOf (arg c 32 8) = 8) && c.isSealed && decide (arg c 40 8 = 16)
         && (match copyBytes w c (arg c 24 8) 0 (arg c 40 8) with | (_, _, none) => true | _ => false)
     | none => false) = true := by
  have ha : ∀ q : Packet, q = tSealedCopy → authenticate (sweepOld tSealedMem) .pf1 .copy 0x22 q = some tSealedBody := by
    rintro _ rfl
    unfold authenticate
    exact (if_neg (by decide +kernel)).trans ((if_pos (by decide +kernel)).trans ((if_pos (by decide +kernel)).trans h))
  have hf : fnOfRing (sweepOld tSealedMem) 3073 = .pf1 := by decide +kernel
  unfold startOf fetchPacket
  rw [show tSealedCopy.ring = 3073 from rfl, hf]
  dsimp only
  rw [ha]
  · decide +kernel
  · decide +kernel

/-- What a failed or a good fetch check meets: a clear packet that must be sealed, a sealed one with a bad block, and a good one. -/
theorem meets_FailedFetchCheckCompletes_clear :
    (canFetch tSealed 3073 && (authenticate (sweepOld tSealed) (fnOfRing (sweepOld tSealed) 3073) .alloc 0x20 tClear).isNone) = true := by decide +kernel

theorem tSealed_auth (op : Op) (opc : Nat)
    (h : Config.gcmOpen 0 (submitIv (ringOf (sweepOld tSealed) 3073) 0) (headerBytes opc tSealedPkt) (zeroBytes 88) (zeroBytes 16) = some (zeroBytes 88)) :
    authenticate (sweepOld tSealed) .pf1 op opc tSealedPkt = some (zeroBytes 88) := by
  unfold authenticate
  exact (if_neg (by decide +kernel)).trans ((if_pos (by decide +kernel)).trans ((if_pos (by decide +kernel)).trans h))

theorem meets_FailedFetchCheckCompletes_sealed
    (h : Config.gcmOpen 0 (submitIv (ringOf (sweepOld tSealed) 3073) 0) (headerBytes 0x25 tSealedPkt) (zeroBytes 88) (zeroBytes 16) = some (zeroBytes 88)) :
    let u := sweepOld tSealed
    canFetch tSealed 3073 = true ∧ authenticate u .pf1 .tableBuild 0x25 tSealedPkt = some (zeroBytes 88) ∧ openBlock u true tSealedPkt = .error .badParam
      ∧ fetchStatus u (cmdOfPacket u .tableBuild tSealedPkt true (zeroBytes 88) []) (some .badParam) = some .badParam :=
  ⟨by decide +kernel, tSealed_auth _ _ h, rfl, by decide +kernel⟩

theorem meets_ReservedOpcodeFails_clause2
    (h : Config.gcmOpen 0 (submitIv (ringOf (sweepOld tSealed) 3073) 0) (headerBytes 7 tSealedPkt) (zeroBytes 88) (zeroBytes 16) = some (zeroBytes 88)) :
    definedOpcodes.contains 7 = false ∧ canFetch tSealed 3073 = true
      ∧ authenticate (sweepOld tSealed) .pf1 .badOpcode 7 tSealedPkt = some (zeroBytes 88) ∧ openBlock (sweepOld tSealed) true tSealedPkt = .error .badParam :=
  ⟨by decide +kernel, by decide +kernel, tSealed_auth _ _ h, rfl⟩

theorem meets_FailedFetchCheckCompletes_good :
    (let u := sweepOld tBase
     match authenticate u .pf0 .nop 0 (tP []) with
     | some body => match openBlock u false { tP [] with body := body } with
       | .ok block => decide (fetchStatus u (cmdOfPacket u .nop (tP []) true body block) none = none)
       | .error _ => false
     | none => false) = true := by decide +kernel

/-- A cut that may be admitted, within the power limit and beyond it; the PMU's estimate of its energy is opaque. -/
def tDeferred : State := { tJob with power := { tJob.power with lastAdmit := [(0, 6144000)] } }
theorem meets_WorkEvents_clauses4_6 :
    ([tJob, tDeferred].all (fun s => let u := sweep s
     !edgeWork u tCut && laurelRuns u && !u.custody.quiescing && jobAdmits u tCut false && workNames u tCut false && unitReady u tCut false
       && classTurn u tCut)) = true := by decide +kernel
theorem meets_WorkEvents_clause4_admits : powerAdmits (sweep tJob) tCut (cutEnergy (sweep tJob) tCut) {} = true := by
  have h : (sweep tJob).power.lastAdmit = [] := by decide +kernel
  simp only [powerAdmits, h, List.find?_nil, Bool.or_true]
theorem meets_WorkEvents_clause6_defers : powerAdmits (sweep tDeferred) tCut (cutEnergy (sweep tDeferred) tCut) { window := 10 ^ 9 } = false := by
  have h : (sweep tDeferred).power.lastAdmit = [(0, 6144000)] := by decide +kernel
  have g : (sweep tDeferred).stb = 6144000 := by decide +kernel
  have l : limitOf (sweep tDeferred) (workFn (sweep tDeferred) tCut.work) 0 = 28000 := by decide +kernel
  have k : tCut.coppice = 0 := rfl
  simp [powerAdmits, h, g, l, k]; omega

/-- A program failure that leaves the channel writable, given how many spares the FTL then has. -/
def tStored : State := { tBase with nand := [{ inService := true, sparePermille := 100 }] }
theorem meets_MemoryEvents_clause16 (h : 10 ≤ Config.freeNat (sweep tStored).freeCtr) :
    nandPresent (sweep tStored) 0 = true ∧ (nandCh (sweep tStored) 0).inService = true ∧ (nandCh (sweep tStored) 0).retired.contains 3 = false
      ∧ 10 ≤ min (nandCh (sweep tStored) 0).sparePermille (Config.freeNat (sweep tStored).freeCtr) := by
  refine ⟨by decide +kernel, by decide +kernel, by decide +kernel, ?_⟩
  have : (nandCh (sweep tStored) 0).sparePermille = 100 := by decide +kernel
  omega

end Sys2Proof.Machine
end

section
/-! SUPPORT. The custody lease (01 R18 to R25): what an event row does once the commands whose deadline has passed have ended, one equation for
each case of each custody event, and the statement that these settle. -/

namespace Sys2Proof.Machine

/-- An event row acts on the state that `sweep` leaves, and what has become possible follows. -/
theorem exec_event {i : Instr} {f : State → State} {s t : State} (hrow : exec i s = .next (during f s)) (hf : f (sweep s) = t) :
    exec i s = .next (settle t) := by
  rw [hrow, during, hf]

/- ### Renewals and acknowledgements (01 R18, R19) -/

theorem revokeLease_of_granted {s : State} (cause : Nat) (hg : s.custody.state = .granted) :
    revokeLease s cause =
      { s with custody := { s.custody with
        state := .revoked, cause := cause, revocations := min (s.custody.revocations + 1) (2 ^ 24 - 1), line := false, quiescing := true,
        revokedAt := some s.stb, revokeSeen := false, quietSent := false, renewals := [], acks := [] } } :=
  if_neg (not_not_intro hg)

theorem renewalDue_of_due {s : State} (hr : laurelRuns s = true) (hg : s.custody.state = .granted) (hl : s.custody.line = true)
    (hq : s.custody.quiescing = false) (hd : s.custody.renewAt ≤ ctrlStamp s) :
    renewalDue s =
      { s with custody := { s.custody with
        renewAt := s.custody.renewAt + 2048
        renewals := if s.dlink.trained then s.custody.renewals ++ [s.custody.epoch] else s.custody.renewals } } := by
  simp [renewalDue, renewTicks, hr, hg, hl, hq, hd]

section
variable {s : State} {epoch : U32} (hr : gorseRuns s = true) (hh : s.fault.haltGorse = false) (hg : s.custody.state = .granted)
  (ht : s.dlink.trained = true)
include hr hh hg ht

theorem renewalAt_of_valid (he : epoch = s.custody.epoch) (hx : s.stb ≤ s.custody.expiry) :
    renewalAt epoch s =
      { s with custody := { s.custody with
        expiry := s.stb + 6144, renewals := s.custody.renewals.drop 1, acks := s.custody.acks ++ [s.stb + 6144] } } := by
  simp [renewalAt, leaseTicks, hr, hh, hg, ht, he, hx]

theorem renewalAt_of_otherEpoch (he : epoch ≠ s.custody.epoch) : renewalAt epoch s = revokeLease s 1 := by
  simp [renewalAt, hr, hh, hg, ht, he]

end

theorem acknowledgement_of_sent {s x : State} {e : Nat} (hr : s.boot.laurelReleased = true) (ht : s.dlink.trained = true)
    (ha : s.custody.acks.contains e = true)
    (hx : x = { s with custody := { s.custody with
      laurelExpiry := max s.custody.laurelExpiry e, acks := s.custody.acks.erase e,
      stopped := s.custody.stopped && !(s.custody.line && decide (ctrlStamp s + 16 < max s.custody.laurelExpiry e)) } }) :
    acknowledgement e s
      = if s.custody.stopped && !x.custody.stopped then wakeModelNow (flushHeld (flushHeld x .pf0) .pf1) else x := by
  subst hx
  exact if_neg (by simp only [hr, ht, ha]; decide)

theorem leaseGuard_of_near {s : State} (hl : leaseHeld s = true) (hd : s.custody.laurelExpiry ≤ ctrlStamp s + 16) :
    leaseGuard s = { s with custody := { s.custody with stopped := true } } := by
  simp [leaseGuard, guardTicks, hl, hd]

theorem leaseExpiry_of_passed {s : State} (hg : s.custody.state = .granted) (hx : s.custody.expiry ≤ s.stb) :
    leaseExpiry s = revokeLease s 2 :=
  if_pos ⟨hg, hx⟩

/- ### The revoke on Laurel and the quiet report (01 R20, R21) -/

theorem revokeSeen_of_revoked {s v x y z : State} {n : Nat} (hs : s.custody.state = .revoked) (hn : s.custody.revokedAt = some n)
    (hu : s.custody.revokeSeen = false) (ht : s.dlink.trained = true) (hr : s.boot.laurelReleased = true)
    (hv : v = { s with rings := s.rings.map (fun r => if r.enabled then { r with latched := some r.fetched } else r) })
    (hx : x = endAll ((contested v).foldl undoInstall v) (contested v) .contested) (hy : y = forgetAll x (x.cmds.map (·.id)))
    (hz : z = y.work.steps.foldl discardStep y) :
    revokeSeen s = { z with custody := { z.custody with revokeSeen := true, quietSent := true } } := by
  subst hv hx hy hz
  exact if_neg (by simp [hs, hn, hu, ht, hr])

theorem needsReset_iff (s : State) :
    needsReset s = true ↔ 4 ≤ s.custody.cause ∨ s.fault.laurelFatal = true ∨ s.fault.gorseFatal = true := by
  simp [needsReset, or_assoc]

/-- A quiet report that is awaited resets Laurel where the revoke asks for it, and grants the next epoch elsewhere. -/
theorem quietReport_of_awaited {s : State} (hs : s.custody.state = .revoked) (hq : s.custody.quietSent = true)
    (ht : s.dlink.trained = true) : quietReport s = if needsReset s then laurelReset s else grantLease s :=
  if_neg (by simp [hs, hq, ht])

theorem quietTimeout_of_late {s : State} {n : Nat} (hs : s.custody.state = .revoked) (hn : s.custody.revokedAt = some n)
    (hd : n + 4096 ≤ s.stb) : quietTimeout s = laurelReset s := by
  simp [quietTimeout, hs, hn, hd]

/- ### Grant and relinquish (01 R24, R25) -/

theorem grantEvent_of_asked {s : State} (ha : s.custody.grantAsked = true) (ht : s.dlink.trained = true) (hs : s.custody.state ≠ .granted)
    (hn : s.custody.noReturn = false) (hr : gorseRuns s = true) (hh : s.fault.haltGorse = false) : grantEvent s = grantLease s := by
  simp [grantEvent, ha, ht, hs, hn, hr, hh]

theorem flushHeld_of_nil {s : State} (fn : Fn) (h : s.heldOut = []) : flushHeld s fn = s := by
  cases s
  subst h
  simp [flushHeld]

theorem wakeModelNow_of_idle {s : State} (h : s.listen.stage3 = false) : wakeModelNow s = s := by
  simp [wakeModelNow, h]

/-- The custody of a grant with nothing held for it. -/
theorem grantLease_custody_of_idle {s : State} (hw : s.custody.heldWake = false) (ho : s.heldOut = []) (h3 : s.listen.stage3 = false) :
    (grantLease s).custody = { s.custody with
      epoch := s.custody.epoch + 1, state := .granted, line := true, expiry := s.stb + 6144,
      laurelExpiry := s.stb + 6144, renewAt := ctrlStamp s + 2048, renewals := [], acks := [], stopped := false, quiescing := false,
      revokedAt := none, revokeSeen := false, quietSent := false, grantAsked := false, heldWake := false } := by
  simp [grantLease, leaseTicks, renewTicks, flushHeld_of_nil, wakeModelNow_of_idle, hw, ho, h3]

section
variable {s : State} {epoch : U32} (hg : s.custody.state = .granted) (ht : s.dlink.trained = true)
include hg ht

theorem relinquishEvent_of_otherEpoch (he : epoch ≠ s.custody.epoch) : relinquishEvent epoch s = revokeLease s 1 := by
  simp [relinquishEvent, hg, ht, he]

theorem relinquishEvent_of_entry (he : epoch = s.custody.epoch) (hd : (domOf s domCtrl).state = .entering)
    (ha : (domOf s domCtrl).entryAt + 4 ≤ s.stb) :
    relinquishEvent epoch s = { s with custody := { s.custody with state := .relinquished, line := false } } := by
  simp [relinquishEvent, relinquishLease, hg, ht, he, hd, ha]

end

/-- Settles O38: each clause is the equation of its custody event in the swept state; the two revokes by epoch and by expiry go through the
one equation of `revokeLease`. -/
theorem custodyLease : Obligations.CustodyLease := by
  unfold Obligations.CustodyLease
  refine ⟨?due, ?valid, ?mismatch, ?ack, ?guard, ?expiry, ?revoke, ?quiet, ?quietReset, ?timeout, ?grant, ?granted, ?relinquishOther,
    ?relinquish⟩
  case due => exact fun _ hr hg hl hq hd => congrArg Host.Outcome.next (renewalDue_of_due hr hg hl hq hd)
  case valid =>
    rintro s _ epoch rfl hr hh hg ht he hx
    exact exec_event rfl (renewalAt_of_valid hr hh hg ht he hx)
  case mismatch =>
    rintro s _ epoch rfl hr hh hg ht he
    exact exec_event rfl ((renewalAt_of_otherEpoch hr hh hg ht he).trans (revokeLease_of_granted 1 hg))
  case ack =>
    rintro s _ x e rfl hr ht ha hx
    exact exec_event rfl (acknowledgement_of_sent hr ht ha hx)
  case guard =>
    rintro s _ rfl hl hd
    exact exec_event rfl (leaseGuard_of_near hl hd)
  case expiry =>
    rintro s _ rfl hg hx
    exact exec_event rfl ((leaseExpiry_of_passed hg hx).trans (revokeLease_of_granted 2 hg))
  case revoke =>
    rintro s _ n v x y z rfl hs hn hu ht hr hv hx hy hz
    exact exec_event rfl (revokeSeen_of_revoked hs hn hu ht hr hv hx hy hz)
  case quiet =>
    rintro s _ rfl hs hq ht hc hl hgf
    have hno : ¬ needsReset (sweep s) = true := by simp [needsReset_iff, hl, hgf, hc]
    exact exec_event rfl ((quietReport_of_awaited hs hq ht).trans (if_neg hno))
  case quietReset =>
    rintro s _ rfl hs hq ht hneed
    exact exec_event rfl ((quietReport_of_awaited hs hq ht).trans (if_pos ((needsReset_iff _).mpr hneed)))
  case timeout =>
    rintro s _ n rfl hs hn hd
    exact exec_event rfl (quietTimeout_of_late hs hn hd)
  case grant =>
    rintro s _ rfl ha ht hs hn hr hh
    exact exec_event rfl (grantEvent_of_asked ha ht hs hn hr hh)
  case granted =>
    intro s hw ho h3
    rw [grantLease_custody_of_idle hw ho h3]
    exact ⟨rfl, rfl, rfl, rfl⟩
  case relinquishOther =>
    rintro s _ epoch rfl hg ht he
    exact exec_event rfl (relinquishEvent_of_otherEpoch hg ht he)
  case relinquish =>
    rintro s _ epoch rfl hg ht he hd ha
    exact exec_event rfl (relinquishEvent_of_entry hg ht he hd ha)

end Sys2Proof.Machine
end

section
/-! SUPPORT. The die link, the mirrors and the time checks of packets (01 R9, R20; 02 R32 to R43): one equation for each case of each event,
and the statement that these settle. -/

namespace Sys2Proof.Machine

/- ### Flits (01 R9) -/

section
variable {s : State} {dir : Nat} {k : LinkMsg} (ht : s.dlink.trained = true) (hh : s.fault.haltLaurel = false)
include ht hh

theorem flitReceived_of_good (hd : dir < 2) (ha : armed s 0x10 dir (fun _ => true) = none) :
    flitReceived dir true k s =
      (let t : State := { s with dlink := if dir = 0 then { s.dlink with replaysGL := 0, seqGL := s.dlink.seqGL + 1 }
                                          else { s.dlink with replaysLG := 0, seqLG := s.dlink.seqLG + 1 } }
       if dir = 1 then controlMessage t k else t) := by
  simp [flitReceived, ht, hh, Nat.not_le.mpr hd, ha]

theorem flitReceived_of_bad (hd : dir < 2) (ha : armed s 0x10 dir (fun _ => true) = none) :
    flitReceived dir false k s = badFlit dir none s := by
  simp [flitReceived, ht, hh, Nat.not_le.mpr hd, ha]

/-- An injection of one bad transmission makes the flit bad, whatever its CRC says. -/
theorem flitReceived_of_armed {i : Injection} {ok : Bool} (hd : dir < 2) (ha : armed s 0x10 dir (fun _ => true) = some i)
    (hb : i.bits = 1) : flitReceived dir ok k s = badFlit dir (some i) s := by
  simp [flitReceived, ht, hh, Nat.not_le.mpr hd, ha, hb]

end

section
variable {s x : State} {dir : Nat} (hx : x = countUp (raise s (capture s 0x10 dir 0)) 0x0020 dir 1)
include hx

/-- A refusal before the eighth in a row is counted in its direction. -/
theorem badFlit_of_few (hn : (if dir = 0 then x.dlink.replaysGL else x.dlink.replaysLG) < 7) :
    badFlit dir none s = { x with dlink := if dir = 0 then { x.dlink with replaysGL := x.dlink.replaysGL + 1 }
                                           else { x.dlink with replaysLG := x.dlink.replaysLG + 1 } } := by
  subst hx
  have h8 := Nat.not_le.mpr (Nat.succ_lt_succ hn)
  cases dir with
  | zero => exact if_neg h8
  | succ _ => exact if_neg h8

/-- The eighth refusal in a row starts the retraining of the link. -/
theorem badFlit_of_eighth (hn : 7 ≤ (if dir = 0 then x.dlink.replaysGL else x.dlink.replaysLG)) :
    badFlit dir none s = raise { x with dlink := { x.dlink with
      trained := false, limitAt := some (x.stb + 8192), limitDir := dir, replaysGL := 0, replaysLG := 0 } } (capture x 0x10 dir 0) := by
  subst hx
  exact if_pos (Nat.succ_le_succ hn)

end

/- ### Control messages (01 R20, Table 1.9) -/

@[simp] theorem controlMessage_data (s : State) : controlMessage s .data = s := by
  simp [controlMessage]

section
variable {s : State} (hr : gorseRuns s = true) (hh : s.fault.haltGorse = false)
include hr hh

theorem controlMessage_control (e : U32) :
    controlMessage s (.control e) = if e = s.custody.epoch then s else revokeLease s 1 := by
  simp [controlMessage, hr, hh]

theorem controlMessage_gorseAct : controlMessage s .gorseAct = revokeLease s 3 := by
  simp [controlMessage, hr, hh]

theorem controlMessage_domainClaim {d : Nat} (hd : d < 0x10 ∨ (domOf s d).state = .entering ∨ (domOf s d).state = .returning) :
    controlMessage s (.domainClaim d) = revokeLease s 3 := by
  simp [controlMessage, hr, hh, hd]

end

/- ### Retraining (01 R9) -/

theorem retrainingAttempt_of_success {s : State} (ht : s.dlink.trained = false) (hr : s.boot.laurelReleased = true) :
    retrainingAttempt true s =
      { s with dlink := { s.dlink with trained := true, limitAt := none, replaysGL := 0, replaysLG := 0 },
               fault := { s.fault with healthAt := s.stb } } := by
  simp [retrainingAttempt, ht, hr]

@[simp] theorem retrainingAttempt_of_failure (s : State) : retrainingAttempt false s = s := by
  simp [retrainingAttempt]

theorem retrainLimit_of_passed {s x : State} {n : Nat} (hl : s.dlink.limitAt = some n) (hn : n ≤ s.stb) (ht : s.dlink.trained = false)
    (hx : x = { s with dlink := { s.dlink with limitAt := none },
                       fault := { s.fault with firstSource := if s.fault.firstSource = 0 then 0x10 else s.fault.firstSource } }) :
    retrainLimit s = revokeLease (laurelFatalWith x (capture x 0x10 x.dlink.limitDir 2)) 4 := by
  subst hx
  simp [retrainLimit, hl, ht, Nat.not_lt.mpr hn]

/- ### Mirrors and the strobe (02 R32 to R36) -/

theorem checkMessage_of_mismatch {s : State} {d : Nat} (ht : s.dlink.trained = true) (ho : domOn s d = true) (hd : 0x10 ≤ d)
    (he : s.stb % 4096 = 0) (hm : stampOf s d ≠ s.stb) :
    checkMessage d s.stb s = setMirror (raise s (capture s 0x20 d 0)) { mirrorOf s d with uncertain := true } := by
  simp [checkMessage, ht, ho, Nat.not_lt.mpr hd, he, hm]

theorem checkMessage_of_match {s : State} {d : Nat} (hm : stampOf s d = s.stb) : checkMessage d s.stb s = s := by
  simp [checkMessage, hm]

theorem exactReload_of_uncertain {s : State} {d v : Nat} (hu : (mirrorOf s d).uncertain = true) (ht : s.dlink.trained = true)
    (hv : v ≤ s.stb) : exactReload d v s = setMirror s { mirrorOf s d with offset := 0, uncertain := false } := by
  simp [exactReload, hu, ht, Nat.not_lt.mpr hv]

theorem strobeLost_of_running {s : State} {d : Nat} (ho : domOn s d = true) (hd : 0x10 ≤ d) (hp : domPresent s.fuse.part d = true) :
    strobeLost d s = laurelFatalWith s (capture s 0x1F d 2) :=
  if_pos (by simp [ho, hd, hp])

/- ### NOT_BEFORE and deadlines (02 R42, R43) -/

theorem deadlinePassed_of_overdue {s : State} {id : Nat} {c : Cmd} (hc : cmdOf s id = some c) (hr : laurelRuns s = true)
    (ho : overdue s c = true) : deadlinePassed id s = endCmd s c (deadlineStatus c.phase) := by
  simp [deadlinePassed, hc, hr, ho]

theorem deadlinePassed_of_absent {s : State} {id : Nat} (hc : cmdOf s id = none) : deadlinePassed id s = s := by
  simp [deadlinePassed, hc]

/-- Settles O39: a flit's clauses follow from what a good, a bad and an injected flit do, together with the count of its direction; each of
the others is the equation of its event in the swept state. -/
theorem dieLinkAndMirrors : Obligations.DieLinkAndMirrors := by
  unfold Obligations.DieLinkAndMirrors
  refine ⟨?goodOfGorse, ?goodOfLaurel, controlMessage_data, fun _ e hr hh => controlMessage_control hr hh e,
    fun _ hr hh => controlMessage_gorseAct hr hh, fun _ _ hr hh hd => controlMessage_domainClaim hr hh hd,
    ?badOfGorse, ?badOfLaurel, ?eighth, ?injected, ?trains, ?failed, ?limit, ?mismatch, ?agrees, ?reload, ?strobe, ?notBefore,
    fun _ _ _ hc hr ho => congrArg (fun t => Host.Outcome.next (settle t)) (deadlinePassed_of_overdue hc hr ho), ?noCommand⟩
  case goodOfGorse =>
    rintro s _ k rfl ht hh ha
    exact exec_event rfl (flitReceived_of_good ht hh (by decide) ha)
  case goodOfLaurel =>
    rintro s _ _ k rfl ht hh ha rfl
    exact exec_event rfl (flitReceived_of_good ht hh (by decide) ha)
  case badOfGorse =>
    rintro s _ x k _ rfl ht hh ha hx rfl hn
    exact exec_event rfl ((flitReceived_of_bad ht hh (by decide) ha).trans (badFlit_of_few hx hn))
  case badOfLaurel =>
    rintro s _ x k _ rfl ht hh ha hx rfl hn
    exact exec_event rfl ((flitReceived_of_bad ht hh (by decide) ha).trans (badFlit_of_few hx hn))
  case eighth =>
    rintro s _ x _ k dir rfl ht hh ha hx hd hn rfl
    exact exec_event rfl ((flitReceived_of_bad ht hh hd ha).trans (badFlit_of_eighth hx hn))
  case injected =>
    rintro s _ dir ok k i rfl ht hh hd ha hb
    exact exec_event rfl (flitReceived_of_armed ht hh hd ha hb)
  case trains =>
    rintro s _ rfl ht hr
    exact exec_event rfl (retrainingAttempt_of_success ht hr)
  case failed =>
    rintro s _ rfl
    exact exec_event rfl (retrainingAttempt_of_failure _)
  case limit =>
    rintro s _ n x rfl hl hn ht hx
    exact exec_event rfl (retrainLimit_of_passed hl hn ht hx)
  case mismatch =>
    rintro s _ d rfl ht ho hd he hm
    exact exec_event rfl (checkMessage_of_mismatch ht ho hd he hm)
  case agrees =>
    rintro s _ d rfl hm
    exact exec_event rfl (checkMessage_of_match hm)
  case reload =>
    rintro s _ d v rfl hu ht hv
    exact exec_event rfl (exactReload_of_uncertain hu ht hv)
  case strobe =>
    rintro s _ d rfl ho hd hp
    exact exec_event rfl (strobeLost_of_running ho hd hp)
  case notBefore =>
    rintro s _ id rfl hb
    exact exec_event (f := fun s => s) (congrArg Host.Outcome.next (if_pos hb)) rfl
  case noCommand =>
    intro s hc id
    have hnone : cmdOf s id = none := by simp [cmdOf, hc]
    exact congrArg (fun t => Host.Outcome.next (settle t)) (deadlinePassed_of_absent hnone)

end Sys2Proof.Machine
end

section
/-! SUPPORT. The retirement of tiles and rows, the SRAM scrub and the thermal cap (01 R12; 14 R338; 15 R364): one equation for each case of
each event, and the statement that these settle. -/

namespace Sys2Proof.Machine

/- ### Tile retirement (01 R12) -/

section
variable {s : State} {tile : Nat} (hr : gorseRuns s = true) (hh : s.fault.haltGorse = false) (hp : coppicePresent s (tile / 10) = true)
  (ht : (copTiles s (tile / 10)).retired.contains tile = false)
include hr hh hp ht

theorem tileRetirement_of_tile :
    tileRetirement tile false s = bumpMap (raise (retireTile s tile) (capture s 0x28 tile 0)) :=
  if_neg (by simp only [hr, hh, hp, ht]; decide)

theorem tileRetirement_of_row {y : State} (hn : ((copTiles s (tile / 10)).rowsUsed.filter (· == tile)).length < 2)
    (hy : y = (match (copTiles s (tile / 10)).logical.findIdx? (· == tile) with | some n => rerunOn s (tile / 10) n | none => s)) :
    tileRetirement tile true s = bumpMap (raise (setCopTiles y (tile / 10)
      { copTiles s (tile / 10) with rowsUsed := (copTiles s (tile / 10)).rowsUsed ++ [tile] }) (capture y 0x28 tile 0)) := by
  subst hy
  exact (if_neg (by simp only [hr, hh, hp, ht]; decide)).trans ((if_pos rfl).trans (if_neg (Nat.not_le.mpr hn)))

end

/- ### The SRAM scrub (14 R338) -/

/-- Only a FATAL or INTEGRITY fault has a reaction beside its record. -/
theorem react_of_recorded {s : State} {c : Capture} {gorse : Bool} (h : c.cls < 2) : react s c gorse = raiseAt s c.source c.inst c :=
  (if_neg (by omega)).trans (if_neg (by omega))

theorem react_of_fatal {s : State} {c : Capture} {gorse : Bool} (h : c.cls = 2) :
    react s c gorse = if gorse then gorseFatalWith s c else laurelFatalWith s c :=
  (if_neg (by omega)).trans (if_pos h)

theorem react_of_integrity {s : State} {c : Capture} {gorse : Bool} (h : c.cls = 3) : react s c gorse = integrityWith s c :=
  if_pos h

/-- The unit number in the record of a scrubbed line. -/
def scrubInst (reg : SramRegion) (unit : Nat) : Nat := match reg with | .tileBuffer | .coppiceBuffer => unit | _ => 0

/-- The domain whose stamp the record of a scrubbed line takes. -/
def scrubDom (reg : SramRegion) (unit : Nat) : Nat :=
  match reg with | .tileBuffer => domTile unit | .coppiceBuffer => domCop unit | .laurelControl => domCtrl | _ => 0x00

/-- Whether tenant 1 owns a scrubbed line; none for a line of the device. -/
def scrubOwner (s : State) (reg : SramRegion) (unit : Nat) : Option Bool :=
  match reg with | .tileBuffer => some (t1Coppice s (unit / 10)) | .coppiceBuffer => some (t1Coppice s unit) | _ => none

/-- The state in which a scrubbed line is recorded: a coppice buffer's line with two wrong bits is poisoned. -/
def scrubPoison (s : State) (reg : SramRegion) (unit bits addr : Nat) : State :=
  if reg = .coppiceBuffer ∧ bits = 2 then
    { s with store := { s.store with poison1 := s.store.poison1 ++ [(unit * copSize + addr % copSize) / 64] } }
  else s

/-- The record of a scrubbed line. -/
def scrubCapture (s : State) (reg : SramRegion) (unit bits addr : Nat) : Capture :=
  { (capture s 0x04 (scrubInst reg unit) (scrubClass reg bits).1).inRegion s (scrubDom reg unit) with
    address := BitVec.ofNat 64 (addr % 2 ^ 60), device := (scrubOwner s reg unit).isNone, tenant1 := scrubOwner s reg unit == some true }

section
variable (s : State) (unit bits addr : Nat)

@[simp] theorem scrubPoison_oneBit (reg : SramRegion) : scrubPoison s reg unit 1 addr = s := if_neg (by simp)

@[simp] theorem scrubPoison_tileBuffer : scrubPoison s .tileBuffer unit bits addr = s := if_neg (by simp)

theorem scrubCapture_tileBuffer :
    scrubCapture s .tileBuffer unit bits addr =
      { (capture s 0x04 unit (scrubClass .tileBuffer bits).1).inRegion s (domTile unit) with
        address := BitVec.ofNat 64 (addr % 2 ^ 60), device := false, tenant1 := t1Coppice s (unit / 10) } := by
  simp [scrubCapture, scrubInst, scrubDom, scrubOwner]

theorem scrubCapture_coppiceBuffer :
    scrubCapture s .coppiceBuffer unit bits addr =
      { (capture s 0x04 unit (scrubClass .coppiceBuffer bits).1).inRegion s (domCop unit) with
        address := BitVec.ofNat 64 (addr % 2 ^ 60), device := false, tenant1 := t1Coppice s unit } := by
  simp [scrubCapture, scrubInst, scrubDom, scrubOwner]

/-- A line outside the buffers is the device's, and its record names unit 0. -/
theorem scrubCapture_device {reg : SramRegion} (ht : reg ≠ .tileBuffer) (hc : reg ≠ .coppiceBuffer) :
    scrubInst reg unit = 0 ∧ scrubCapture s reg unit bits addr =
      { (capture s 0x04 0 (scrubClass reg bits).1).inRegion s (if reg = .laurelControl then domCtrl else 0x00) with
        address := BitVec.ofNat 64 (addr % 2 ^ 60), device := true, tenant1 := false } := by
  cases reg with
  | tileBuffer => exact absurd rfl ht
  | coppiceBuffer => exact absurd rfl hc
  | laurelControl | gorse | gateBoundary | rootEngine => exact ⟨rfl, rfl⟩

end

section
variable {s : State} {reg : SramRegion} {unit bits addr : Nat} (hs : scrubRuns s reg unit = true) (hi : s.fault.integrity = false)
include hs hi

/-- A scrubbed line with one or two wrong bits is recorded with the reaction of its class. -/
theorem sramScrub_of_error (hb : bits = 1 ∨ bits = 2) :
    sramScrub reg unit bits addr s = react (scrubPoison s reg unit bits addr)
      (scrubCapture (scrubPoison s reg unit bits addr) reg unit bits addr) (scrubClass reg bits).2 := by
  have h0 : bits ≠ 0 := by omega
  have h2 : ¬ 2 < bits := by omega
  exact if_neg (by simp [hs, hi, h0, h2])

/-- One wrong bit is corrected and recorded. -/
theorem sramScrub_of_oneBit : sramScrub reg unit 1 addr s = raiseAt s 0x04 (scrubInst reg unit) (scrubCapture s reg unit 1 addr) := by
  rw [sramScrub_of_error hs hi (.inl rfl), scrubPoison_oneBit]
  exact react_of_recorded Nat.two_pos

end

section
variable {s : State} {unit addr : Nat} (hi : s.fault.integrity = false)
include hi

/-- Two wrong bits in a buffer are contained. -/
theorem sramScrub_of_buffer {reg : SramRegion} (hs : scrubRuns s reg unit = true) (hr : reg = .tileBuffer ∨ reg = .coppiceBuffer) :
    sramScrub reg unit 2 addr s = raiseAt (scrubPoison s reg unit 2 addr) 0x04 unit
      (scrubCapture (scrubPoison s reg unit 2 addr) reg unit 2 addr) := by
  rw [sramScrub_of_error hs hi (.inr rfl)]
  rcases hr with rfl | rfl <;> exact react_of_recorded Nat.one_lt_two

theorem sramScrub_of_laurelControl (hs : scrubRuns s .laurelControl unit = true) :
    sramScrub .laurelControl unit 2 addr s = laurelFatalWith s (scrubCapture s .laurelControl unit 2 addr) :=
  (sramScrub_of_error hs hi (.inr rfl)).trans (react_of_fatal rfl)

theorem sramScrub_of_gorse (hs : scrubRuns s .gorse unit = true) :
    sramScrub .gorse unit 2 addr s = gorseFatalWith s (scrubCapture s .gorse unit 2 addr) :=
  (sramScrub_of_error hs hi (.inr rfl)).trans (react_of_fatal rfl)

/-- Two wrong bits at the gate boundary or in ROOT are an INTEGRITY fault. -/
theorem sramScrub_of_integrity {reg : SramRegion} (hs : scrubRuns s reg unit = true) (hr : reg = .gateBoundary ∨ reg = .rootEngine) :
    sramScrub reg unit 2 addr s = integrityWith s (scrubCapture s reg unit 2 addr) := by
  rw [sramScrub_of_error hs hi (.inr rfl)]
  rcases hr with rfl | rfl <;> exact react_of_integrity rfl

end

/- ### The thermal cap (00 R5, 15 R364) -/

theorem junctionOk_iff (s : State) (t : Int) : junctionOk s t = true ↔ (if s.fuse.gradeE then -40 else -10) ≤ t ∧ t ≤ 105 := by
  simp [junctionOk]

theorem exec_thermalCap_of_inRange {s : State} {t : Int} (hr : s.boot.inReset = false) (hl : (if s.fuse.gradeE then -40 else -10) ≤ t)
    (hh : t ≤ 105) : exec (.thermalCap t) s = .next (thermalCap t s) :=
  (if_neg (by simp [hr])).trans (if_pos ((junctionOk_iff s t).mpr ⟨hl, hh⟩))

theorem exec_thermalCap_of_outOfRange {s : State} {t : Int} (hr : s.boot.inReset = false)
    (ho : 105 < t ∨ t < (if s.fuse.gradeE then -40 else -10)) : exec (.thermalCap t) s = .fault .junctionOutOfRange :=
  (if_neg (by simp [hr])).trans (if_neg (by rw [junctionOk_iff]; omega))

theorem lowestJunction_le (s : State) : (if s.fuse.gradeE then (-40 : Int) else -10) ≤ -10 := by
  split <;> decide

theorem thermalCap_of_hot {s : State} {t : Int} (h : 100 ≤ t) : thermalCap t s = { s with power := { s.power with cap := true } } := by
  simp [thermalCap, h]

theorem thermalCap_of_cool {s : State} {t : Int} (h : t < 95) : thermalCap t s = { s with power := { s.power with cap := false } } := by
  simp [thermalCap, h, show ¬ 100 ≤ t by omega]

theorem thermalCap_of_between {s : State} {t : Int} (hl : 95 ≤ t) (hh : t < 100) : thermalCap t s = s := by
  simp [thermalCap, Int.not_le.mpr hh, Int.not_lt.mpr hl]

/-- Settles O42: the scrub's clauses are the reaction of each region's class to its record, the others the equations of the retirement and
of the cap on either side of its thresholds. -/
theorem retirementScrubAndThermalCap : Obligations.RetirementScrubAndThermalCap := by
  unfold Obligations.RetirementScrubAndThermalCap
  refine ⟨?tile, ?row, ?tileOne, ?coppiceOne, ?deviceOne, ?coppiceTwo, ?tileTwo, ?laurelTwo, ?gorseTwo, ?integrityTwo,
    ?hot, ?cool, ?between, fun _ _ hr ho => exec_thermalCap_of_outOfRange hr ho⟩
  case tile =>
    rintro s _ tile rfl hr hh hp ht
    exact exec_event rfl (tileRetirement_of_tile hr hh hp ht)
  case row =>
    rintro s _ y tile _ rfl hr hh hp rfl ht hn hy
    exact exec_event rfl (tileRetirement_of_row hr hh hp ht hn hy)
  case tileOne =>
    rintro s _ unit addr rfl hs hi
    rw [exec_event rfl (sramScrub_of_oneBit hs hi), scrubCapture_tileBuffer]
    rfl
  case coppiceOne =>
    rintro s _ unit addr rfl hs hi
    rw [exec_event rfl (sramScrub_of_oneBit hs hi), scrubCapture_coppiceBuffer]
    rfl
  case deviceOne =>
    rintro s _ reg unit addr rfl hs hi hnt hnc
    obtain ⟨hinst, hrecord⟩ := scrubCapture_device (sweep s) unit 1 addr hnt hnc
    rw [exec_event rfl (sramScrub_of_oneBit hs hi), hinst, hrecord]
    rfl
  case coppiceTwo =>
    rintro s _ unit addr _ rfl hs hi rfl
    rw [exec_event rfl (sramScrub_of_buffer hi hs (.inr rfl)), scrubCapture_coppiceBuffer]
    rfl
  case tileTwo =>
    rintro s _ unit addr rfl hs hi
    rw [exec_event rfl (sramScrub_of_buffer hi hs (.inl rfl)), scrubPoison_tileBuffer, scrubCapture_tileBuffer]
    rfl
  case laurelTwo =>
    rintro s _ unit addr rfl hs hi
    exact exec_event rfl (sramScrub_of_laurelControl hi hs)
  case gorseTwo =>
    rintro s _ unit addr rfl hs hi
    exact exec_event rfl (sramScrub_of_gorse hi hs)
  case integrityTwo =>
    rintro s _ reg unit addr rfl hs hi hr
    rw [exec_event rfl (sramScrub_of_integrity hi hs hr)]
    rcases hr with rfl | rfl <;> rfl
  case hot =>
    intro s t hr hl hh h
    rw [exec_thermalCap_of_inRange hr hl hh, thermalCap_of_hot h]
  case cool =>
    intro s t hr hl h
    rw [exec_thermalCap_of_inRange hr hl (by omega), thermalCap_of_cool h]
  case between =>
    intro s t hr hl hh
    have := lowestJunction_le s
    rw [exec_thermalCap_of_inRange hr (by omega) (by omega), thermalCap_of_between hl hh]

end Sys2Proof.Machine
end

section
/-! SUPPORT. Time (02 R27 to R30, R44): low-32 values and their expansion, the tick of an idle step, the deadline checks at a packet's fetch, and
the statements that these settle. -/

namespace Sys2Proof.Machine

/- ### Low-32 values (02 R29, R30) -/

theorem low32Diff_bounds (a b : U32) : -(2 ^ 31 : Int) ≤ low32Diff a b ∧ low32Diff a b < 2 ^ 31 :=
  ⟨BitVec.le_toInt (a - b), BitVec.toInt_lt⟩

theorem low32Diff_eq_zero_iff (a b : U32) : low32Diff a b = 0 ↔ a = b := by
  unfold low32Diff
  rw [← BitVec.toInt_zero (w := 32), BitVec.toInt_inj]
  exact sub_eq_zero

theorem expand32_sub (x : U32) (n : Nat) : expand32 x n - n = low32Diff x (BitVec.ofNat 32 n) := by
  unfold expand32
  omega

/-- An expansion has the expanded value as its low half. -/
theorem ofInt_expand32 (x : U32) (n : Nat) : BitVec.ofInt 32 (expand32 x n) = x := by
  rw [expand32, low32Diff, BitVec.ofInt_add, BitVec.ofInt_natCast, BitVec.ofInt_toInt, add_sub_cancel]

theorem expand32_emod (x : U32) (n : Nat) : expand32 x n % 2 ^ 32 = (x.toNat : Int) := by
  have h := congrArg BitVec.toNat (ofInt_expand32 x n)
  rw [BitVec.toNat_ofInt] at h
  omega

theorem expandedNb_of_flag {s : State} {p : Packet} (h : flag p 0 = true) : expandedNb s p = some (expand32 p.notBefore (ctrlStamp s)) :=
  if_pos h

theorem expandedDl_of_flag {s : State} {p : Packet} (h : flag p 1 = true) : expandedDl s p = some (expand32 p.deadline (ctrlStamp s)) :=
  if_pos h

/-- Settles O8: the signed difference of two low-32 values has 32 bits, is 0 only for equal values, and added to its reference gives back
the low half. -/
theorem lowHalfExpansion : Obligations.LowHalfExpansion := by
  unfold Obligations.LowHalfExpansion
  refine ⟨?expansion, fun _ _ => expandedNb_of_flag, fun _ _ => expandedDl_of_flag, ?half, low32Diff_eq_zero_iff⟩
  case expansion =>
    intro x n
    obtain ⟨hlo, hhi⟩ := low32Diff_bounds x (BitVec.ofNat 32 n)
    rw [expand32_sub]
    exact ⟨hlo, hhi, expand32_emod x n⟩
  case half =>
    intro a b h
    rw [low32Diff, h]
    decide

/- ### The tick of an idle step (02 R27, R28) -/

theorem step_of_idle {s : State} (h : s.pending = []) : step s = .next (stbTick s) := by
  unfold step
  rw [h]

theorem stbTick_of_inReset {s : State} (h : s.boot.inReset = true) : stbTick s = s :=
  if_pos h

theorem stbTick_of_running {s : State} (h : s.boot.inReset = false) : stbTick s = settle (tickWork s) :=
  if_neg (by simp [h])

theorem startWindow_of_none {s : State} (h : s.power.nextLimit = none) : startWindow s = s := by
  unfold startWindow
  rw [h]

theorem startWindow_of_inside {s : State} (h : s.stb % 30720 ≠ 0) : startWindow s = s := by
  unfold startWindow
  split
  · exact if_neg h
  · rfl

theorem startWindow_of_start {s : State} {n : Nat} (hn : s.power.nextLimit = some n) (h : s.stb % 30720 = 0) :
    startWindow s = { s with power := { s.power with limit := n, nextLimit := none } } := by
  unfold startWindow
  rw [hn]
  exact if_pos h

theorem traceDrain_of_nil {s : State} (h : s.obs.trace0.staged = []) : traceDrain s = s :=
  if_pos (by simp [h])

theorem portDrain_of_nil {s : State} (h : s.obs.trace1.staged = []) : portDrain s = s :=
  if_pos (by simp [h])

theorem workUnits_of_nil {s : State} (h : s.cmds = []) : workUnits s = s := by
  unfold workUnits
  split
  · rfl
  · rw [h]
    rfl

theorem tickPins_vibFs (p : Pins) (t : Nat) : (tickPins p t).vibFs = true ↔ p.vibBclk ≠ 0 ∧ t % 192 < 3 := by
  simp [tickPins]

theorem tickPins_pdmBRose (p : Pins) (t : Nat) : (tickPins p t).pdmBRose = true ↔ p.pdmClkB ≠ 0 := by
  simp [tickPins]

theorem tickPins_pdmARose (p : Pins) (t : Nat) :
    (tickPins p t).pdmARose = true ↔ p.pdmClkA ≠ 0 ∧ (p.pdmClkA ≠ 768 ∨ t % 4 = 0) := by
  simp [tickPins]

/-- Settles O2: an idle step is `stbTick`, which is the identity in reset and else settles the tick's work; the other clauses are the equation
of each part of that work where it has nothing to do, of the window's start, and of the three audio clocks. -/
theorem idleStepIsOneTick : Obligations.IdleStepIsOneTick := by
  unfold Obligations.IdleStepIsOneTick
  refine ⟨?inReset, ?running, fun _ => startWindow_of_none, fun _ => startWindow_of_inside, fun _ _ => startWindow_of_start,
    fun _ => traceDrain_of_nil, fun _ => portDrain_of_nil, fun _ => workUnits_of_nil, tickPins_vibFs, tickPins_pdmBRose, tickPins_pdmARose⟩
  case inReset =>
    intro s hp hr
    rw [step_of_idle hp, stbTick_of_inReset hr]
  case running =>
    rintro s _ hp hr rfl
    rw [step_of_idle hp, stbTick_of_running hr]
    rfl

/- ### A packet's row (05 R112, Table 5.11) -/

/-- Every packet row is the fetch of its packet. -/
theorem exec_packetRow {i : Instr} {op : Op} {opc : Nat} {p : Packet} (s : State) (h : packetRow i = some (op, opc, p)) :
    exec i s = .next (fetchRow op opc p s) := by
  cases i
  case badOpcode opc' p' =>
    simp only [packetRow] at h
    split at h
    · cases h
    · rename_i hd
      cases h
      exact congrArg Host.Outcome.next (if_neg hd)
  all_goals cases h
  all_goals rfl

theorem fetchRow_of_canFetch {op : Op} {opc : Nat} {p : Packet} {s : State} (h : canFetch s p.ring = true) :
    fetchRow op opc p s = settleLate (fetchPacket op opc p (sweepOld s)) :=
  if_pos h

/-- A packet that authenticates, has a readable block and fails a check completes with that check's status. -/
theorem fetchPacket_of_failed {op : Op} {opc : Nat} {p q : Packet} {u : State} {body block : List Byte} {c : Cmd} {st : Status}
    (hq : q = { p with body := fitBytes (bodyLen (fnOfRing u p.ring)) p.body })
    (ha : authenticate u (fnOfRing u p.ring) op opc q = some body)
    (hb : openBlock u (fnOfRing u p.ring == .pf1 && flag q 5) { q with body := body } = .ok block)
    (hc : c = cmdOfPacket u op q true body block) (hf : fetchStatus u c none = some st) :
    fetchPacket op opc p u = complete (takePacket u c opc true) c st (if st = .privacyBlock then blockedResult u c else []) := by
  subst hq hc
  simp only [fetchPacket, ha, hb, hf]

/- ### The deadline checks at the fetch (02 R44) -/

theorem check5_of_notBefore_late {fn : Fn} {op : Op} {p : Packet} {body : List Byte} {n d : Int} (h : d < n) :
    check5 fn op p body (some n) (some d) = false := by
  simp [check5, Int.not_le.mpr h]

theorem check4_holds {c : Cmd} (h : sessionFree c.op = true ∨ c.session ≠ 0) : (!sessionFree c.op && c.session == 0) = false := by
  rcases h with h | h <;> simp [h]

section
variable {s : State} {c : Cmd} (hop : c.op ≠ .badOpcode) (hal : opAllowed s c.fn c.op = true) (hun : unitAbsent s c = false)
  (hse : sessionFree c.op = true ∨ c.session ≠ 0)
include hop hal hun hse

/-- Past checks 2 to 4, a packet that fails check 5 has the status of that check. -/
theorem fetchStatus_of_check5_false (e : Option Status)
    (h5 : check5 c.fn c.op c.pkt c.pkt.body (expandedNb s c.pkt) (expandedDl s c.pkt) = false) :
    fetchStatus s c e = some .badParam := by
  simp only [fetchStatus, hop, hal, hun, check4_holds hse, h5]
  rfl

/-- Past checks 2 to 5, a packet whose deadline is past has the status of check 6. -/
theorem fetchStatus_of_past (e : Option Status) {d : Int}
    (h5 : check5 c.fn c.op c.pkt c.pkt.body (expandedNb s c.pkt) (expandedDl s c.pkt) = true) (hd : expandedDl s c.pkt = some d)
    (hlt : d < (ctrlStamp s : Int)) : fetchStatus s c e = some .deadlineMissed := by
  rw [hd] at h5
  simp only [fetchStatus, hop, hal, hun, check4_holds hse, hd, h5, hlt]
  rfl

end

/-- Settles O7: a past deadline is check 6 and a `NOT_BEFORE` later than the deadline fails check 5; neither status is that of a privacy
block, so the completion of the failed packet has no result. -/
theorem deadlinesAtFetch : Obligations.DeadlinesAtFetch := by
  unfold Obligations.DeadlinesAtFetch
  refine ⟨?past, ?late, ?row⟩
  case past =>
    intro s c e d hop hal hun hse h5 hd hlt
    exact fetchStatus_of_past hop hal hun hse e h5 hd hlt
  case late =>
    intro s c e n d hop hal hun hse hn hd hlt
    have h5 : check5 c.fn c.op c.pkt c.pkt.body (expandedNb s c.pkt) (expandedDl s c.pkt) = false := by
      rw [hn, hd, check5_of_notBefore_late hlt]
    exact fetchStatus_of_check5_false hop hal hun hse e h5
  case row =>
    rintro i op opc p q s _ body block c st hrow hcan rfl hq ha hb hc hf hst
    have hne : st ≠ .privacyBlock := by rcases hst with rfl | rfl <;> decide
    rw [exec_packetRow s hrow, fetchRow_of_canFetch hcan, fetchPacket_of_failed hq ha hb hc hf, if_neg hne]

end Sys2Proof.Machine
end

section
/-! SUPPORT. The wake path and its commands (03 R56 to R73): one equation for each case of a wake, of a held change, of `LISTEN_POLICY`,
`WAKE_ARM` and `AUDIO_READ`, and the statements that these settle. -/

namespace Sys2Proof.Machine

/- ### Wakes (03 R59, R63) -/

section
variable {s : State} (hl : listens s = true) (hp : s.listen.priv = false) (src : WakeSource) (release dir : Nat) (p : ListenPolicy)
include hl hp

/-- Where Gorse listens and PRIVACY is clear, a wake depends on one under way alone. -/
theorem wake_guard : ¬ (!listens s || s.listen.priv) = true := by
  simp [hl, hp]

theorem wake_of_underWay (hw : wakeUnderWay s = true) :
    wake s src release p dir = { s with listen := { s.listen with extraWakes := min (s.listen.extraWakes + 1) 65535 } } :=
  (if_neg (wake_guard hl hp)).trans (if_pos hw)

theorem wake_of_idle {x : State} (hw : wakeUnderWay s = false)
    (hx : x = { s with listen := { dropBefore release s.listen with
      wakeId := s.listen.wakeId + 1, lastSource := src, wakePending := true, wakeDecided := some release, release := release,
      candidate := none, closedAt := if s.listen.candidate.isSome then some s.stb else s.listen.closedAt, wokeAt := some s.stb,
      stage3 := true, wakePolicy := p, direction := dir, overMain := 0, over48 := 0, start48 := 0, endOfTurnAt := none,
      closeDue := false } }) :
    wake s src release p dir = requestStage3 (raiseAudio (assertPewake x)) := by
  subst hx
  exact (if_neg (wake_guard hl hp)).trans (if_neg (by simp [hw]))

end

/- ### Held changes (03 R56, R69, R70) -/

theorem holdOver_of_noCandidate {s : State} (c : Cmd) (hc : s.listen.candidate = none) (hn : s.listen.closedAt ≠ some s.stb) :
    holdOver s c = true := by
  simp [holdOver, candidateHeld, hc, hn]

theorem holdOver_of_candidate {s : State} {c : Cmd} {t : Nat} (hc : s.listen.candidate = some t) (ha : s.listen.candAt ≤ c.startStamp)
    (hd : s.stb < c.startStamp + 6144000) : holdOver s c = false := by
  simp [holdOver, candidateHeld, candidateTicks, hc, ha, Nat.not_le.mpr hd]

theorem applyHeld_of_waiting {s : State} {c : Cmd} (h : holdOver s c = false) : applyHeld s c = s :=
  if_pos (by simp [h])

theorem applyHeld_listenPolicy {s : State} {c : Cmd} (h : holdOver s c = true) (ho : c.op = .listenPolicy) :
    applyHeld s c = complete { s with listen := { s.listen with policy := askedPolicy c, armed := (askedPolicy c).sources } } c .ok
      (natLe 8 s.stb) := by
  unfold applyHeld
  rw [if_neg (by simp [h]), ho]

theorem subsetArmed_iff (s : State) (c : Cmd) : subsetArmed s c = true ↔ arg c 25 1 &&& s.listen.policy.sources.toNat = arg c 25 1 := by
  simp [subsetArmed]

theorem applyHeld_wakeArm {s : State} {c : Cmd} (h : holdOver s c = true) (ho : c.op = .wakeArm) (hs : subsetArmed s c = true) :
    applyHeld s c = complete { s with listen := { s.listen with armed := BitVec.ofNat 3 (arg c 25 1) } } c .ok (armResult s) := by
  unfold applyHeld
  rw [if_neg (by simp [h]), ho]
  exact if_neg (by simp [hs])

/-- Settles O44: a wake is split on whether one is under way, a held change on whether its hold is over and on its opcode. -/
theorem wakesAndPoliciesTakeEffect : Obligations.WakesAndPoliciesTakeEffect := by
  unfold Obligations.WakesAndPoliciesTakeEffect
  refine ⟨fun _ src r d p hl hp hw => wake_of_underWay hl hp src r d p hw,
    fun _ _ src r d p hl hp hw hx => wake_of_idle hl hp src r d p hw hx,
    fun _ _ => applyHeld_listenPolicy, ?arm, fun _ _ => applyHeld_of_waiting, fun _ c => holdOver_of_noCandidate c,
    fun _ _ _ => holdOver_of_candidate⟩
  case arm =>
    intro s c h ho hs
    exact applyHeld_wakeArm h ho ((subsetArmed_iff s c).mpr hs)

/- ### The start of a packet's command -/

/-- The row of a packet that starts at its fetch ends as its command's body does. -/
theorem exec_start {i : Instr} {op : Op} {opc : Nat} {p : Packet} {s w t : State} {c : Cmd} (hrow : packetRow i = some (op, opc, p))
    (h : startOf op opc p s = some (c, w)) (hrun : c.op = op → runCmd c w = t) : exec i s = .next (ensuing t) := by
  rw [exec_packetRow s hrow, fetchRow_runs h, hrun (startOf_op h)]

section
variable {s : State} {c : Cmd}

theorem runCmd_listenPolicy (h : c.op = .listenPolicy) : runCmd c s = runListenPolicy c s := by
  unfold runCmd
  rw [h]

theorem runCmd_wakeArm (h : c.op = .wakeArm) : runCmd c s = runWakeArm c s := by
  unfold runCmd
  rw [h]

theorem runCmd_audioRead (h : c.op = .audioRead) : runCmd c s = runAudioRead c s := by
  unfold runCmd
  rw [h]

end

section
variable {p : Packet} {s w t : State} {c : Cmd}

theorem exec_wakeArm_of_start (h : startOf .wakeArm 0x61 p s = some (c, w)) (hrun : runWakeArm c w = t) :
    exec (.wakeArm p) s = .next (ensuing t) :=
  exec_start rfl h (fun ho => (runCmd_wakeArm ho).trans hrun)

theorem exec_audioRead_of_start (h : startOf .audioRead 0x62 p s = some (c, w)) (hrun : runAudioRead c w = t) :
    exec (.audioRead p) s = .next (ensuing t) :=
  exec_start rfl h (fun ho => (runCmd_audioRead ho).trans hrun)

end

/- ### LISTEN_POLICY and WAKE_ARM (03 R69, R70) -/

theorem runListenPolicy_of_priv {s : State} (c : Cmd) (hp : s.listen.priv = true) : runListenPolicy c s = complete s c .privacyBlock :=
  if_pos hp

theorem runListenPolicy_of_open {s : State} (c : Cmd) (hp : s.listen.priv = false) : runListenPolicy c s = park s c .policyHold :=
  if_neg (by simp [hp])

theorem runWakeArm_of_priv {s : State} (c : Cmd) (hp : s.listen.priv = true) : runWakeArm c s = complete s c .privacyBlock :=
  if_pos hp

section
variable {s : State} {c : Cmd} (hp : s.listen.priv = false)
include hp

/-- `WAKE_ARM` with `ACTION` 0 and a subset of the policy's sources has nothing to do where these are armed already. -/
theorem runWakeArm_of_sources (ha : arg c 24 1 = 0) (hs : subsetArmed s c = true) :
    runWakeArm c s = if arg c 25 1 = s.listen.armed.toNat then complete s c .ok (armResult s) else park s c .policyHold := by
  simp [runWakeArm, hp, ha, hs]

theorem runWakeArm_of_manual {x : State} (ha : arg c 24 1 = 1) (hh : s.fault.haltGorse = false) (hm : s.listen.armed.getLsbD 2 = true)
    (hx : x = wake s .manual (boundaryAfter s.stb) s.listen.policy 0xFFFF) :
    runWakeArm c s = complete x c .ok
      (natLe 8 x.listen.release ++ natLe 2 x.listen.wakeId.toNat ++ natLe 1 (b2n (wakeUnderWay s))) := by
  simp [runWakeArm, hp, ha, hh, hm, hx]

end

/- ### AUDIO_READ (03 R71 to R73) -/

theorem runAudioRead_of_priv {s : State} (c : Cmd) (hp : s.listen.priv = true) :
    runAudioRead c s = complete s c .privacyBlock (audioResult s c) :=
  if_pos hp

section
variable {s : State} {c : Cmd} (hp : s.listen.priv = false) (hr : audioRate c = 1 → (audioPolicy s).arrayRate ≠ 0)
  (hn : arg c 31 1 * audioRecord s c ≤ arg c 44 4)
include hp hr hn

/-- A read whose rate is recorded and whose buffer is large enough begins at an open gate; at a closed one it waits, or is blocked. -/
theorem runAudioRead_of_params :
    runAudioRead c s = if s.listen.gateOpen then beginAudio c false s
      else if audioWaits c then setCmd s { c with phase := .parked .gateOpen, res := audioResult s c }
      else complete s c .privacyBlock (audioResult s c) := by
  have hbad : ¬ ((audioRate c = 1 ∧ (audioPolicy s).arrayRate = 0) ∨ arg c 44 4 < arg c 31 1 * audioRecord s c) := by
    rintro (⟨h1, h0⟩ | hlt)
    · exact hr h1 h0
    · exact absurd hlt (Nat.not_lt.mpr hn)
  exact (if_neg (by simp [hp])).trans (if_neg hbad)

end

section
variable {s : State} {c : Cmd} {r : State × Cmd} (hr : r = (audioReady s c).foldl writeAudio (s, c))
include hr

theorem pumpAudio_of_done (h : arg c 31 1 ≤ r.2.cnt ∨ audioWaits c = false) : pumpAudio c s = finishAudio r.1 r.2 := by
  subst hr
  exact if_pos h

theorem pumpAudio_of_short {d : Cmd} (hn : r.2.cnt < arg c 31 1) (hw : audioWaits c = true)
    (hd : d = { r.2 with phase := .parked .frames }) :
    pumpAudio c s = setCmd r.1 { d with res := audioResult r.1 d } := by
  subst hr hd
  exact if_neg (by simp [hw, hn])

end

/- ### The privacy block at the fetch (03 R66; 05 Table 5.11) -/

theorem privBlocked_iff (op : Op) :
    privBlocked op = true ↔ op = .audioRead ∨ op = .frameRead ∨ op = .listenPolicy ∨ op = .wakeArm := by
  simp [privBlocked, or_assoc]

/-- A command that PRIV_N blocks has a defined opcode and needs a session. -/
theorem defined_of_privBlocked {op : Op} (h : privBlocked op = true) : op ≠ .badOpcode ∧ sessionFree op = false := by
  rcases (privBlocked_iff op).mp h with rfl | rfl | rfl | rfl <;> decide

/-- Past the other checks, a command that PRIV_N blocks fails its fetch while PRIVACY is set. -/
theorem fetchStatus_of_privBlocked {s : State} {c : Cmd} (hb : privBlocked c.op = true) (hp : s.listen.priv = true)
    (hal : opAllowed s c.fn c.op = true) (hun : unitAbsent s c = false) (hse : c.session ≠ 0)
    (h5 : check5 c.fn c.op c.pkt c.pkt.body (expandedNb s c.pkt) (expandedDl s c.pkt) = true)
    (hd : ∀ d, expandedDl s c.pkt = some d → (ctrlStamp s : Int) ≤ d) (h7 : paramsOk s c = true) :
    fetchStatus s c none = some .privacyBlock := by
  obtain ⟨hop, hfree⟩ := defined_of_privBlocked hb
  have hlate : (match expandedDl s c.pkt with | some d => decide (d < (ctrlStamp s : Int)) | none => false) = false := by
    cases h : expandedDl s c.pkt with
    | none => rfl
    | some d => exact decide_eq_false (Int.not_lt.mpr (hd d h))
  have hsess : (!sessionFree c.op && c.session == 0) = false := by simp [hse]
  unfold fetchStatus
  rw [if_neg hop, if_neg (by simp [hal, hun]), if_neg (by simp [hsess]), if_neg (by simp [h5])]
  refine (if_neg (ne_true_of_eq_false hlate)).trans ?_
  simp [h7, hb, hp]

/-- Settles O21: each row is the case of its command's body in the state of the start; the reads' clauses are the two ends of
`pumpAudio`, and the privacy block at the fetch is the last of the fetch checks. -/
theorem listeningCommandsComplete : Obligations.ListeningCommandsComplete := by
  unfold Obligations.ListeningCommandsComplete
  refine ⟨?policy, fun _ _ => fetchStatus_of_privBlocked, ?armed, ?arm, ?manual,
    fun _ c hp => ⟨runListenPolicy_of_priv c hp, runWakeArm_of_priv c hp⟩, ?read, ?readWaits, ?readBlocked,
    fun _ c hp => runAudioRead_of_priv c hp, fun _ _ _ => pumpAudio_of_done,
    fun _ _ _ _ hr hn hw hd => pumpAudio_of_short hr hn hw hd, ?finish⟩
  case policy =>
    intro p s w c h hp
    exact exec_start rfl h (fun ho => (runCmd_listenPolicy ho).trans (runListenPolicy_of_open c hp))
  case armed =>
    intro p s w c h hp ha hs hv
    exact exec_wakeArm_of_start h ((runWakeArm_of_sources hp ha ((subsetArmed_iff w c).mpr hs)).trans (if_pos hv))
  case arm =>
    intro p s w c h hp ha hs hv
    exact exec_wakeArm_of_start h ((runWakeArm_of_sources hp ha ((subsetArmed_iff w c).mpr hs)).trans (if_neg hv))
  case manual =>
    intro p s w c x h hp ha hh hm hx
    exact exec_wakeArm_of_start h (runWakeArm_of_manual hp ha hh hm hx)
  case read =>
    rintro p s w c _ _ h hp hr hn hg rfl rfl
    exact exec_audioRead_of_start h ((runAudioRead_of_params hp hr hn).trans (if_pos hg))
  case readWaits =>
    intro p s w c h hp hr hn hg hw
    exact exec_audioRead_of_start h ((runAudioRead_of_params hp hr hn).trans ((if_neg (by simp [hg])).trans (if_pos hw)))
  case readBlocked =>
    intro p s w c h hp hr hn hg hw
    exact exec_audioRead_of_start h ((runAudioRead_of_params hp hr hn).trans ((if_neg (by simp [hg])).trans (if_neg (by simp [hw]))))
  case finish =>
    rintro s _ c rfl
    rfl

end Sys2Proof.Machine
end

section
/-! SUPPORT. The events of listening (03 R51 to R67): one equation for each case of each event, and the statement that these settle. -/

namespace Sys2Proof.Machine

/- ### PRIV_N (03 R65 to R67) -/

theorem privNLow_of_inReset {s : State} (h : s.boot.inReset = true) : privNLow s = { s with pins := { s.pins with privN := false } } :=
  if_pos h

theorem privNLow_of_running {s x y z : State} (h : s.boot.inReset = false)
    (hx : x = zeroStores (wipeAudio (withdrawWake (forceSensors
      { s with listen := { s.listen with priv := true, privLowAt := s.stb, privReturn := false } }))))
    (hy : y = markReads { x with cam0 := privCam x.cam0, cam1 := privCam x.cam1 })
    (hz : z = killImages y ((y.cmds.filter (fun c => readsFrames 0 c || readsFrames 1 c)).map (·.id))) :
    privNLow s = endAll z ((z.cmds.filter privEnds).map (·.id)) .privacyBlock := by
  subst hx hy hz
  exact if_neg (by simp [h])

theorem privNRelease_of_high {s : State} (hr : s.boot.inReset = false) (hp : s.listen.priv = true)
    (hd : s.listen.privLowAt + 61440 ≤ s.stb) :
    privNRelease s = { s with pins := { s.pins with privN := true },
                              listen := { s.listen with priv := false, privReturn := true, privLowAt := s.stb } } :=
  (if_neg (by simp [hr])).trans (if_neg (by simp [hp, hd]))

theorem privNRelease_of_early {s : State} (hr : s.boot.inReset = false)
    (h : s.listen.priv = false ∨ s.stb < s.listen.privLowAt + 61440) : privNRelease s = s :=
  (if_neg (by simp [hr])).trans (if_pos (by simpa using h))

/- ### TALK_N (03 R59, R63) -/

theorem talkNPress_of_early {s : State} {t : Nat} (h : s.stb < t + 15360) : talkNPress t s = s :=
  if_pos (by simp [debounce, h])

/-- The frames of a ring with `END_OF_TURN` on the one that begins at a stamp. -/
def markEndOfTurn (stamp : Nat) (l : List AudioFrame) : List AudioFrame :=
  l.map (fun f => if f.stamp = stamp then { f with endOfTurn := true } else f)

section
variable {s : State} {t : Nat} (hr : s.boot.inReset = false) (hd : t + 15360 ≤ s.stb)
include hr hd

/-- A debounced press of a released TALK_N: the pin falls, and PRIVACY and the armed sources say what it does. -/
theorem talkNPress_of_debounced (hn : s.pins.talkN = true) :
    talkNPress t s =
      (if s.listen.priv then
        { s with pins := { s.pins with talkN := false },
                 listen := { s.listen with privPresses := min (s.listen.privPresses + 1) 65535 } }
      else if s.listen.armed.getLsbD 1 then
        wake { s with pins := { s.pins with talkN := false } } .talk (boundaryAfter t) s.listen.policy 0xFFFF
      else { s with pins := { s.pins with talkN := false } }) :=
  if_neg (by simp [debounce, hr, Nat.not_lt.mpr hd, hn])

/-- A debounced release of a pressed TALK_N: the pin rises, and with the gate open the frame of the release ends the turn. -/
theorem talkNRelease_of_debounced (hn : s.pins.talkN = false) :
    talkNRelease t s =
      (if !s.listen.gateOpen then { s with pins := { s.pins with talkN := true } }
      else
        { s with pins := { s.pins with talkN := true },
                 listen := { s.listen with
                   frames := markEndOfTurn (t / 30720 * 30720) s.listen.frames,
                   frames48 := markEndOfTurn (t / 30720 * 30720) s.listen.frames48,
                   endOfTurnAt := if s.listen.frames.any (fun f => f.stamp == t / 30720 * 30720) then s.listen.endOfTurnAt
                                  else some (t / 30720 * 30720) } }) :=
  if_neg (by simp [debounce, hr, Nat.not_lt.mpr hd, hn])

end

/- ### Frame boundaries (03 R50 to R57) -/

theorem audioFrameBoundary_of_boundary {s x y : State} {a : AudioIn} (hb : s.stb % 30720 = 0) (hr : s.boot.inReset = false)
    (hn : s.listen.boundaryAt ≠ some s.stb)
    (hx : x = runStages a (recordFrame a { s with listen := { s.listen with boundaryAt := some s.stb } }))
    (hy : y = closeAudio (serveAudio x)) :
    audioFrameBoundary a s = settleAudio (privCams (if listens y then applyHolds y else y)) := by
  subst hx hy
  exact if_neg (by simp [frameTicks, hb, hr, hn])

theorem audioFrameBoundary_of_inside {s : State} (a : AudioIn) (hb : s.stb % 30720 ≠ 0) : audioFrameBoundary a s = s :=
  if_pos (.inl hb)

/- ### Candidates and the second stage (03 R53 to R55) -/

theorem candidateOpen_of_heard {s x : State} {score : Nat} (hl : listens s = true) (hp : s.listen.priv = false)
    (h1 : s.listen.stage1 = true) (ho : domOn s 0x04 = true) (hc : s.listen.candidate = none) (hs : s.listen.policy.s1Threshold ≤ score)
    (hx : x = raiseAudio { s with listen := { s.listen with
      candidate := some s.stb, candAt := s.stb, candPolicy := s.listen.policy, workArea := natLe 2 score } }) :
    candidateOpen score s = setAudioPins x (arrayMode x) := by
  subst hx
  exact if_neg (by simp [hl, hp, h1, ho, hc, hs])

theorem candidateOpen_of_low {s : State} {score : Nat} (h : score < s.listen.policy.s1Threshold) : candidateOpen score s = s :=
  if_pos (by simp [h])

/-- The direction that the second stage reports with its decision: 0xFFFF without valid array frames or a bearing below 360. -/
def decidedDirection (s : State) (dir : Option Nat) : Nat :=
  if arrayHeard s then (match dir with | some d => if d < 360 then d else 0xFFFF | none => 0xFFFF) else 0xFFFF

/-- The scores of a second stage reach the policy's thresholds. -/
def scoresReach (p : ListenPolicy) (ver spk : Nat) : Bool :=
  decide (p.s2Threshold ≤ ver) && (p.spkProfile == 0 || decide (p.spkThreshold ≤ spk))

theorem scoresReach_iff (p : ListenPolicy) (ver spk : Nat) :
    scoresReach p ver spk = true ↔ p.s2Threshold ≤ ver ∧ (p.spkProfile = 0 ∨ p.spkThreshold ≤ spk) := by
  simp [scoresReach]

/-- A decision in time closes the candidate, and is a wake where the scores reach the thresholds of its policy. -/
theorem stage2Decision_of_candidate {s : State} {ver spk t n : Nat} {dir : Option Nat} (hc : s.listen.candidate = some n)
    (hl : listens s = true) (ho : domOn s 0x04 = true) (ht : t ≤ s.stb) (hd : s.stb ≤ t + 460800) (hn : s.stb ≤ n + 6144000) :
    stage2Decision ver spk t dir s =
      (if scoresReach s.listen.candPolicy ver spk then
        wake { s with listen := { s.listen with candidate := none, closedAt := some s.stb } } .phrase (boundaryAfter t)
          s.listen.candPolicy (decidedDirection s dir)
      else { s with listen := { s.listen with candidate := none, closedAt := some s.stb } }) := by
  unfold stage2Decision
  rw [hc]
  exact if_neg (by simp [decideTicks, candidateTicks, hl, ho, ht, Nat.not_lt.mpr hd, Nat.not_lt.mpr hn])

theorem candidateTimeout_of_overdue {s : State} {n : Nat} (hc : s.listen.candidate = some n) (hn : n + 6144000 ≤ s.stb) :
    candidateTimeout s = { s with listen := { s.listen with candidate := none, closedAt := some s.stb } } := by
  unfold candidateTimeout
  rw [hc]
  exact if_pos hn

/- ### The gate (03 R60, R62) -/

theorem gateOpen_of_decided {s : State} {r : Nat} (hw : s.listen.wakeDecided = some r) (hp : s.listen.priv = false)
    (hl : listens s = true) :
    gateOpen s = { s with listen := { dropBefore r s.listen with
      gateOpen := true, wakeDecided := none, unread := r, gateSession := s.sess0.number } } := by
  unfold gateOpen
  rw [hw]
  exact if_neg (by simp [hp, hl])

theorem releaseElapsed_iff (s : State) :
    releaseElapsed s = true ↔
      s.listen.release + 307200 * (if s.listen.wakePolicy.releaseMax = 0 then 300 else s.listen.wakePolicy.releaseMax) ≤ s.stb := by
  simp [releaseElapsed]

theorem releaseMaxElapsed_of_elapsed {s : State} (hg : s.listen.gateOpen = true) (he : releaseElapsed s = true) :
    releaseMaxElapsed s = { s with listen := { s.listen with closeDue := true } } :=
  if_pos (by simp [hg, he])

/-- Settles O43: each clause is the equation of its event in the swept state; a press, a release and a decision of the second stage split on
what follows once they count. -/
theorem listeningEvents : Obligations.ListeningEvents := by
  unfold Obligations.ListeningEvents
  refine ⟨?lowReset, ?low, ?release, ?releaseEarly, ?pressPriv, ?pressWake, ?pressNoted, ?pressEarly, ?talkShut, ?talkOpen, ?boundary,
    ?inside, ?candidate, ?lowScore, ?accept, ?reject, ?timeout, ?gate, ?elapsed⟩
  case lowReset =>
    rintro s _ rfl hr
    exact exec_event rfl (privNLow_of_inReset hr)
  case low =>
    rintro s _ x y z rfl hr hx hy hz
    exact exec_event rfl (privNLow_of_running hr hx hy hz)
  case release =>
    rintro s _ rfl hr hp hd
    exact exec_event rfl (privNRelease_of_high hr hp hd)
  case releaseEarly =>
    rintro s _ rfl hr h
    exact exec_event rfl (privNRelease_of_early hr h)
  case pressPriv =>
    rintro s _ t rfl hr hd hn hp
    exact exec_event rfl ((talkNPress_of_debounced hr hd hn).trans (if_pos hp))
  case pressWake =>
    rintro s _ t rfl hr hd hn hp ha
    exact exec_event rfl ((talkNPress_of_debounced hr hd hn).trans ((if_neg (by simp [hp])).trans (if_pos ha)))
  case pressNoted =>
    rintro s _ t rfl hr hd hn hp ha
    exact exec_event rfl ((talkNPress_of_debounced hr hd hn).trans ((if_neg (by simp [hp])).trans (if_neg (ne_true_of_eq_false ha))))
  case pressEarly =>
    rintro s _ t rfl h
    exact exec_event rfl (talkNPress_of_early h)
  case talkShut =>
    rintro s _ t rfl hr hd hn hg
    exact exec_event rfl ((talkNRelease_of_debounced hr hd hn).trans (if_pos (by simp [hg])))
  case talkOpen =>
    rintro s _ t _ _ rfl hr hd hn hg rfl rfl
    exact exec_event rfl ((talkNRelease_of_debounced hr hd hn).trans (if_neg (by simp [hg])))
  case boundary =>
    rintro s _ a x y rfl hb hr hn hx hy
    exact exec_event rfl (audioFrameBoundary_of_boundary hb hr hn hx hy)
  case inside =>
    rintro s _ a rfl hb
    exact exec_event rfl (audioFrameBoundary_of_inside a hb)
  case candidate =>
    rintro s _ score x rfl hl hp h1 ho hc hs hx
    exact exec_event rfl (candidateOpen_of_heard hl hp h1 ho hc hs hx)
  case lowScore =>
    rintro s _ score rfl h
    exact exec_event rfl (candidateOpen_of_low h)
  case accept =>
    rintro s _ ver spk t n _ dir _ rfl hc hl ho ht hd hn rfl hver hspk rfl
    have hreach := (scoresReach_iff (sweep s).listen.candPolicy ver spk).mpr ⟨hver, hspk⟩
    exact exec_event rfl ((stage2Decision_of_candidate hc hl ho ht hd hn).trans (if_pos hreach))
  case reject =>
    rintro s _ ver spk t n dir _ rfl hc hl ho ht hd hn rfl hlow
    have hreach : ¬ scoresReach (sweep s).listen.candPolicy ver spk = true := by
      rw [scoresReach_iff]
      omega
    exact exec_event rfl ((stage2Decision_of_candidate hc hl ho ht hd hn).trans (if_neg hreach))
  case timeout =>
    rintro s _ n rfl hc hn
    exact exec_event rfl (candidateTimeout_of_overdue hc hn)
  case gate =>
    rintro s _ r rfl hw hp hl
    exact exec_event rfl (gateOpen_of_decided hw hp hl)
  case elapsed =>
    rintro s _ rfl hg he
    exact exec_event rfl (releaseMaxElapsed_of_elapsed hg ((releaseElapsed_iff _).mpr he))

end Sys2Proof.Machine
end

section
/-! SUPPORT. `DOMAIN_POLICY`, `POWER_LIMIT` and `POWER_STATS` (03 R56; 15 R365 to R368): one equation for each case of each command, and the
statement that these settle. -/

namespace Sys2Proof.Machine

section
variable {s : State} {c : Cmd}

theorem runCmd_domainPolicy (h : c.op = .domainPolicy) : runCmd c s = runDomainPolicy c s := by
  unfold runCmd
  rw [h]

theorem runCmd_powerLimit (h : c.op = .powerLimit) : runCmd c s = runPowerLimit c s := by
  unfold runCmd
  rw [h]

theorem runCmd_powerStats (h : c.op = .powerStats) : runCmd c s = runPowerStats c s := by
  unfold runCmd
  rw [h]

end

/- ### DOMAIN_POLICY (15 R365, R366) -/

theorem exec_domainPolicy_of_start {p : Packet} {s w t : State} {c : Cmd} (h : startOf .domainPolicy 0x70 p s = some (c, w))
    (hrun : runDomainPolicy c w = t) : exec (.domainPolicy p) s = .next (ensuing t) :=
  exec_start rfl h (fun ho => (runCmd_domainPolicy ho).trans hrun)

section
variable {s : State} {c : Cmd} (hn : namesTenant1 s c = false)
include hn

/-- A command on an audio domain is held until a frame boundary has let it act. -/
theorem runDomainPolicy_of_held (ha : arg c 25 1 ≠ 3) (hd : audioDoms.contains (arg c 24 1) = true) (hx : c.aux = 0) :
    runDomainPolicy c s = park s c .policyHold :=
  (if_neg (by simp [hn])).trans (if_pos ⟨ha, hd, hx⟩)

theorem runDomainPolicy_of_retain (ha : arg c 25 1 = 3) :
    runDomainPolicy c s =
      complete { s with power := { s.power with retain := BitVec.ofNat 64 (arg c 40 8) } } c .ok [0, 0, 0xFF] := by
  unfold runDomainPolicy
  rw [if_neg (by simp [hn]), ha]
  rfl

variable (hx : audioDoms.contains (arg c 24 1) = true → c.aux ≠ 0)
include hx

/-- On a domain that is no audio domain, or one that a boundary has let act, the command's `ACTION` says what it does. -/
theorem runDomainPolicy_of_action (ha : arg c 25 1 ≠ 3) :
    runDomainPolicy c s =
      (if arg c 25 1 = 0 then
        policyDone (updDom s (arg c 24 1) (fun y => { y with
          ceiling := arg c 26 1, retIdle := askedTimer (arg c 28 4) (defaultDom (arg c 24 1)).retIdle,
          offIdle := askedTimer (arg c 32 4) (defaultDom (arg c 24 1)).offIdle, expiredAt := none })) c 0 0xFF
      else if arg c 25 1 = 1 then enterNow c s
      else if arg c 25 1 = 2 then returnNow c s
      else policyDone s c 0 0xFF) := by
  unfold runDomainPolicy
  rw [if_neg (by simp [hn]), if_neg (fun h => hx h.2.1 h.2.2)]
  match arg c 25 1, ha with
  | 0, _ => rfl
  | 1, _ => rfl
  | 2, _ => rfl
  | 3, h => exact absurd rfl h
  | _ + 4, _ => rfl

theorem runDomainPolicy_of_enter (ha : arg c 25 1 = 1) : runDomainPolicy c s = enterNow c s :=
  (runDomainPolicy_of_action hn hx (by omega)).trans ((if_neg (by omega)).trans (if_pos ha))

end

/- ### Entry attempts (15 R354, R365) -/

section
variable {s : State} {c : Cmd}

/-- A domain that is there already is entered at once; a unit asked to be OFF is held OFF as well. -/
theorem enterNow_of_there
    (h : (domOf s (arg c 24 1)).state = .off ∨ ((domOf s (arg c 24 1)).state = .ret ∧ arg c 27 1 = 1)) :
    enterNow c s = policyDone (if isUnit (arg c 24 1) && arg c 27 1 == 2 then
      disableUnit (updDom s (arg c 24 1) (fun x => { x with heldOff := true, demand := false })) (arg c 24 1) else s) c 0 0xFF := by
  have hstill : ¬ ((domOf s (arg c 24 1)).state = .entering ∨ (domOf s (arg c 24 1)).state = .returning) := by
    rcases h with h | ⟨h, -⟩ <;> simp [h]
  exact (if_neg hstill).trans (if_pos h)

section
variable (hon : (domOf s (arg c 24 1)).state = .on)
include hon

theorem enterNow_of_ceiling (hc : (domOf s (arg c 24 1)).ceiling < arg c 27 1) :
    enterNow c s = policyDone (refuseEntry s (arg c 24 1) 0xFE 0x0A) c 0x0A 0xFE :=
  (if_neg (by simp [hon])).trans ((if_neg (by simp [hon])).trans (if_pos hc))

variable (hc : arg c 27 1 ≤ (domOf s (arg c 24 1)).ceiling) (hd : arg c 24 1 ≠ domCtrl)
include hc hd

theorem enterNow_of_refused {r : Nat × Nat}
    (hr : refusalOf s (arg c 24 1) (arg c 27 1) (some c.id) (isUnit (arg c 24 1) && arg c 27 1 == 2) = some r) :
    enterNow c s = policyDone (refuseEntry s (arg c 24 1) r.1 r.2) c r.2 r.1 := by
  simp only [enterNow, hon, Nat.not_lt.mpr hc, hd, hr]
  rfl

theorem enterNow_of_admitted {x : State}
    (hr : refusalOf s (arg c 24 1) (arg c 27 1) (some c.id) (isUnit (arg c 24 1) && arg c 27 1 == 2) = none)
    (hx : x = startEntry s (arg c 24 1) (arg c 27 1) (some c.id) (isUnit (arg c 24 1) && arg c 27 1 == 2)) :
    enterNow c s = setCmd (if isUnit (arg c 24 1) && arg c 27 1 == 2 then disableUnit x (arg c 24 1) else x)
      { c with phase := .parked .domain, aux := 3 } := by
  subst hx
  simp only [enterNow, hon, Nat.not_lt.mpr hc, hd, hr]
  rfl

end

/- ### Resumptions -/

/-- A held command that its boundary has let go acts. -/
theorem resumeCmd_domainPolicy_of_let (ho : c.op = .domainPolicy) (hp : c.phase = .parked .policyHold) (hx : c.aux = 1) :
    resumeCmd c s = some (runDomainPolicy c s) := by
  unfold resumeCmd
  rw [ho]
  exact (if_pos hp).trans (if_pos hx)

theorem resumeCmd_domainPolicy_of_parked (ho : c.op = .domainPolicy) (hp : c.phase = .parked .domain) :
    resumeCmd c s = resumeDomainPolicy c s := by
  unfold resumeCmd
  rw [ho]
  exact if_neg (by simp [hp])

/-- A command that waits for its own entry completes once the domain has none for it. -/
theorem resumeDomainPolicy_of_entered (hx : c.aux = 3) (hb : (domOf s (arg c 24 1)).byHost ≠ some c.id) :
    resumeDomainPolicy c s = some (policyDone s c 0 0xFF) := by
  unfold resumeDomainPolicy
  rw [hx]
  exact if_neg (by simp [hb])

end

/- ### POWER_LIMIT and POWER_STATS (15 R367, R368) -/

theorem runPowerLimit_eq {s x : State} {c : Cmd} {n : Nat}
    (hx : x = if arg c 24 4 = 0 then s else { s with power := { s.power with nextLimit := some (arg c 24 4) } })
    (hn : n = x.power.nextLimit.getD x.power.limit) :
    runPowerLimit c s = complete (bumpFree x) c .ok
      (natLe 4 n ++ natLe 4 (if x.power.cap then min n 8000 else n) ++ natLe 4 (Config.freeNat s.freeCtr)) := by
  subst hx hn
  rfl

theorem runPowerStats_of_room {s x y : State} {c : Cmd} {l : List Dom} (hl : l = statDoms s c.fn)
    (hroom : destNeed c (64 + 64 * l.length) ≤ arg c 40 4)
    (hx : x = writeDest s c (arg c 32 8) (powerHeader s c.fn l.length ++ l.flatMap (domBytes s)))
    (hy : y = if arg c 24 1 = 1 then clearRefusals x else x) :
    runPowerStats c s = complete { y with freeCtr := y.freeCtr + 4 } c .ok
      (natLe 2 l.length ++ zeroBytes 2 ++ natLe 4 (64 + 64 * l.length)) := by
  subst hl hx hy
  exact if_neg (Nat.not_lt.mpr hroom)

/-- Settles O23: a `DOMAIN_POLICY` is split on its hold and its `ACTION`, and an entry attempt on the domain's state, its ceiling and the
refusal; the other two commands are their equations. -/
theorem powerCommandsComplete : Obligations.PowerCommandsComplete := by
  unfold Obligations.PowerCommandsComplete
  refine ⟨?set, ?held, fun _ _ => resumeCmd_domainPolicy_of_let, ?there, ?ceiling, ?refused, ?admitted, ?back, ?retain, ?read, ?entered,
    ?limit, ?stats⟩
  case set =>
    rintro p s w c _ h hn rfl ha hx
    have hrun := (runDomainPolicy_of_action hn hx (by omega)).trans (if_pos ha)
    exact exec_domainPolicy_of_start h hrun
  case held =>
    intro p s w c h hn ha hd hx
    exact exec_domainPolicy_of_start h (runDomainPolicy_of_held hn ha hd hx)
  case there =>
    rintro p s w c _ h hn rfl ha hx hst
    exact exec_domainPolicy_of_start h ((runDomainPolicy_of_enter hn hx ha).trans (enterNow_of_there hst))
  case ceiling =>
    rintro p s w c _ h hn rfl ha hx hon hc
    exact exec_domainPolicy_of_start h ((runDomainPolicy_of_enter hn hx ha).trans (enterNow_of_ceiling hon hc))
  case refused =>
    rintro p s w c _ r h hn rfl ha hx hon hc hd hr
    exact exec_domainPolicy_of_start h ((runDomainPolicy_of_enter hn hx ha).trans (enterNow_of_refused hon hc hd hr))
  case admitted =>
    rintro p s w x c _ h hn rfl ha hx hon hc hd hr hs
    exact exec_domainPolicy_of_start h ((runDomainPolicy_of_enter hn hx ha).trans (enterNow_of_admitted hon hc hd hr hs))
  case back =>
    rintro p s w c _ h hn rfl ha hx
    have hrun := (runDomainPolicy_of_action hn hx (by omega)).trans ((if_neg (by omega)).trans ((if_neg (by omega)).trans (if_pos ha)))
    exact exec_domainPolicy_of_start h hrun
  case retain =>
    intro p s w c h hn ha
    exact exec_domainPolicy_of_start h (runDomainPolicy_of_retain hn ha)
  case read =>
    rintro p s w c _ h hn rfl ha hx
    have hrun := (runDomainPolicy_of_action hn hx (by omega)).trans
      ((if_neg (by omega)).trans ((if_neg (by omega)).trans (if_neg (by omega))))
    exact exec_domainPolicy_of_start h hrun
  case entered =>
    intro s c ho hp hx hb
    exact (resumeCmd_domainPolicy_of_parked ho hp).trans (resumeDomainPolicy_of_entered hx hb)
  case limit =>
    intro p s w x c n h hx hn
    exact exec_start rfl h (fun ho => (runCmd_powerLimit ho).trans (runPowerLimit_eq hx hn))
  case stats =>
    intro p s w c l x y h hl hroom hx hy
    exact exec_start rfl h (fun ho => (runCmd_powerStats ho).trans (runPowerStats_of_room hl hroom hx hy))

end Sys2Proof.Machine
end

section
/-! SUPPORT. `CAMERA_CONFIG`, `CAMERA_PARAMS` and `FRAME_READ` (04 R75, R76, R84 to R91, R96): one equation for each case of each command, and
the statement that these settle. -/

namespace Sys2Proof.Machine

section
variable {s : State} {c : Cmd}

theorem runCmd_cameraConfig (h : c.op = .cameraConfig) : runCmd c s = runCameraConfig c s := by
  unfold runCmd
  rw [h]

theorem runCmd_cameraParams (h : c.op = .cameraParams) : runCmd c s = runCameraParams c s := by
  unfold runCmd
  rw [h]

theorem runCmd_frameRead (h : c.op = .frameRead) : runCmd c s = runFrameRead c s := by
  unfold runCmd
  rw [h]

end

section
variable {p : Packet} {s w t : State} {c : Cmd}

theorem exec_cameraConfig_of_start (h : startOf .cameraConfig 0x63 p s = some (c, w)) (hrun : runCameraConfig c w = t) :
    exec (.cameraConfig p) s = .next (ensuing t) :=
  exec_start rfl h (fun ho => (runCmd_cameraConfig ho).trans hrun)

theorem exec_cameraParams_of_start (h : startOf .cameraParams 0x64 p s = some (c, w)) (hrun : runCameraParams c w = t) :
    exec (.cameraParams p) s = .next (ensuing t) :=
  exec_start rfl h (fun ho => (runCmd_cameraParams ho).trans hrun)

theorem exec_frameRead_of_start (h : startOf .frameRead 0x65 p s = some (c, w)) (hrun : runFrameRead c w = t) :
    exec (.frameRead p) s = .next (ensuing t) :=
  exec_start rfl h (fun ho => (runCmd_frameRead ho).trans hrun)

end

/- ### CAMERA_CONFIG (04 R75, R76, R90, R91) -/

/-- A port's new configuration: the operands and the block, what the gate, the bus and the receiver were doing, and `now` as the last start
(04 Table 4.8, Table 4.9). -/
def newCam (c : Cmd) (g : CamConfig) (old : Cam) (now : Nat) : Cam :=
  { configured := true, cfg := g, cascadeTop := min (arg c 26 1) 2, autoRelease := arg c 27 1 == 1, motionThreshold := arg c 40 2,
    motionFrames := arg c 42 1, absentHold := arg c 43 1, presenceThreshold := arg c 44 2, presenceModel := arg c 46 1,
    attendCoppice := arg c 47 1, attendModel := arg c 48 2, gateOpen := old.gateOpen, gateStage2 := old.gateStage2, opener := old.opener,
    closeDue := old.closeDue, openDue := old.openDue, openDueStage2 := old.openDueStage2, enAt := old.enAt, gapRecv := old.gapRecv,
    i2cOut := old.i2cOut, initLeft := old.initLeft, initGo := old.initGo, initTries := old.initTries,
    streaming := decide (1 ≤ arg c 26 1) || old.streaming, lastStart := now, armedRx := old.armedRx, initAt := old.initAt }

/-- The open settings of a port end, for their writes can no longer be made. -/
def endParams (s : State) (port : Nat) : State := (openParams s port).foldl (fun s d => complete (dropWork s d) d .notPresent) s

section
variable {s : State} {c : Cmd}

theorem runCameraConfig_of_configure (ha : arg c 25 1 = 0) : runCameraConfig c s = configureCam c s := by
  unfold runCameraConfig
  rw [ha]
  rfl

/-- A valid block for which the frame store finds room configures the port. -/
theorem configureCam_of_placed {b cal : List Byte} {g : CamConfig} {r : State × Nat × Bool}
    (hb : b = memReadN s.store.host (arg c 28 8) (arg c 36 4)) (hcal : cal = memReadN s.store.host (field b 48 8) 8592)
    (hok : camConfigOk b cal = true) (hg : g = camConfigOf b cal)
    (hr : placeObject (dropAllocs s .pf0 [19] (arg c 24 1)) .pf0 2 0 (g.frameSlots * (yBytes g + cBytes g)) 19 (arg c 24 1) false = some r) :
    configureCam c s = complete (settleCam (setCam (endParams r.1 (arg c 24 1)) (arg c 24 1)
      (newCam c g (camOf s (arg c 24 1)) (endParams r.1 (arg c 24 1)).stb)) (arg c 24 1)) c .ok := by
  subst hb hcal hg
  unfold configureCam
  rw [if_neg (by simp [hok])]
  simp only [hr]
  rfl

section
variable {x : Cam} (hx : x = camOf s (arg c 24 1))
include hx

theorem runCameraConfig_of_start (ha : arg c 25 1 = 1) (hc : x.configured = true) :
    runCameraConfig c s = complete (settleCam (setCam s (arg c 24 1) { x with
      streaming := true, openDue := !x.gateOpen || x.closeDue, openDueStage2 := false,
      gateStage2 := if x.closeDue then x.gateStage2 else false, dropDue := false, lastStart := s.stb }) (arg c 24 1)) c .ok := by
  subst hx
  unfold runCameraConfig
  rw [ha]
  exact if_neg (by simp [hc])

/-- The stream stops at the next frame start where the gate is open, at once where it is closed. -/
theorem runCameraConfig_of_stop (ha : arg c 25 1 = 2) :
    runCameraConfig c s =
      if x.gateOpen then complete (setCam s (arg c 24 1) { x with streaming := false, openDue := false, closeDue := true }) c .ok
      else complete (settleCam (setCam s (arg c 24 1) { x with streaming := false, openDue := false, closeDue := false })
        (arg c 24 1)) c .ok := by
  subst hx
  unfold runCameraConfig
  rw [ha]
  cases hg : (camOf s (arg c 24 1)).gateOpen <;> simp [hg]

/-- The port is dropped at the next frame start where the gate is open, at once where it is closed. -/
theorem runCameraConfig_of_drop (ha : 3 ≤ arg c 25 1) :
    runCameraConfig c s =
      if x.gateOpen then complete (setCam s (arg c 24 1) { x with openDue := false, closeDue := true, dropDue := true }) c .ok
      else complete (dropCam s (arg c 24 1)) c .ok := by
  obtain ⟨k, hk⟩ := Nat.exists_eq_add_of_le' ha
  subst hx
  unfold runCameraConfig
  rw [hk]
  rfl

end

end

/- ### CAMERA_PARAMS (04 R84, R85) -/

/-- With no target every setting takes the earliest frame; with one it takes the target where that can be met. -/
theorem runCameraParams_of_configured {s : State} {c : Cmd} {x : Cam} {n : Int} (hp : s.listen.priv = false)
    (hx : x = camOf s (arg c 24 1)) (hc : x.configured = true)
    (hn : n = expand32 (BitVec.ofNat 32 (arg c 28 4)) (earliestFrame x c)) :
    runCameraParams c s =
      if arg c 28 4 = 2 ^ 32 - 1 then scheduleParams c (earliestFrame x c) s
      else if (earliestFrame x c : Int) ≤ n ∧ writesFit x c n.toNat = true then scheduleParams c n.toNat s
      else if (arg c 25 1).testBit 0 then complete s c .deadlineMissed
      else scheduleParams c (earliestFrame x c) s := by
  subst hx hn
  exact (if_neg (by simp [hp])).trans (if_neg (by simp [hc]))

/- ### FRAME_READ (04 R96) -/

/-- A read whose buffer is large enough begins at an open gate; at a closed one it waits, or is blocked. -/
theorem runFrameRead_of_room {s : State} {c : Cmd} {x : Cam} (hp : s.listen.priv = false) (hx : x = camOf s (readPort c))
    (hn : x.configured = true → arg c 27 1 * frameRecord x.cfg (arg c 25 1) ≤ arg c 40 4) :
    runFrameRead c s = if x.gateOpen then beginFrame c s
      else if readWaits c then setCmd s { c with phase := .parked .gateOpen, res := frameResult s c }
      else complete s c .privacyBlock (frameResult s c) := by
  subst hx
  exact (if_neg (by simp [hp])).trans (if_neg (by simpa using hn))

/-- With no poisoned frame among those ready, a read writes them all; `d` is the command that waits for more. -/
theorem pumpFrame_of_sound {s : State} {c d : Cmd} {r : State × Cmd}
    (hgood : (frameReady s c).all (fun f => !framePoisoned s c f) = true) (hr : r = (frameReady s c).foldl writeFrame (s, c))
    (hd : d = { r.2 with phase := .parked .frames }) :
    pumpFrame c s =
      if arg c 27 1 ≤ r.2.cnt ∨ readWaits c = false then finishFrame r.1 r.2 else setCmd r.1 { d with res := frameResult r.1 d } := by
  have htake : (frameReady s c).takeWhile (fun f => !framePoisoned s c f) = frameReady s c :=
    List.takeWhile_eq_self_iff.mpr (List.all_eq_true.mp hgood)
  subst hr hd
  simp only [pumpFrame, htake, Nat.lt_irrefl, if_false]

/-- Settles O22: `CAMERA_CONFIG` is split on its `ACTION` and the gate, `CAMERA_PARAMS` on its target and `FRAME_READ` on the gate and
`WAIT`; the last clauses are the two ends of a read that meets no poison. -/
theorem cameraCommandsComplete : Obligations.CameraCommandsComplete := by
  unfold Obligations.CameraCommandsComplete
  refine ⟨?configure, ?start, ?stopOpen, ?stopShut, ?dropOpen, ?dropShut, ?earliest, ?target, ?missed, ?read, ?readWaits, ?readBlocked,
    ?finish, ?short⟩
  case configure =>
    rintro p s w _ c _ b cal g r _ _ h ha rfl hb hcal hok hg hr rfl rfl rfl
    exact exec_cameraConfig_of_start h ((runCameraConfig_of_configure ha).trans (configureCam_of_placed hb hcal hok hg hr))
  case start =>
    rintro p s w c _ x h ha rfl hx hc
    exact exec_cameraConfig_of_start h (runCameraConfig_of_start hx ha hc)
  case stopOpen =>
    rintro p s w c _ x h ha rfl hx hg
    exact exec_cameraConfig_of_start h ((runCameraConfig_of_stop hx ha).trans (if_pos hg))
  case stopShut =>
    rintro p s w c _ x h ha rfl hx hg
    exact exec_cameraConfig_of_start h ((runCameraConfig_of_stop hx ha).trans (if_neg (ne_true_of_eq_false hg)))
  case dropOpen =>
    rintro p s w c _ x h ha rfl hx hg
    exact exec_cameraConfig_of_start h ((runCameraConfig_of_drop hx ha).trans (if_pos hg))
  case dropShut =>
    rintro p s w c _ h ha rfl hg
    exact exec_cameraConfig_of_start h ((runCameraConfig_of_drop rfl ha).trans (if_neg (ne_true_of_eq_false hg)))
  case earliest =>
    intro p s w c x h hp hx hc ht
    exact exec_cameraParams_of_start h ((runCameraParams_of_configured hp hx hc rfl).trans (if_pos ht))
  case target =>
    intro p s w c x n h hp hx hc ht hn hle hfit
    exact exec_cameraParams_of_start h
      ((runCameraParams_of_configured hp hx hc hn).trans ((if_neg ht).trans (if_pos ⟨hle, hfit⟩)))
  case missed =>
    intro p s w c x n h hp hx hc ht hn hmiss
    have hunmet := not_and_or.mpr (hmiss.imp Int.not_le.mpr ne_true_of_eq_false)
    exact exec_cameraParams_of_start h
      ((runCameraParams_of_configured hp hx hc hn).trans ((if_neg ht).trans (if_neg hunmet)))
  case read =>
    rintro p s w c _ _ _ h hp rfl hn hg rfl rfl
    exact exec_frameRead_of_start h ((runFrameRead_of_room hp rfl (fun _ => hn)).trans (if_pos hg))
  case readWaits =>
    intro p s w c x h hp hx hn hg hw
    exact exec_frameRead_of_start h
      ((runFrameRead_of_room hp hx hn).trans ((if_neg (ne_true_of_eq_false hg)).trans (if_pos hw)))
  case readBlocked =>
    intro p s w c x h hp hx hn hg hw
    exact exec_frameRead_of_start h
      ((runFrameRead_of_room hp hx hn).trans ((if_neg (ne_true_of_eq_false hg)).trans (if_neg (ne_true_of_eq_false hw))))
  case finish =>
    intro s c r hgood hr hdone
    exact (pumpFrame_of_sound hgood hr rfl).trans (if_pos hdone)
  case short =>
    intro s c d r hgood hr hn hw hd
    exact (pumpFrame_of_sound hgood hr hd).trans (if_neg (by simp [hw, hn]))

end Sys2Proof.Machine
end

section
/-! SUPPORT. The events of the cameras (02 R37; 04 R74 to R94): one equation for each case of each event, and the statement that these settle. -/

namespace Sys2Proof.Machine

/- ### Packets of the receiver (04 Table 4.1, Table 4.6) -/

/-- A corrected header of a packet in a frame is counted. -/
def countHeader (x : Cam) (ecc : HeaderEcc) : Cam := if ecc = .corrected then { x with eccCorrected := x.eccCorrected + 1 } else x

@[simp] theorem countHeader_cfg (x : Cam) (ecc : HeaderEcc) : (countHeader x ecc).cfg = x.cfg := by
  unfold countHeader
  split <;> rfl

@[simp] theorem vcOf_countHeader (x : Cam) (ecc : HeaderEcc) (i : Nat) : vcOf (countHeader x ecc) i = vcOf x i := by
  simp [vcOf]

/-- The exposure whose line a packet carries: one on the packet's channel, where the packet has the port's data type. -/
def exposureOf (x : Cam) (k : CsiPacket) : Option Nat :=
  if k.dataType = x.cfg.dataType then (List.range x.cfg.exposures).find? (fun i => vcOf x i == k.vc) else none

theorem exposureOf_of_named {x : Cam} {k : CsiPacket} {i : Nat} (ht : k.dataType = x.cfg.dataType)
    (hi : (List.range x.cfg.exposures).find? (fun i => vcOf x i == k.vc) = some i) : exposureOf x k = some i :=
  (if_pos ht).trans hi

theorem exposureOf_of_foreign {x : Cam} {k : CsiPacket}
    (h : k.dataType ≠ x.cfg.dataType ∨ (List.range x.cfg.exposures).find? (fun i => vcOf x i == k.vc) = none) :
    exposureOf x k = none := by
  rcases h with hne | hnone
  · exact if_neg hne
  · simp [exposureOf, hnone]

/-- A line of an exposure is taken; a packet of none is discarded. -/
def receiveLine (s : State) (port : Nat) (x : Cam) (k : CsiPacket) : Option Nat → State
  | some i => setCam s port (takeLine s x i k)
  | none => setCam s port { x with discarded := x.discarded + 1 }

section
variable {s : State} {port : Nat} {k : CsiPacket} {x : Cam} (hr : camRuns s port = true) (hx : x = camOf s port) (ha : x.armedRx = true)
  (h2 : k.dataType ≠ 2) (h3 : k.dataType ≠ 3)
include hr hx ha h2 h3

/-- A running port whose receiver is armed takes every packet but line starts and ends. -/
theorem csi2Packet_guard :
    ¬ (!camRuns s port || !(camOf s port).armedRx || k.dataType == 0x02 || k.dataType == 0x03) = true := by
  subst hx
  simp [hr, ha, h2, h3]

theorem csi2Packet_of_badHeader (he : k.ecc = .bad) :
    csi2Packet port k s = setCam s port (if x.inFrame then dropRemainder x else { x with discarded := x.discarded + 1 }) := by
  have hguard := csi2Packet_guard hr hx ha h2 h3
  subst hx
  exact (if_neg hguard).trans ((if_pos he).trans (apply_ite (setCam s port) _ _ _).symm)

variable (he : k.ecc ≠ .bad)
include he

theorem csi2Packet_of_outside (hf : x.inFrame = false) :
    csi2Packet port k s = setCam s port { x with discarded := x.discarded + 1 } := by
  have hguard := csi2Packet_guard hr hx ha h2 h3
  subst hx
  exact (if_neg hguard).trans ((if_neg he).trans (if_pos (by simp [hf])))

variable (hf : x.inFrame = true)
include hf

theorem csi2Packet_of_embedded (hd : k.dataType = 0x12) :
    csi2Packet port k s =
      if vcOf x 3 = k.vc then setCam s port (takeEmb (countHeader x k.ecc) k) else receiveLine s port (countHeader x k.ecc) k none := by
  have hguard := csi2Packet_guard hr hx ha h2 h3
  subst hx
  rw [← vcOf_countHeader _ k.ecc]
  exact (if_neg hguard).trans ((if_neg he).trans ((if_neg (by simp [hf])).trans (if_pos hd)))

theorem csi2Packet_of_line (hd : k.dataType ≠ 0x12) :
    csi2Packet port k s = receiveLine s port (countHeader x k.ecc) k (exposureOf x k) := by
  have hguard := csi2Packet_guard hr hx ha h2 h3
  subst hx
  have hexp : (if k.dataType = (countHeader (camOf s port) k.ecc).cfg.dataType then
      (List.range (camOf s port).cfg.exposures).find? (fun i => vcOf (camOf s port) i == k.vc) else none)
        = exposureOf (camOf s port) k := by
    rw [countHeader_cfg, exposureOf]
  exact (if_neg hguard).trans ((if_neg he).trans ((if_neg (by simp [hf])).trans
    ((if_neg hd).trans (congrArg (receiveLine s port (countHeader (camOf s port) k.ecc) k) hexp))))

end

/- ### Frame starts and ends, and stalls (04 R74, R88, R90; 02 R37) -/

section
variable {s : State} {port vc : Nat} {ecc : HeaderEcc} {x : Cam} (hr : camRuns s port = true) (hx : x = camOf s port)
  (ha : x.armedRx = true)
include hr hx ha

section
variable (hv : vc < 4)
include hv

theorem frameStartEvent_guard : ¬ (!camRuns s port || !(camOf s port).armedRx || decide (4 ≤ vc)) = true := by
  subst hx
  simp [hr, ha, hv]

theorem frameStartEvent_of_badHeader : frameStartEvent port vc .bad s = updCam s port (fun x => shortEcc x .bad) :=
  (if_neg (frameStartEvent_guard hr hx ha hv)).trans (if_pos rfl)

variable (he : ecc ≠ .bad)
include he

theorem frameStartEvent_of_unnamed (hn : (List.range x.cfg.exposures ++ [3]).any (fun i => vcOf x i == vc) = false) :
    frameStartEvent port vc ecc s =
      updCam (updCam s port (fun x => shortEcc x ecc)) port (fun x => { x with discarded := x.discarded + 1 }) := by
  have hguard := frameStartEvent_guard hr hx ha hv
  subst hx
  exact (if_neg hguard).trans ((if_neg he).trans (if_pos (by simp only [hn, Bool.not_false])))

variable (hn : (List.range x.cfg.exposures ++ [3]).any (fun i => vcOf x i == vc) = true)
include hn

theorem frameStartEvent_of_otherChannel (hc : vc ≠ vcOf x 0) :
    frameStartEvent port vc ecc s = updCam (updCam s port (fun x => shortEcc x ecc)) port (fun x => countVc x vc) := by
  have hguard := frameStartEvent_guard hr hx ha hv
  subst hx
  exact (if_neg hguard).trans ((if_neg he).trans ((if_neg (by simp only [hn]; decide)).trans (if_pos hc)))

/-- A start of the first exposure's channel ends the frame under way and judges the gate; where the port still runs a frame begins. -/
theorem frameStartEvent_of_firstChannel {y z : State} (hc : vc = vcOf x 0) (hy : y = updCam s port (fun x => shortEcc x ecc))
    (hz : z = gateAtStart (if x.inFrame then endFrame y port true else y) port) :
    frameStartEvent port vc ecc s =
      if camRuns z port && (camOf z port).armedRx then beginNumbered (updCam z port (fun x => countVc x vc)) port else z := by
  have hguard := frameStartEvent_guard hr hx ha hv
  subst hx hy hz
  exact (if_neg hguard).trans ((if_neg he).trans ((if_neg (by simp only [hn]; decide)).trans (if_neg (not_not_intro hc))))

end

theorem frameEnd_of_received :
    frameEnd port ecc s =
      if decide (ecc ≠ .bad) && (camOf (updCam s port (fun x => shortEcc x ecc)) port).inFrame then
        endFrame (updCam s port (fun x => shortEcc x ecc)) port false
      else updCam s port (fun x => shortEcc x ecc) := by
  subst hx
  exact if_neg (by simp [hr, ha])

theorem streamStall_of_late (hs : x.stalled = false)
    (hd : x.lastStart + ceilDiv (4 * 3072000) (max 1 x.cfg.fpsMax) ≤ s.stb) :
    streamStall port s = raise (setCam s port { x with stalled := true }) (capture s 0x26 port 0) := by
  subst hx
  exact if_pos (by simp only [hr, ha, hs, hd]; decide)

end

/- ### Triggers, the initialisation and the bus (04 R77, R78, R82) -/

theorem cameraTrigger_of_phase {s : State} {port : Nat} (hr : camRuns s port = true) (hm : (camOf s port).cfg.syncMode = 1)
    (hp : s.stb % (camOf s port).cfg.syncPeriod = (camOf s port).cfg.syncPhase) :
    cameraTrigger port s =
      { s with pins := if port = 0 then { s.pins with camSync0 := some s.stb } else { s.pins with camSync1 := some s.stb } } := by
  refine (if_pos (by simp [hr, hm, hp])).trans ?_
  split <;> rfl

theorem initWait_of_elapsed {s : State} {port n : Nat} {x : Cam} (hr : camRuns s port = true) (hx : x = camOf s port)
    (hi : x.initAt = some n) (hn : n ≤ s.stb) :
    initWait port s = pumpBus (armAfterInit (setCam s port { x with
      initAt := none, initLeft := initEntries x.cfg.init.length x.cfg.init, initGo := some s.stb, initTries := 0 }) port) := by
  subst hx
  unfold initWait
  simp only [hi]
  exact if_pos ⟨hr, hn⟩

/-- What ends on the bus: the list's next entry, or the due setting where the list has ended. -/
def busTransfer (s : State) (port : Nat) (x : Cam) (ok late : Bool) : List CamInit → Option CamWrite → State
  | e :: rest, _ => initTransfer s port x e rest ok
  | [], some w => paramTransfer s port x w ok late
  | [], none => setCam s port x

theorem i2cTransferDone_of_onBus {s : State} {port : Nat} {x : Cam} (ok late : Bool) (hr : camRuns s port = true)
    (hb : (camOf s port).onBus = true) (hx : x = { camOf s port with onBus := false }) :
    i2cTransferDone port ok late s = pumpBus (armAfterInit (busTransfer s port x ok late x.initLeft (dueWrite x)) port) := by
  subst hx
  exact if_neg (by simp [hr, hb])

section
variable {s : State} {w : CamWrite} (port : Nat) (x : Cam) (late : Bool)

theorem paramTransfer_of_retry (ht : w.tries < 2) :
    paramTransfer s port x w false late =
      setCam s port { x with writes := x.writes.map (fun y => if y = w then { y with tries := y.tries + 1 } else y) } := by
  unfold paramTransfer
  rw [if_neg Bool.false_ne_true, if_pos ht]

theorem paramTransfer_of_givenUp {c : Cmd} (ht : 2 ≤ w.tries) (hc : cmdOf s w.cmd = some c) :
    paramTransfer s port x w false late = finishParams (setCam (raise s (captureCmd s c 0x25 port 1)) port
      { x with writes := x.writes.filter (fun y => decide (y ≠ w)), failed := x.failed ++ [w.cmd] }) port := by
  unfold paramTransfer
  rw [if_neg Bool.false_ne_true, if_neg (Nat.not_lt.mpr ht), hc]

end

/- ### Presence and its hold (04 R91, R93, R94) -/

theorem presenceScore_of_noStage1 {s : State} {port : Nat} (score att faces : Nat) (h1 : (camOf s port).stage1 = false) :
    presenceScore port score att faces s = s :=
  if_pos (by simp [h1])

section
variable {s : State} {port score att faces : Nat} {x : Cam} (hr : camRuns s port = true) (h1 : (camOf s port).stage1 = true)
  (hl : listens s = true) (ho : domOn s 0x04 = true) (hf : (camOf s port).presFrame.isSome = true) (ha : att ≤ 3) (hn : faces ≤ 255)
include hr h1 hl ho hf ha hn

/-- Stage 1 of a running port judges a score of the image that waits for one. -/
theorem presenceScore_guard :
    ¬ (!camRuns s port || !(camOf s port).stage1 || !listens s || !domOn s 0x04 || (camOf s port).presFrame.isNone || decide (3 < att)
      || decide (255 < faces)) = true := by
  simp [hr, h1, hl, ho, Option.isSome_iff_ne_none.mp hf, ha, hn]

variable (hx : x = { camOf s port with presFrame := none })
include hx

theorem presenceScore_of_low (hs : score < x.presenceThreshold) :
    presenceScore port score att faces s = setCam s port { x with
      presLow := some (x.presLow.getD s.stb), stage2 := false, attn := if 2 ≤ x.cascadeTop then 1 else 0, faces := 0 } := by
  have hguard := presenceScore_guard hr h1 hl ho hf ha hn
  subst hx
  exact (if_neg hguard).trans (if_pos hs)

variable (hs : x.presenceThreshold ≤ score)
include hs

theorem presenceScore_of_present (hno : x.cascadeTop < 2 ∨ x.autoRelease = false ∨ ownsCoppice s .pf0 x.attendCoppice = false) :
    presenceScore port score att faces s = setCam s port { x with presLow := none } := by
  have hguard := presenceScore_guard hr h1 hl ho hf ha hn
  subst hx
  exact (if_neg hguard).trans ((if_neg (Nat.not_lt.mpr hs)).trans (if_pos hno))

theorem presenceScore_of_attended {v : State} (ht : 2 ≤ x.cascadeTop) (hauto : x.autoRelease = true)
    (hc : ownsCoppice s .pf0 x.attendCoppice = true)
    (hv : v = setCam s port { x with
      presLow := none, stage2 := true, attn := if attends s x then att else 0, faces := if attends s x then faces else 0,
      openDue := x.openDue || !x.gateOpen || x.closeDue, openDueStage2 := if x.openDue then x.openDueStage2 else true }) :
    presenceScore port score att faces s =
      (attendDoms (wantGroups v (groupsOf v .pf0)) x).foldl (fun s d => demandDom s d 0x00 0x06) (wantGroups v (groupsOf v .pf0)) := by
  have hguard := presenceScore_guard hr h1 hl ho hf ha hn
  have hyes : ¬ (x.cascadeTop < 2 ∨ x.autoRelease = false ∨ ownsCoppice s .pf0 x.attendCoppice = false) :=
    not_or.mpr ⟨Nat.not_lt.mpr ht, by simp [hauto, hc]⟩
  subst hx hv
  exact (if_neg hguard).trans ((if_neg (Nat.not_lt.mpr hs)).trans (if_neg hyes))

end

section
variable {s : State} {port : Nat} {x : Cam} (hr : camRuns s port = true) (hx : x = camOf s port)
include hr hx

/-- Without motion for the hold, stage 1 stops; `FLORETS` goes where nothing else wants it. -/
theorem absentHold_of_still {v : State} (h1 : x.stage1 = true) (hh : heldFor s x x.motionLow = true) (hg : x.gateOpen = false)
    (hv : v = setCam s port { x with stage1 := false, stage2 := false, attn := 0, faces := 0, presTake := false, presFrame := none }) :
    absentHold port s =
      if audioWant v 0x04 ≠ .on ∧ (domOf v 0x04).state ≠ .off then cascadeState v 0x04 (audioWant v 0x04) else v := by
  subst hx hv
  simp [absentHold, hr, h1, hh, hg]

/-- With the person absent for the hold, a gate that stage 2 opened is due to close. -/
theorem absentHold_of_absent (h1 : x.stage1 = false) (hg : x.gateOpen = true) (h2 : x.gateStage2 = true)
    (hh : heldFor s x x.presLow = true) : absentHold port s = setCam s port { x with closeDue := true } := by
  subst hx
  simp [absentHold, hr, h1, hh, hg, h2]

end

/-- Settles O45: each clause is the equation of its event in the swept state; a packet is split on its header, the frame under way and its
type and channel, a frame start on its channel, a transfer on the list and its outcome, a score on its threshold. -/
theorem cameraEvents : Obligations.CameraEvents := by
  unfold Obligations.CameraEvents
  refine ⟨?outside, ?badHeader, ?line, ?embedded, ?foreign, ?unnamed, ?badStart, ?otherChannel, ?firstChannel, ?frameEnd, ?badEnd,
    ?stall, ?trigger, ?initWait, ?entry, ?write, fun _ _ _ _ _ => rfl, fun _ port x _ late => paramTransfer_of_retry port x late,
    fun _ port x _ late _ => paramTransfer_of_givenUp port x late, ?low, ?attended, ?present, ?noStage1, ?still, ?absent⟩
  case outside =>
    rintro s _ port k x rfl hr hx ha h2 h3 he hf
    exact exec_event rfl (csi2Packet_of_outside hr hx ha h2 h3 he hf)
  case badHeader =>
    rintro s _ port k x rfl hr hx ha h2 h3 he
    exact exec_event rfl (csi2Packet_of_badHeader hr hx ha h2 h3 he)
  case line =>
    rintro s _ port i k x _ rfl hr hx ha h2 h3 hd he hf rfl ht hi
    have hline := csi2Packet_of_line hr hx ha h2 h3 he hf hd
    rw [exposureOf_of_named ht hi] at hline
    exact exec_event rfl hline
  case embedded =>
    rintro s _ port k x _ rfl hr hx ha hd he hf rfl hv
    exact exec_event rfl ((csi2Packet_of_embedded hr hx ha (by omega) (by omega) he hf hd).trans (if_pos hv))
  case foreign =>
    rintro s _ port k x _ rfl hr hx ha h2 h3 he hf rfl (⟨hd, hv⟩ | ⟨hd, hno⟩)
    · exact exec_event rfl ((csi2Packet_of_embedded hr hx ha h2 h3 he hf hd).trans (if_neg hv))
    · have hline := csi2Packet_of_line hr hx ha h2 h3 he hf hd
      rw [exposureOf_of_foreign hno] at hline
      exact exec_event rfl hline
  case unnamed =>
    rintro s _ port vc ecc x rfl hr hx ha hv he hn
    exact exec_event rfl (frameStartEvent_of_unnamed hr hx ha hv he hn)
  case badStart =>
    rintro s _ port vc x rfl hr hx ha hv
    exact exec_event rfl (frameStartEvent_of_badHeader hr hx ha hv)
  case otherChannel =>
    rintro s _ port vc ecc x rfl hr hx ha hv he hn hc
    exact exec_event rfl (frameStartEvent_of_otherChannel hr hx ha hv he hn hc)
  case firstChannel =>
    rintro s _ y z port vc ecc x rfl hr hx ha hv he hn hc hy hz
    exact exec_event rfl (frameStartEvent_of_firstChannel hr hx ha hv he hn hc hy hz)
  case frameEnd =>
    rintro s _ _ port ecc rfl hr ha he rfl hf
    exact exec_event rfl ((frameEnd_of_received hr rfl ha).trans (if_pos (by simp [he, hf])))
  case badEnd =>
    rintro s _ port rfl hr ha
    exact exec_event rfl ((frameEnd_of_received hr rfl ha).trans (if_neg (by simp)))
  case stall =>
    rintro s _ port rfl hr ha hs hd
    exact exec_event rfl (streamStall_of_late hr rfl ha hs hd)
  case trigger =>
    rintro s _ port _ rfl hr rfl hm hp
    exact exec_event rfl (cameraTrigger_of_phase hr hm hp)
  case initWait =>
    rintro s _ port n x rfl hr hx hi hn
    exact exec_event rfl (initWait_of_elapsed hr hx hi hn)
  case entry =>
    rintro s _ port ok late x e rest rfl hr hb hx hl
    have hdone := i2cTransferDone_of_onBus ok late hr hb hx
    rw [hl] at hdone
    exact exec_event rfl hdone
  case write =>
    rintro s _ port ok late x w rfl hr hb hx hl hw
    have hdone := i2cTransferDone_of_onBus ok late hr hb hx
    rw [hl, hw] at hdone
    exact exec_event rfl hdone
  case low =>
    rintro s _ port score att faces x rfl hr h1 hl ho hf ha hn hx hs
    exact exec_event rfl (presenceScore_of_low hr h1 hl ho hf ha hn hx hs)
  case attended =>
    rintro s _ v port score att faces x rfl hr h1 hl ho hf ha hn hx hs ht hauto hc hv
    exact exec_event rfl (presenceScore_of_attended hr h1 hl ho hf ha hn hx hs ht hauto hc hv)
  case present =>
    rintro s _ port score att faces x rfl hr h1 hl ho hf ha hn hx hs hno
    exact exec_event rfl (presenceScore_of_present hr h1 hl ho hf ha hn hx hs hno)
  case noStage1 =>
    rintro s _ port score att faces rfl - h1
    exact exec_event rfl (presenceScore_of_noStage1 score att faces h1)
  case still =>
    rintro s _ v port x rfl hr hx h1 hh hg hv
    exact exec_event rfl (absentHold_of_still hr hx h1 hh hg hv)
  case absent =>
    rintro s _ port x rfl hr hx h1 hg h2 hh
    exact exec_event rfl (absentHold_of_absent hr hx h1 hg h2 hh)

end Sys2Proof.Machine
end

section
/-! SUPPORT. The step and the fetch of a packet (05 R103 to R115, Tables 5.10 and 5.11): what a fetch needs of the ring, one equation for each
outcome of the fetch checks, and the statements that these settle. -/

namespace Sys2Proof.Machine

/- ### The step and the start of a packet (05 R112, R113) -/

theorem step_of_front {s : State} {i : Instr} {rest : List Instr} (h : s.pending = i :: rest) :
    step s = exec i { s with pending := rest } := by
  unfold step
  rw [h]

/-- Settles O1: the queue is a nonempty list, and its head is what `step` runs. -/
theorem stepTakesFrontCommand : Obligations.StepTakesFrontCommand := by
  unfold Obligations.StepTakesFrontCommand
  exact fun _ _ _ => step_of_front

/-- Settles O3: every packet row is the fetch of its packet, whose settling starts the command. -/
theorem packetStartsRunsItsCommand : Obligations.PacketStartsRunsItsCommand := by
  unfold Obligations.PacketStartsRunsItsCommand
  intro i op opc p s w c hrow h
  exact exec_start hrow h (fun _ => rfl)

/- ### What a fetch needs (05 R103, R115, R127; 01 R19) -/

theorem canFetch_needs {s : State} {rn : Nat} (h : canFetch s rn = true) :
    laurelRuns s = true ∧ leaseHeld s = true ∧ busWritable s (fnOfRing s rn) = true ∧ fetchTurn s (fnOfRing s rn) rn = true := by
  simp only [canFetch, Bool.and_eq_true] at h
  obtain ⟨⟨⟨⟨hrun, hlease⟩, hbus⟩, -⟩, hturn⟩ := h
  exact ⟨hrun, hlease, hbus, hturn⟩

theorem granted_of_leaseHeld {s : State} (h : leaseHeld s = true) : s.custody.state = .granted := by
  simp only [leaseHeld, Bool.and_eq_true, beq_iff_eq] at h
  obtain ⟨⟨⟨hg, -⟩, -⟩, -⟩ := h
  exact hg

theorem busWritable_iff (s : State) (fn : Fn) :
    busWritable s fn = true ↔ dState s fn = .d0 ∧ s.fault.integrity = false ∧ s.pcie.link = .l0 := by
  simp [busWritable, and_assoc]

theorem link_of_canFetch {s : State} {rn : Nat} (h : canFetch s rn = true) : s.pcie.link = .l0 := by
  obtain ⟨-, -, hbus, -⟩ := canFetch_needs h
  obtain ⟨-, -, hlink⟩ := (busWritable_iff s _).mp hbus
  exact hlink

theorem fetchable_iff (s : State) (r : Ring) :
    fetchable s r = true ↔ r.enabled = true ∧ r.fetched ≠ r.sqTail ∧ openOn s r.num < freeEntries s r := by
  simp [fetchable, and_assoc]

theorem fetchable_of_fetchTurn {s : State} {fn : Fn} {rn : Nat} (h : fetchTurn s fn rn = true) : fetchable s (ringOf s rn) = true := by
  simp only [fetchTurn, Bool.and_eq_true] at h
  obtain ⟨⟨hf, -⟩, -⟩ := h
  exact hf

theorem fetchable_of_canFetch {s : State} {rn : Nat} (h : canFetch s rn = true) :
    (ringOf s rn).enabled = true ∧ (ringOf s rn).fetched ≠ (ringOf s rn).sqTail
      ∧ openOn s (ringOf s rn).num < freeEntries s (ringOf s rn) := by
  obtain ⟨-, -, -, hturn⟩ := canFetch_needs h
  exact (fetchable_iff s _).mp (fetchable_of_fetchTurn hturn)

/-- A ring has its turn only where no fetchable ring of its function has a better class. -/
theorem ringClass_le_of_fetchTurn {s : State} {fn : Fn} {rn : Nat} {q : Ring} (h : fetchTurn s fn rn = true) (hq : q ∈ s.rings)
    (hfn : fnOfRing s q.num = fn) (hf : fetchable s q = true) : ringClass (ringOf s rn) ≤ ringClass q := by
  simp only [fetchTurn, Bool.and_eq_true, List.all_eq_true, decide_eq_true_eq] at h
  obtain ⟨⟨-, hall⟩, -⟩ := h
  exact hall q (List.mem_filter.mpr ⟨hq, by simp [hfn, hf]⟩)

theorem fetchRow_of_cannotFetch {op : Op} {opc : Nat} {p : Packet} {s : State} (h : canFetch s p.ring = false) : fetchRow op opc p s = s :=
  if_neg (by simp [h])

/-- Settles O4: a row whose ring cannot be fetched from is the identity, and each of the other clauses denies one thing that a fetch needs. -/
theorem packetRowsWaitForTheirFetch : Obligations.PacketRowsWaitForTheirFetch := by
  unfold Obligations.PacketRowsWaitForTheirFetch
  simp only [Bool.eq_false_iff (b := canFetch _ _)]
  refine ⟨?row, ?halted, ?noLease, ?linkDown, ?notD0, ?disabled, ?empty, ?noEntry, ?betterClass⟩
  case row =>
    intro i op opc p s hrow h
    rw [exec_packetRow s hrow, fetchRow_of_cannotFetch (Bool.eq_false_iff.mpr h)]
  case halted =>
    intro s rn hr h
    obtain ⟨hrun, -, -, -⟩ := canFetch_needs h
    exact absurd hrun (by simp [hr])
  case noLease =>
    intro s rn hg h
    obtain ⟨-, hlease, -, -⟩ := canFetch_needs h
    exact hg (granted_of_leaseHeld hlease)
  case linkDown =>
    intro s rn hl h
    exact absurd (link_of_canFetch h) (by simp [hl])
  case notD0 =>
    intro s rn hd h
    obtain ⟨-, -, hbus, -⟩ := canFetch_needs h
    obtain ⟨hd0, -, -⟩ := (busWritable_iff s _).mp hbus
    exact hd hd0
  case disabled =>
    intro s rn he h
    obtain ⟨hen, -, -⟩ := fetchable_of_canFetch h
    exact absurd hen (by simp [he])
  case empty =>
    intro s rn he h
    obtain ⟨-, hne, -⟩ := fetchable_of_canFetch h
    exact hne he
  case noEntry =>
    intro s rn he h
    obtain ⟨-, -, hroom⟩ := fetchable_of_canFetch h
    exact absurd hroom (Nat.not_lt.mpr he)
  case betterClass =>
    intro s rn q hq hfn hf hlt h
    obtain ⟨-, -, -, hturn⟩ := canFetch_needs h
    exact absurd (ringClass_le_of_fetchTurn hturn hq hfn hf) (Nat.not_le.mpr hlt)

/- ### The outcomes of the fetch checks (05 R104, Table 5.11) -/

section
variable {op : Op} {opc : Nat} {p q : Packet} {u : State} {body block : List Byte} {c : Cmd} {st : Status} {e : Status}
  (hq : q = { p with body := fitBytes (bodyLen (fnOfRing u p.ring)) p.body })
include hq

theorem fetchPacket_of_unauthentic (ha : authenticate u (fnOfRing u p.ring) op opc q = none)
    (hc : c = cmdOfPacket u op q false q.body []) : fetchPacket op opc p u = complete (takePacket u c opc false) c .authFail := by
  subst hq hc
  simp only [fetchPacket, ha]

variable (ha : authenticate u (fnOfRing u p.ring) op opc q = some body)
include ha

/-- A packet whose block cannot be read completes with the status of the first check that it fails. -/
theorem fetchPacket_of_unreadable
    (hb : openBlock u (fnOfRing u p.ring == .pf1 && flag q 5) { q with body := body } = .error e)
    (hc : c = cmdOfPacket u op q true body []) (hf : fetchStatus u c (some e) = some st) :
    fetchPacket op opc p u = complete (takePacket u c opc true) c st (if st = .privacyBlock then blockedResult u c else []) := by
  subst hq hc
  simp only [fetchPacket, ha, hb, hf]

/-- A packet that passes every check is an open command that waits for its start. -/
theorem fetchPacket_of_passed
    (hb : openBlock u (fnOfRing u p.ring == .pf1 && flag q 5) { q with body := body } = .ok block)
    (hc : c = cmdOfPacket u op q true body block) (hf : fetchStatus u c none = none) :
    fetchPacket op opc p u = setCmd (assignSseq (takePacket u c opc true) c).1 (assignSseq (takePacket u c opc true) c).2 := by
  subst hq hc
  simp only [fetchPacket, ha, hb, hf]

end

/-- A reserved opcode fails the second check, whatever its block is. -/
theorem fetchStatus_of_badOpcode {c : Cmd} (h : c.op = .badOpcode) (s : State) (e : Option Status) : fetchStatus s c e = some .badOpcode :=
  if_pos h

/-- The row of a packet that is fetched ends, once the settling of the fetch and the deadlines of its tick are over, as its fetch does. -/
theorem exec_fetched {i : Instr} {op : Op} {opc : Nat} {p : Packet} {s t : State} (hrow : packetRow i = some (op, opc, p))
    (hcan : canFetch s p.ring = true) (hf : fetchPacket op opc p (sweepOld s) = t) : exec i s = .next (settleLate t) := by
  rw [exec_packetRow s hrow, fetchRow_of_canFetch hcan, hf]

/-- Settles O5: the outcome of the fetch is that of its authentication, of its block and of `fetchStatus`, one clause for each. -/
theorem failedFetchCheckCompletes : Obligations.FailedFetchCheckCompletes := by
  unfold Obligations.FailedFetchCheckCompletes
  rintro i op opc p q s _ hrow hcan rfl hq
  refine ⟨?unauthentic, ?failed, ?unreadable, ?passed, ?badOpcode⟩
  case unauthentic =>
    intro c ha hc
    exact exec_fetched hrow hcan (fetchPacket_of_unauthentic hq ha hc)
  case failed =>
    intro body block c st ha hb hc hf
    exact exec_fetched hrow hcan (fetchPacket_of_failed hq ha hb hc hf)
  case unreadable =>
    intro body e c st ha hb hc hf
    exact exec_fetched hrow hcan (fetchPacket_of_unreadable hq ha hb hc hf)
  case passed =>
    intro body block c ha hb hc hf
    exact exec_fetched hrow hcan (fetchPacket_of_passed hq ha hb hc hf)
  case badOpcode =>
    rintro c e rfl hop
    exact fetchStatus_of_badOpcode hop _ e

theorem packetRow_badOpcode {opc : Byte} (p : Packet) (h : definedOpcodes.contains opc.toNat = false) :
    packetRow (.badOpcode opc p) = some (.badOpcode, opc.toNat, p) :=
  if_neg (by simp only [h]; decide)

theorem exec_badOpcode_of_defined {opc : Byte} (p : Packet) (s : State) (h : definedOpcodes.contains opc.toNat = true) :
    exec (.badOpcode opc p) s = .next s :=
  congrArg Host.Outcome.next (if_pos h)

/-- Settles O6: a reserved opcode is the command that fails the second check, before its block is looked at; a defined one is no packet of
this row. -/
theorem reservedOpcodeFails : Obligations.ReservedOpcodeFails := by
  unfold Obligations.ReservedOpcodeFails
  refine ⟨?readable, ?unreadable, fun _ p s => exec_badOpcode_of_defined p s⟩
  case readable =>
    rintro opc p q s _ body block c hd hcan rfl hq ha hb rfl
    exact exec_fetched (packetRow_badOpcode p hd) hcan (fetchPacket_of_failed hq ha hb rfl (fetchStatus_of_badOpcode rfl _ none))
  case unreadable =>
    rintro opc p q s _ body e c hd hcan rfl hq ha hb rfl
    exact exec_fetched (packetRow_badOpcode p hd) hcan (fetchPacket_of_unreadable hq ha hb rfl (fetchStatus_of_badOpcode rfl _ (some e)))

end Sys2Proof.Machine
end

section
/-! SUPPORT. Settling (05 R113; 11 R268; 15 R358): that it leaves a state alone in which nothing waits, how a parked command goes on, what a
fetch, a start and a completion leave as it was, and the statements that these settle. -/

namespace Sys2Proof.Machine

/- ### Settling where nothing waits -/

theorem regrant_of_held {s : State} (h : s.custody.state ≠ .relinquished) : regrant s = s :=
  if_neg fun hc => h hc.1

theorem resumeRetires_of_nil {s : State} (h : s.dram.pendingRetire = []) : resumeRetires s = s :=
  List.foldl_fixed' (fun _ => if_neg (by simp [h])) _

theorem startPrefetches_of_nil {s : State} (h : s.work.streams = []) : startPrefetches s = s := by
  rw [startPrefetches, h, List.map_nil, ← h]

theorem serveSlots_of_nil {s : State} (h : s.work.slots = []) : serveSlots s = s := by
  rw [serveSlots, h, List.foldl_nil]

theorem refreshSlots_of_nil {s : State} (h : s.work.slots = []) : refreshSlots s = s := by
  rw [refreshSlots, h, List.foldl_nil]

theorem boostAll_work (s : State) : (boostAll s).work = s.work := by
  obtain ⟨_, h, -⟩ := boostAll_frame s
  rw [h]

/-- Where no slot and no stream waits, only the boosts follow from a change at once. -/
theorem tidy_of_idle {s : State} (hslots : s.work.slots = []) (hstreams : s.work.streams = []) : tidy s = boostAll s := by
  rw [tidy, startPrefetches_of_nil hstreams, serveSlots_of_nil hslots]
  exact refreshSlots_of_nil (by rw [boostAll_work, hslots])

theorem boostEdges_of_nil {s : State} (h : s.cmds = []) : boostEdges s = [] := by
  rw [boostEdges, h, List.flatMap_nil]

theorem map_of_unboosted {l : List Ring} (h : ∀ r ∈ l, r.boost = none) : l.map (fun r => { r with boost := none }) = l :=
  (List.map_congr_left (g := id) fun r hr => by rw [← h r hr]; rfl).trans l.map_id

theorem boostPass_of_idle {s : State} (hc : s.cmds = []) (hb : ∀ r ∈ s.rings, r.boost = none) : boostPass s = s := by
  unfold boostPass
  simp only [boostEdges_of_nil hc]
  exact congrArg (fun l => { s with rings := l }) (map_of_unboosted hb)

/-- Without a command there is no wait-for edge, so that no ring gets a boost. -/
theorem boostAll_of_idle {s : State} (hc : s.cmds = []) (hb : ∀ r ∈ s.rings, r.boost = none) : boostAll s = s := by
  unfold boostAll
  simp only [map_of_unboosted hb]
  exact List.foldl_fixed' (fun _ => boostPass_of_idle hc hb) _

theorem settleLoop_of_nil {s : State} (n : Nat) (h : s.cmds = []) : settleLoop n s = s := by
  cases n with
  | zero => rfl
  | succ n => rw [settleLoop, h, List.findSome?_nil]

theorem wakeLink_of_nil {s : State} (h : s.heldOut = []) : wakeLink s = s :=
  if_neg (by simp [h])

theorem cmdOf_of_nil {s : State} (h : s.cmds = []) (id : Nat) : cmdOf s id = none := by
  rw [cmdOf, h, List.find?_nil]

theorem endAll_of_nil {s : State} (h : s.cmds = []) (ids : List Nat) (st : Status) : endAll s ids st = s :=
  List.foldl_fixed' (fun id => by rw [cmdOf_of_nil h id]) ids

/-- Work without a command, a step, a residency or a prefetch demands no domain. -/
theorem demandAll_of_idle {s : State} (hc : s.cmds = []) (hsteps : s.work.steps = []) (hmodels : s.work.models = [])
    (hstreams : s.work.streams = []) : demandAll s = s := by
  unfold demandAll
  dsimp only
  rw [hc, List.filter_nil, List.foldl_nil, List.foldl_fixed' (a := s) (fun j => ?noJob) s.work.jobs, hsteps, List.foldl_nil, hmodels,
    List.filter_nil, List.foldl_nil, hstreams, List.filter_nil, List.foldl_nil]
  case noJob => simp only [cmdOf_of_nil hc]

theorem sweepBy_of_nil {s : State} (h : s.cmds = []) (due : State → Nat → Bool) (late : State → Cmd → Bool) : sweepBy due late s = s := by
  unfold sweepBy endImages
  split
  · rfl
  · simp only [endAll_of_nil h, h, List.filter_nil, List.foldl_nil]

section
variable {s : State} (h : Calm s)
include h

theorem tidy_of_calm : tidy s = s := by
  obtain ⟨hc, hslots, -, hstreams, -, -, -, -, hb⟩ := h
  rw [tidy_of_idle hslots hstreams, boostAll_of_idle hc hb]

theorem ensuingWith_of_calm (n : Nat) : ensuingWith n s = s := by
  obtain ⟨hc, -, hsteps, hstreams, hmodels, hheld, -, -, hb⟩ := id h
  rw [ensuingWith, tidy_of_calm h, settleLoop_of_nil n hc, demandAll_of_idle hc hsteps hmodels hstreams, wakeLink_of_nil hheld,
    boostAll_of_idle hc hb]

theorem settle_of_calm : settle s = s := by
  obtain ⟨hc, -, -, -, -, hheld, hretire, hlease, hb⟩ := id h
  unfold settle
  rw [regrant_of_held hlease, resumeRetires_of_nil hretire]
  dsimp only
  split
  · exact ensuingWith_of_calm h settleFuel
  · rw [wakeLink_of_nil hheld, boostAll_of_idle hc hb]

theorem sweep_of_calm : sweep s = s :=
  sweepBy_of_nil h.1 _ _

theorem sweepOld_of_calm : sweepOld s = s :=
  sweepBy_of_nil h.1 _ _

theorem concluded_of_calm : concluded s = s := by
  rw [concluded, sweep_of_calm h, settle_of_calm h]

end

/-- Settles O54: each part of settling goes through lists that are empty in a calm state. -/
theorem nothingFollowsWhenNothingWaits : Obligations.NothingFollowsWhenNothingWaits := by
  unfold Obligations.NothingFollowsWhenNothingWaits
  refine ⟨fun _ => settle_of_calm, fun _ => sweep_of_calm, fun s h => ?ensuing, fun s h => ?thereafter⟩
  case ensuing => rw [ensuing, following, ensuingWith_of_calm h, concluded_of_calm h]
  case thereafter => rw [thereafter, ensuingWith_of_calm h, concluded_of_calm h]

/- ### Parked commands that go on (05 R117, R119; 11 R266, R271; 16 R374) -/

section
variable {s : State} {c : Cmd}

theorem resumeCmd_semWait (ho : c.op = .semWait) : resumeCmd c s = resumeSemWait c s := by
  unfold resumeCmd
  rw [ho]

theorem resumeCmd_fence (ho : c.op = .fence) : resumeCmd c s = resumeFence c s := by
  unfold resumeCmd
  rw [ho]

theorem resumeCmd_modelLoad (ho : c.op = .modelLoad) : resumeCmd c s = resumeModelLoad c s := by
  unfold resumeCmd
  rw [ho]

theorem resumeCmd_groupJoin (ho : c.op = .groupJoin) : resumeCmd c s = resumeGroupJoin c s := by
  unfold resumeCmd
  rw [ho]

theorem resumeSemWait_of_named {x : Sem} (hx : semNamed s c = some x) :
    resumeSemWait c s =
      if ((semWaiters s x.num).head?.map (·.id)) = some c.id ∧ arg c 26 2 ≤ x.count.toNat then
        some (complete (setSem s { x with count := BitVec.ofNat 32 (x.count.toNat - arg c 26 2) }) c .ok
          (natLe 4 (x.count.toNat - arg c 26 2)))
      else none := by
  unfold resumeSemWait
  rw [hx]

theorem resumeFence_of_ended (h : stillOpen s c.awaited = false) : resumeFence c s = some (complete s c .ok) :=
  if_neg (by simp [h])

theorem resumeFence_of_open (h : stillOpen s c.awaited = true) : resumeFence c s = none :=
  if_pos h

theorem resumeModelLoad_of_resident {m : Model} (hm : modelOf s c.fn c.aux = some m) (hr : m.resident.isSome = true) :
    resumeModelLoad c s = some (complete s c .ok (loadResult m)) := by
  unfold resumeModelLoad
  rw [hm]
  exact if_pos hr

theorem resumeGroupJoin_of_joining (hj : s.group.joinCmd = some c.id) :
    resumeGroupJoin c s =
      if s.group.peers.all (·.present) then
        some (complete (writeBlocks { s with group := { s.group with state := 2, joinCmd := none } }) c .ok c.res)
      else none :=
  if_neg (not_not_intro hj)

end

/-- Settles O53: settling lets the first parked command go on, and each wait ends or stays as its command's own condition says. -/
theorem parkedCommandsGoOn : Obligations.ParkedCommandsGoOn := by
  unfold Obligations.ParkedCommandsGoOn
  refine ⟨fun _ _ _ _ => settle_firstResume, ?semTakes, ?semWaits, ?fenceEnds, ?fenceWaits, ?modelLoaded, ?joins, ?joinWaits⟩
  case semTakes =>
    intro s c x ho hx hfirst hcount
    rw [resumeCmd_semWait ho, resumeSemWait_of_named hx, if_pos ⟨hfirst, hcount⟩]
  case semWaits =>
    intro s c x ho hx hcount
    rw [resumeCmd_semWait ho, resumeSemWait_of_named hx, if_neg fun h => Nat.not_lt.mpr h.2 hcount]
  case fenceEnds =>
    intro s c ho h
    rw [resumeCmd_fence ho, resumeFence_of_ended h]
  case fenceWaits =>
    intro s c ho h
    rw [resumeCmd_fence ho, resumeFence_of_open h]
  case modelLoaded =>
    intro s c m ho hm hr
    rw [resumeCmd_modelLoad ho, resumeModelLoad_of_resident hm hr]
  case joins =>
    intro s c ho hj hall
    rw [resumeCmd_groupJoin ho, resumeGroupJoin_of_joining hj, if_pos hall]
  case joinWaits =>
    intro s c ho hj hall
    rw [resumeCmd_groupJoin ho, resumeGroupJoin_of_joining hj, if_neg (by simp [hall])]

/- ### What fetching, starting and completing leave as it was (05 R104, R113 to R115, R127) -/

/-- The machine beside what packets move: rings and turns, open commands and their counts, host memory, held records, counters and trace,
the pins, and on a resting link the request to leave that state. -/
def besidePackets (s : State) : State :=
  { s with rings := [], turns := [], cmds := [], fetchedLog := [], nextCmd := 0, heldOut := [], obs := {}, pins := {}
           store := { s.store with host := [] }
           pcie := { s.pcie with exitAsked := s.pcie.exitAsked && !linkRests s.pcie.link } }

/-- A part of the machine that packets do not move is the same where all of it is. -/
theorem part_of_besidePackets {α : Type} (part : State → α) (hpart : ∀ s, part (besidePackets s) = part s) {s w : State}
    (h : besidePackets w = besidePackets s) : part w = part s := by
  rw [← hpart w, h, hpart s]

/-- On a link that does not rest, the whole state of the link is beside packets. -/
theorem pcie_of_besidePackets {s w : State} (h : besidePackets w = besidePackets s) (hl : linkRests s.pcie.link = false) :
    w.pcie = s.pcie := by
  have hw : linkRests w.pcie.link = false := by
    rw [part_of_besidePackets (fun s => s.pcie.link) (fun _ => rfl) h, hl]
  have hp := congrArg State.pcie h
  simpa only [besidePackets, hw, hl, Bool.not_false, Bool.and_true] using hp

@[simp] theorem besidePackets_leaveLink (s : State) (fn : Fn) : besidePackets (leaveLink s fn) = besidePackets s := by
  unfold leaveLink
  split
  · rename_i h
    simp [besidePackets, h.2]
  · rfl

@[simp] theorem besidePackets_hostWrite (s : State) (a : Nat) (bs : List Byte) : besidePackets (hostWrite s a bs) = besidePackets s := rfl
@[simp] theorem besidePackets_writeWord (s : State) (r : Nat) : besidePackets (writeWord s r) = besidePackets s := rfl
@[simp] theorem besidePackets_setRing (s : State) (r : Ring) : besidePackets (setRing s r) = besidePackets s := rfl
@[simp] theorem besidePackets_takeTurn (s : State) (fn : Fn) (rn : Nat) : besidePackets (takeTurn s fn rn) = besidePackets s := rfl
@[simp] theorem besidePackets_setCmd (s : State) (c : Cmd) : besidePackets (setCmd s c) = besidePackets s := rfl
@[simp] theorem besidePackets_dropCmd (s : State) (id : Nat) : besidePackets (dropCmd s id) = besidePackets s := rfl
@[simp] theorem besidePackets_countUp (s : State) (id inst n : Nat) : besidePackets (countUp s id inst n) = besidePackets s := rfl

@[simp] theorem besidePackets_traceCmd (s : State) (c : Cmd) (ev d : Nat) : besidePackets (traceCmd s c ev d) = besidePackets s := by
  obtain ⟨_, h⟩ := traceCmd_form s c ev d
  rw [h]
  rfl

@[simp] theorem besidePackets_boostAll (s : State) : besidePackets (boostAll s) = besidePackets s := by
  obtain ⟨_, h, -⟩ := boostAll_frame s
  rw [h]
  rfl

@[simp] theorem besidePackets_postRecord (s : State) (fn : Fn) (rn : Nat) (se co : Bool) (rc : List Byte) :
    besidePackets (postRecord s fn rn se co rc) = besidePackets s := by
  unfold postRecord
  split
  · rfl
  · exact besidePackets_leaveLink _ fn

@[simp] theorem besidePackets_complete (s : State) (c : Cmd) (st : Status) (r : List Byte) :
    besidePackets (complete s c st r) = besidePackets s := by
  simp [complete, completeAt]

@[simp] theorem besidePackets_progress (s : State) (c : Cmd) (p d : Nat) (o : Bool) :
    besidePackets (progress s c p d o) = besidePackets s := by
  unfold progress
  split
  · rfl
  · dsimp only
    split <;> simp

@[simp] theorem besidePackets_takePacket (s : State) (c : Cmd) (opc : Nat) (a : Bool) :
    besidePackets (takePacket s c opc a) = besidePackets s := by
  simp only [takePacket, besidePackets_traceCmd, besidePackets_writeWord]
  rfl

theorem setCmd_cmds (s : State) (c : Cmd) : (setCmd s c).cmds = s.cmds.map (fun x => if x.id = c.id then c else x) := rfl

theorem complete_cmds (s : State) (c : Cmd) (st : Status) (r : List Byte) :
    (complete s c st r).cmds = s.cmds.filter (fun d => d.id != c.id) := by
  simp only [complete, completeAt, traceCmd_cmds]
  exact postRecord_cmds (dropCmd s c.id) _ _ _ _ _

theorem takePacket_cmds (s : State) (c : Cmd) (opc : Nat) (a : Bool) : (takePacket s c opc a).cmds = s.cmds ++ [c] := by
  simp only [takePacket, traceCmd_cmds]
  rfl

theorem assignSseq_of_noStream {s : State} (c : Cmd) (h : s.work.streams = []) : assignSseq s c = (s, c) := by
  have hnone : (if takesSseq c.op then streamOf s c.fn (ctxHandle c.pkt) else none) = none := by simp [streamOf, h]
  unfold assignSseq
  rw [hnone]

/-- A fetched packet completes at once or waits for its start. -/
theorem fetchPacket_cases (op : Op) (opc : Nat) (p : Packet) (u : State) : ∃ c a,
    (∃ st r, fetchPacket op opc p u = complete (takePacket u c opc a) c st r)
      ∨ fetchPacket op opc p u = setCmd (assignSseq (takePacket u c opc a) c).1 (assignSseq (takePacket u c opc a) c).2 := by
  unfold fetchPacket
  dsimp only
  cases authenticate u (fnOfRing u p.ring) op opc { p with body := fitBytes (bodyLen (fnOfRing u p.ring)) p.body } with
  | none => exact ⟨_, _, .inl ⟨_, _, rfl⟩⟩
  | some body =>
    dsimp only
    generalize cmdOfPacket u op _ true body _ = c
    cases fetchStatus u c _ with
    | none => exact ⟨c, true, .inr rfl⟩
    | some st => exact ⟨c, true, .inl ⟨st, _, rfl⟩⟩

/-- The fetch of a packet where no command is open and no stream waits leaves the rest of the machine as it was, and at most that
packet's command open. -/
theorem fetchPacket_of_idle (op : Op) (opc : Nat) (p : Packet) {u : State} (hc : u.cmds = []) (hs : u.work.streams = []) :
    besidePackets (fetchPacket op opc p u) = besidePackets u
      ∧ ((fetchPacket op opc p u).cmds = [] ∨ ∃ c, (fetchPacket op opc p u).cmds = [c]) := by
  obtain ⟨c, a, ⟨st, r, h⟩ | h⟩ := fetchPacket_cases op opc p u
  · rw [h]
    exact ⟨by simp, .inl (by simp [complete_cmds, takePacket_cmds, hc])⟩
  · have hw : (takePacket u c opc a).work = u.work := part_of_besidePackets State.work (fun _ => rfl) (by simp)
    rw [h, assignSseq_of_noStream c (by rw [hw, hs])]
    exact ⟨by simp, .inr ⟨c, by simp [setCmd, takePacket_cmds, hc]⟩⟩

/-- The command that starts first is one of those open; its start writes its record and no more. -/
theorem firstStart_eq {s w : State} {c : Cmd} (h : firstStart s = some (c, w)) :
    (∃ d ∈ (readied s).cmds, d.id = c.id) ∧ w = progress (setCmd (readied s) c) c 0x0005 0 true := by
  unfold firstStart at h
  split at h
  · dsimp only at h
    split at h
    · rename_i d hd
      split at h
      · cases h
        exact ⟨⟨d, List.mem_of_find?_eq_some hd, rfl⟩, rfl⟩
      · cases h
    · cases h
  · cases h

theorem readied_of_idle {s : State} (hlease : s.custody.state ≠ .relinquished) (hretire : s.dram.pendingRetire = [])
    (hslots : s.work.slots = []) (hstreams : s.work.streams = []) : readied s = boostAll s := by
  rw [readied, regrant_of_held hlease, resumeRetires_of_nil hretire, tidy_of_idle hslots hstreams]

theorem boostAll_cmds (s : State) : (boostAll s).cmds = s.cmds := by
  obtain ⟨_, h, -⟩ := boostAll_frame s
  rw [h]

/-- From a calm state the fetch and the start of a packet leave the rest of the machine as it was, and that packet's command as the only
one open. -/
theorem startOf_of_calm {op : Op} {opc : Nat} {p : Packet} {s w : State} {c : Cmd} (h : Calm s)
    (hs : startOf op opc p s = some (c, w)) : besidePackets w = besidePackets s ∧ w.cmds = [c] := by
  obtain ⟨hc, hslots, -, hstreams, -, -, hretire, hlease, -⟩ := id h
  obtain ⟨-, hfirst, -⟩ := startOf_firstStart hs
  rw [sweepOld_of_calm h] at hfirst
  obtain ⟨hkept, hopen⟩ := fetchPacket_of_idle op opc p hc hstreams
  generalize fetchPacket op opc p s = v at hfirst hkept hopen
  have hready : readied v = boostAll v := by
    rw [← part_of_besidePackets State.custody (fun _ => rfl) hkept] at hlease
    rw [← part_of_besidePackets State.dram (fun _ => rfl) hkept] at hretire
    rw [← part_of_besidePackets State.work (fun _ => rfl) hkept] at hslots hstreams
    exact readied_of_idle hlease hretire hslots hstreams
  obtain ⟨⟨d, hd, hid⟩, rfl⟩ := firstStart_eq hfirst
  rw [hready] at hd ⊢
  constructor
  · calc besidePackets (progress (setCmd (boostAll v) c) c 0x0005 0 true)
      _ = besidePackets (setCmd (boostAll v) c) := besidePackets_progress ..
      _ = besidePackets (boostAll v) := besidePackets_setCmd ..
      _ = besidePackets v := besidePackets_boostAll v
      _ = besidePackets s := hkept
  · rw [boostAll_cmds] at hd
    rw [progress_cmds, setCmd_cmds, boostAll_cmds]
    obtain hnone | ⟨e, hone⟩ := hopen
    · simp [hnone] at hd
    · obtain rfl : d = e := by simpa [hone] using hd
      simp [hone, hid]

/-- Settles O55: every part of a fetch, a start and a completion keeps what is beside packets, and the device fetches only on a link in L0,
which does not rest. -/
theorem startAndCompletionFrames : Obligations.StartAndCompletionFrames := by
  unfold Obligations.StartAndCompletionFrames
  refine ⟨?start, ?completion⟩
  case start =>
    intro op opc p s w c h hs
    obtain ⟨hkept, hopen⟩ := startOf_of_calm h hs
    have hpcie : w.pcie = s.pcie := pcie_of_besidePackets hkept (by rw [link_of_canFetch (startOf_firstStart hs).1]; rfl)
    simp only [besidePackets, State.mk.injEq, Store.mk.injEq] at hkept
    simp only [hkept, hpcie, hopen, and_self]
  case completion =>
    intro s c st r
    have hkept := besidePackets_complete s c st r
    rw [complete_cmds]
    generalize complete s c st r = w at hkept ⊢
    simp only [besidePackets, State.mk.injEq, Store.mk.injEq, Pcie.mk.injEq] at hkept
    simp only [hkept, and_self]

end Sys2Proof.Machine
end

section
/-! SUPPORT. The session and ring commands (05 R112, R116 to R123; 21 R438): one equation for each case of each command, and the statements that
these settle. -/

namespace Sys2Proof.Machine

section
variable {s : State} {c : Cmd}

theorem runCmd_nop (h : c.op = .nop) : runCmd c s = runNop c s := by
  unfold runCmd
  rw [h]

theorem runCmd_capsRead (h : c.op = .capsRead) : runCmd c s = runCapsRead c s := by
  unfold runCmd
  rw [h]

theorem runCmd_sessionOpen (h : c.op = .sessionOpen) : runCmd c s = runSessionOpen c s := by
  unfold runCmd
  rw [h]

theorem runCmd_sessionClose (h : c.op = .sessionClose) : runCmd c s = runSessionClose c s := by
  unfold runCmd
  rw [h]

theorem runCmd_ringCreate (h : c.op = .ringCreate) : runCmd c s = runRingCreate c s := by
  unfold runCmd
  rw [h]

theorem runCmd_ringDestroy (h : c.op = .ringDestroy) : runCmd c s = runRingDestroy c s := by
  unfold runCmd
  rw [h]

theorem runCmd_cancel (h : c.op = .cancel) : runCmd c s = runCancel c s := by
  unfold runCmd
  rw [h]

theorem runCmd_fence (h : c.op = .fence) : runCmd c s = runFence c s := by
  unfold runCmd
  rw [h]

end

/- ### Sessions (05 R121 to R123) -/

section
variable {s : State} {c : Cmd} {key : U256} (hk : tenantKey s c.fn = some key) (hl : (sess s c.fn).lockedUntil ≤ ctrlStamp s)
include hk hl

/-- Where the tenant has a key and no lockout is in force, `PHASE` says what `SESSION_OPEN` does. -/
theorem runSessionOpen_of_key : runSessionOpen c s = if arg c 24 1 = 0 then runChallenge c s else runProof c key s := by
  unfold runSessionOpen
  rw [hk]
  exact if_neg (Nat.not_lt.mpr hl)

theorem runSessionOpen_of_phase0 (hp : arg c 24 1 = 0) : runSessionOpen c s = runChallenge c s :=
  (runSessionOpen_of_key hk hl).trans (if_pos hp)

theorem runSessionOpen_of_phase1 (hp : arg c 24 1 = 1) : runSessionOpen c s = runProof c key s :=
  (runSessionOpen_of_key hk hl).trans (if_neg (by omega))

end

/-- The proof of an unexpired challenge opens the session. -/
theorem runProof_of_valid {s x : State} {c : Cmd} {key : U256} {ch : Challenge} (hn : (sess s c.fn).number = 0)
    (hc : (sess s c.fn).challenge = some ch) (hid : ch.id = arg c 26 2) (he : ctrlStamp s < ch.expires)
    (hp : natLe 32 (proofOf key c.fn ch).toNat = argBytes c 32 32) (hx : x = openSession c.fn key ch.nonce s) :
    runProof c key s =
      complete x { c with session := sessionOf x c.fn } .ok
        (natLe 2 (sessionOf x c.fn) ++ natLe 2 (match c.fn with | .pf0 => 4096 - s.regs.ringSplit | .pf1 => s.regs.ringSplit)) := by
  subst hx
  unfold runProof
  dsimp only
  rw [if_neg (not_not_intro hn), hc]
  exact if_pos ⟨hid, he, hp⟩

/-- Settles O9: each row is the body of its command in the state of the start; `SESSION_OPEN` is split on its phase. -/
theorem sessionCommandsComplete : Obligations.SessionCommandsComplete := by
  unfold Obligations.SessionCommandsComplete
  refine ⟨?nop, ?caps, ?challenge, ?proof, ?close⟩
  case nop =>
    intro p s w c h
    exact exec_start rfl h runCmd_nop
  case caps =>
    intro p s w c h
    exact exec_start rfl h runCmd_capsRead
  case challenge =>
    intro p s w c key h hk hl hp
    exact exec_start rfl h (fun ho => (runCmd_sessionOpen ho).trans (runSessionOpen_of_phase0 hk hl hp))
  case proof =>
    intro p s w c key ch h hk hl hp hn hc hid he hproof
    exact exec_start rfl h (fun ho => (runCmd_sessionOpen ho).trans
      ((runSessionOpen_of_phase1 hk hl hp).trans (runProof_of_valid hn hc hid he hproof rfl)))
  case close =>
    intro p s w c h
    exact exec_start rfl h runCmd_sessionClose

/- ### Rings, CANCEL and FENCE (05 R116 to R120) -/

theorem runRingCreate_of_free {s : State} {c : Cmd} {r : Ring} (he : (ringOf s (arg c 24 2)).enabled = false)
    (hg : generationOf s c.fn (arg c 24 2) ≤ 65535)
    (hr : r = {
      num := arg c 24 2, enabled := true, cls := arg c 27 1, log2 := arg c 26 1, sqBase := BitVec.ofNat 64 (arg c 28 8)
      cqBase := BitVec.ofNat 64 (arg c 36 8), cwAddr := BitVec.ofNat 64 (arg c 44 8), generation := generationOf s c.fn (arg c 24 2)
      session := sessionOf s c.fn, dbIgnored := (ringOf s (arg c 24 2)).dbIgnored }) :
    runRingCreate c s =
      complete (countGeneration (hostOut (setRing (forgetRing s (arg c 24 2)) r) c.fn (arg c 44 8) (zeroBytes 8)) c.fn (arg c 24 2)) c .ok
        (natLe 2 (arg c 24 2) ++ natLe 2 (generationOf s c.fn (arg c 24 2))) := by
  subst hr
  exact if_neg (by simp [he, hg])

theorem runRingDestroy_of_bound {s x : State} {c : Cmd} (hb : sameSession s c (arg c 24 2) = true)
    (hx : x = endAll s ((s.cmds.filter (fun d => d.pkt.ring == arg c 24 2)).map (·.id)) .cancelled) :
    runRingDestroy c s = complete (setRing x { ringOf x (arg c 24 2) with enabled := false, session := 0 }) c .ok := by
  subst hx
  exact if_neg (by simp [hb])

theorem runCancel_of_bound {s : State} {c : Cmd} (hb : sameSession s c (arg c 24 2) = true) :
    runCancel c s = complete (endAll s (cancelMatches s c) .cancelled) c .ok
      (natLe 4 (cancelMatches s c).length ++ natLe 4 (cancelMatches s c).length) :=
  if_neg (by simp [hb])

theorem runFence_of_bound {s : State} {c d : Cmd} (hb : (fenceRings c).all (sameSession s c) = true)
    (hd : d = { c with
      phase := .parked .others
      awaited := (s.cmds.filter (fun x => (fenceRings c).contains x.pkt.ring && decide (x.id < c.id))).map (·.id) }) :
    runFence c s = setCmd s d := by
  subst hd
  exact if_neg (by simp only [hb]; decide)

/-- Settles O11: each row is the body of its command in the state of the start; a `FENCE` that waits for nothing goes on at once. -/
theorem ringCommandsComplete : Obligations.RingCommandsComplete := by
  unfold Obligations.RingCommandsComplete
  refine ⟨?create, ?destroy, ?cancel, ?fence⟩
  case create =>
    intro p s w c r h he hg hr
    exact exec_start rfl h (fun ho => (runCmd_ringCreate ho).trans (runRingCreate_of_free he hg hr))
  case destroy =>
    intro p s w c x h hb hx
    exact exec_start rfl h (fun ho => (runCmd_ringDestroy ho).trans (runRingDestroy_of_bound hb hx))
  case cancel =>
    intro p s w c h hb
    exact exec_start rfl h (fun ho => (runCmd_cancel ho).trans (runCancel_of_bound hb))
  case fence =>
    intro p s w c d v h hb hd hgo hended
    have hop : d.op = .fence := by rw [hd, startOf_op h]
    have hresume : resumeCmd d v = some (complete v d .ok) := by rw [resumeCmd_fence hop, resumeFence_of_ended hended]
    rw [← ensuing_goesOn hgo hresume]
    exact exec_start rfl h (fun ho => (runCmd_fence ho).trans (runFence_of_bound hb hd))

end Sys2Proof.Machine
end

section
/-! SUPPORT. Register writes of the host (05 R97, R100, R101; 21 R429 to R431): the cases of a doorbell write and of a write to an admin-ring
register, and the statements that these settle. -/

namespace Sys2Proof.Machine

/- ### Doorbells (05 R101) -/

theorem doorbellOk_iff (r : Ring) (sq cq : U32) :
    doorbellOk r sq cq = true ↔ (sq - r.fetched).toNat ≤ 2 ^ r.log2 ∧ (r.cqTail - cq).toNat ≤ 2 ^ r.log2 := by
  simp [doorbellOk]

/-- A whole write of an enabled ring's doorbell depends on its two limits alone. -/
theorem doorbellWrite_of_enabled {s : State} {fn : Fn} {rn : Nat} (v : U64) {r : Ring} (hb : barReached s = true)
    (hrec : s.boot.recovery = false) (ho : ownsRing s fn rn = true) (hr : r = ringOf s rn) (he : r.enabled = true) :
    doorbellWrite fn rn 8 v s =
      if doorbellOk r (v.extractLsb' 0 32) (v.extractLsb' 32 32) then
        demandDom (setRing s { r with sqTail := v.extractLsb' 0 32, cqHead := v.extractLsb' 32 32 }) domCtrl 0xFE 0x09
      else setRing s { r with dbError := true, dbIgnored := min (r.dbIgnored + 1) 65535 } := by
  subst hr
  have hwrite : doorbellWrite fn rn 8 v s = ringDoorbell s fn rn 8 v := if_pos (by simp [hb, hrec])
  rw [hwrite, ringDoorbell, if_neg (by simp [ho])]
  dsimp only
  rw [if_neg (by simp [he])]
  cases doorbellOk (ringOf s rn) (v.extractLsb' 0 32) (v.extractLsb' 32 32) <;> rfl

/-- Settles O32: the two clauses are the two sides of `doorbellOk`. -/
theorem doorbellsKeepTheirLimits : Obligations.DoorbellsKeepTheirLimits := by
  unfold Obligations.DoorbellsKeepTheirLimits
  refine ⟨?beyond, ?within⟩
  case beyond =>
    rintro s _ fn rn v r rfl hb hrec ho hr he hlimit
    have hbad : ¬ doorbellOk r (v.extractLsb' 0 32) (v.extractLsb' 32 32) = true := by
      rw [doorbellOk_iff]
      omega
    exact exec_event rfl ((doorbellWrite_of_enabled v hb hrec ho hr he).trans (if_neg hbad))
  case within =>
    rintro s _ fn rn v r rfl hb hrec ho hr he hsq hcq
    exact exec_event rfl ((doorbellWrite_of_enabled v hb hrec ho hr he).trans (if_pos ((doorbellOk_iff r _ _).mpr ⟨hsq, hcq⟩)))

/- ### The admin-ring registers (05 R97, R98; 21 R429) -/

/-- A function without a ring has no admin ring, and its admin-ring registers take no write. -/
theorem writeAdminReg_of_noRing {s : State} {fn : Fn} (h : 4096 ≤ adminRing s fn) (f : Admin → Admin) : writeAdminReg s fn f = s :=
  if_pos (by simp [h])

theorem bar0Write_adminSqBase {s : State} (fn : Fn) {data : List Byte} (hb : barReached s = true) (hrec : s.boot.recovery = false)
    (hn : data.length = 8) :
    bar0Write s fn 0x20 data =
      writeAdminReg s fn (fun a => { a with sqBase := BitVec.ofNat 64 ((BitVec.ofNat 64 (leNat data)).toNat / 4096 * 4096) }) := by
  simp [bar0Write, writeWide, wideRw, hb, hrec, hn]

/-- A device at rest with the link in L0 and every ring PF0's: `RING_SPLIT` is 0. -/
def unsplitDevice : State :=
  { State.reset with
    boot := { State.reset.boot with inReset := false, capsValid := true }
    pcie := { State.reset.pcie with link := .l0 }
    regs := { State.reset.regs with ringSplit := 0 } }

/-- A change of PF1's admin-ring registers leaves the device at rest. -/
theorem calm_setAdmin_unsplitDevice (a : Admin) : Calm (setAdmin unsplitDevice .pf1 a) :=
  ⟨rfl, rfl, rfl, rfl, rfl, rfl, rfl, show CustodyState.none ≠ .relinquished by decide, List.forall_mem_nil _⟩

theorem calm_unsplitDevice : Calm unsplitDevice := calm_setAdmin_unsplitDevice (admin unsplitDevice .pf1)

/-- A host write of 8 bytes to PF1's `ADMIN_SQ_BASE` changes nothing on this device. -/
theorem exec_adminSqBase_unsplitDevice {data : List Byte} (hn : data.length = 8) :
    exec (.registerWrite (.bar0 .pf1) 0x20 data) unsplitDevice = .next unsplitDevice := by
  have hwrite : registerWrite (.bar0 .pf1) 0x20 data (sweep unsplitDevice) = unsplitDevice := by
    rw [sweep_of_calm calm_unsplitDevice]
    exact (bar0Write_adminSqBase .pf1 rfl rfl hn).trans (writeAdminReg_of_noRing (s := unsplitDevice) (by decide) _)
  rw [exec_event rfl hwrite, settle_of_calm calm_unsplitDevice]

/-- Refutes O34: the clause of `ADMIN_SQ_BASE` leaves out that the function has a ring. With `RING_SPLIT` 0, PF1 has none (05 R97), and its
write of 0x1000 changes nothing where the clause wants the address taken. -/
theorem not_configurationWrites : ¬ Obligations.ConfigurationWrites := by
  unfold Obligations.ConfigurationWrites
  rintro ⟨-, -, -, -, -, -, -, -, -, -, -, -, -, -, -, hbase, -⟩
  have htaken := hbase unsplitDevice unsplitDevice .pf1 [0x00, 0x10, 0, 0, 0, 0, 0, 0] (sweep_of_calm calm_unsplitDevice).symm
    rfl rfl rfl rfl
  rw [exec_adminSqBase_unsplitDevice rfl, settle_of_calm (calm_setAdmin_unsplitDevice _)] at htaken
  injection htaken with hstate
  have hbases : (0x0000 : U64) = 0x1000 := congrArg (fun s => s.regs.admin1.sqBase) hstate
  exact absurd hbases (by decide)

end Sys2Proof.Machine
end

section
/-! SUPPORT. The events of the host link (05 R124, R127, R128; 19 R410, R412): one equation for each case of each event, and the statement that
these settle. -/

namespace Sys2Proof.Machine

/- ### PERST_N, resets and D-states (05 R124, R127; 19 R410) -/

theorem perstNAssert_of_running {s x : State} (hr : s.boot.inReset = false)
    (hx : x = { s with
      pins := { s.pins with perstN := false }
      pcie := { s.pcie with link := .down, detect := false, perstRise := none, answer := .none } }) :
    perstNAssert s = linkOff (resetFunction (resetFunction x .pf0) .pf1) := by
  subst hx
  exact if_neg (by simp [hr])

theorem perstNRise_of_low {s x : State} (hp : s.pins.perstN = false)
    (hx : x = { s with
      pins := { s.pins with perstN := true }
      pcie := { s.pcie with perstRise := some s.stb, d0 := .d0, d1 := .d0, detect := domOn s domLink && !s.boot.inReset } }) :
    perstNRise s = if s.boot.laurelReleased then demandDom x domLink 0xFE 0x09 else x := by
  subst hx
  exact if_neg (by simp [hp])

theorem functionLevelReset_of_linkUp {s : State} (fn : Fn) (hl : s.pcie.link ≠ .down) (hr : s.boot.inReset = false) :
    functionLevelReset fn s = disableAdmin (dropSession s fn) fn :=
  if_neg (by simp [hl, hr])

theorem d3coldEntry_of_running {s : State} (hr : s.boot.inReset = false) :
    d3coldEntry s =
      linkOff (resetFunction (resetFunction { s with pcie := { s.pcie with d0 := .d3cold, d1 := .d3cold } } .pf0) .pf1) :=
  if_neg (by simp [hr])

theorem d3hotEntry_pf0_of_d0 {s : State} (hd : s.pcie.d0 = .d0) (hl : s.pcie.link ≠ .down) :
    d3hotEntry .pf0 s = setDState (abortGroup s) .pf0 .d3hot :=
  if_neg (by simp [dState, hd, hl])

theorem d3hotEntry_pf1_of_d0 {s : State} (hd : s.pcie.d1 = .d0) (hl : s.pcie.link ≠ .down) :
    d3hotEntry .pf1 s = setDState s .pf1 .d3hot :=
  if_neg (by simp [dState, hd, hl])

theorem d0Return_of_running {s : State} (fn : Fn) (hp : s.pins.perstN = true) (hr : s.boot.inReset = false) :
    d0Return fn s = flushHeld (releasePewake (setDState s fn .d0)) fn :=
  if_neg (by simp [hp, hr])

/- ### States of the link (05 R127, R128) -/

/-- The device with its link in another state, its CLKREQ_N as that state has it. -/
def withLink (s : State) (lk : LinkState) : State :=
  { s with
    pcie := { s.pcie with link := lk, exitAsked := s.pcie.exitAsked && lk != .l0 }
    pins := { s.pins with clkreqLow := lk != .l11 && lk != .l12 } }

theorem withLink_l0 (s : State) :
    withLink s .l0 =
      { s with pcie := { s.pcie with link := .l0, exitAsked := false }, pins := { s.pins with clkreqLow := true } } := by
  simp [withLink]

/-- Outside L0 a change of the link leaves a request to leave a low-power state as it is. -/
theorem withLink_of_notL0 {s : State} {lk : LinkState} (h : lk ≠ .l0) :
    withLink s lk =
      { s with pcie := { s.pcie with link := lk }, pins := { s.pins with clkreqLow := lk != .l11 && lk != .l12 } } := by
  simp [withLink, h]

/-- With PERST_N high and Detect begun the link may be in any state, L0 only with LINK ON; to L2 it comes in any case. -/
theorem linkStateChange_of_possible {s : State} {lk : LinkState} (hr : s.boot.inReset = false)
    (hup : lk = .l2 ∨ s.pins.perstN = true ∧ s.pcie.detect = true) (hon : lk = .l0 → domOn s domLink = true) :
    linkStateChange lk s =
      if lk = .l0 then flushHeld (flushHeld (releasePewake (withLink s lk)) .pf0) .pf1
      else if lk = .l12 ∧ (domOf s domLink).state = .on then startEntry (withLink s lk) domLink 1 none false
      else withLink s lk := by
  refine if_neg ?_
  have hl0 : (lk == .l0 && !domOn s domLink) = false := by
    by_cases h : lk = .l0
    · simp [hon h]
    · simp [h]
  rcases hup with rfl | ⟨hp, hd⟩
  · simp [hl0, hr]
  · simp [hl0, hr, hp, hd]

/-- A state other than L0 and L1.2 brings nothing with it. -/
theorem linkStateChange_of_plain {s : State} {lk : LinkState} (hr : s.boot.inReset = false)
    (hup : lk = .l2 ∨ s.pins.perstN = true ∧ s.pcie.detect = true) (h0 : lk ≠ .l0) (h12 : lk ≠ .l12) :
    linkStateChange lk s =
      { s with pcie := { s.pcie with link := lk }, pins := { s.pins with clkreqLow := lk != .l11 && lk != .l12 } } := by
  rw [linkStateChange_of_possible hr hup (absurd · h0), if_neg h0, if_neg (fun h => h12 h.1), withLink_of_notL0 h0]

/- ### Configuration requests (19 R412, R413) -/

theorem configRequest_of_answered {s : State} {fn : Fn} (hl : s.pcie.link ≠ .down) (hr : s.boot.inReset = false)
    (hf : s.boot.recovery = false ∨ fn = .pf0) :
    configRequest fn s = { s with pcie := { s.pcie with answer :=
      if s.boot.capsValid || s.boot.recovery || (match s.pcie.perstRise with | some t => decide (t + retryTicks ≤ s.stb) | none => false)
      then .normal else .retry } } := by
  refine if_neg ?_
  rcases hf with hf | rfl
  · simp [hl, hr, hf]
  · simp [hl, hr]

theorem configRequest_of_risen {s : State} (fn : Fn) {n : Nat} (hl : s.pcie.link ≠ .down) (hr : s.boot.inReset = false)
    (hf : s.boot.recovery = false) (hn : s.pcie.perstRise = some n) :
    configRequest fn s =
      { s with pcie := { s.pcie with answer := if s.boot.capsValid = true ∨ n + retryTicks ≤ s.stb then .normal else .retry } } := by
  rw [configRequest_of_answered hl hr (.inl hf), hn]
  simp [hf]

/-- Settles O37: each clause is the equation of its event in the swept state, or in the state itself for a configuration request. -/
theorem hostLinkEvents : Obligations.HostLinkEvents := by
  unfold Obligations.HostLinkEvents
  refine ⟨?perstLow, ?perstRiseReleased, ?perstRiseHeld, ?reset, ?d3cold, ?d3hot1, ?d3hot0, ?d0of0, ?d0of1, ?l0, ?l1, ?l11, ?l12, ?l2,
    ?recovery, ?retry, ?normal⟩
  case perstLow =>
    rintro s _ x rfl hr hx
    exact exec_event rfl (perstNAssert_of_running hr hx)
  case perstRiseReleased =>
    rintro s _ x rfl hp hl hx
    exact exec_event rfl ((perstNRise_of_low hp hx).trans (if_pos hl))
  case perstRiseHeld =>
    rintro s _ rfl hp hl
    exact exec_event rfl ((perstNRise_of_low hp rfl).trans (if_neg (by simp [hl])))
  case reset =>
    rintro s _ fn rfl hl hr
    exact exec_event rfl (functionLevelReset_of_linkUp fn hl hr)
  case d3cold =>
    rintro s _ rfl hr
    exact exec_event rfl (d3coldEntry_of_running hr)
  case d3hot1 =>
    rintro s _ rfl hd hl
    exact exec_event rfl (d3hotEntry_pf1_of_d0 hd hl)
  case d3hot0 =>
    rintro s _ rfl hd hl
    exact exec_event rfl (d3hotEntry_pf0_of_d0 hd hl)
  case d0of0 =>
    rintro s _ rfl hp hr
    exact exec_event rfl (d0Return_of_running .pf0 hp hr)
  case d0of1 =>
    rintro s _ rfl hp hr
    exact exec_event rfl (d0Return_of_running .pf1 hp hr)
  case l0 =>
    rintro s _ rfl hp hd hon hr
    rw [← withLink_l0]
    exact exec_event rfl ((linkStateChange_of_possible hr (.inr ⟨hp, hd⟩) (fun _ => hon)).trans (if_pos rfl))
  case l1 =>
    rintro s _ rfl hp hd hr
    exact exec_event rfl (linkStateChange_of_plain hr (.inr ⟨hp, hd⟩) (by decide) (by decide))
  case l11 =>
    rintro s _ rfl hp hd hr
    exact exec_event rfl (linkStateChange_of_plain hr (.inr ⟨hp, hd⟩) (by decide) (by decide))
  case l12 =>
    rintro s _ x rfl hp hd hr hx
    have hlink : withLink (sweep s) .l12 = x := (withLink_of_notL0 (by decide)).trans hx.symm
    subst hlink
    refine exec_event rfl ((linkStateChange_of_possible hr (.inr ⟨hp, hd⟩) (by simp)).trans ?_)
    simp
  case l2 =>
    rintro s _ rfl hr
    exact exec_event rfl (linkStateChange_of_plain hr (.inl rfl) (by decide) (by decide))
  case recovery =>
    intro s hl hr hrec
    refine congrArg Host.Outcome.next ((configRequest_of_answered hl hr (.inr rfl)).trans ?_)
    simp [hrec]
  case retry =>
    intro s fn n hl hr hrec hcaps hn hlt
    refine congrArg Host.Outcome.next ((configRequest_of_risen fn hl hr hrec hn).trans ?_)
    simp [hcaps, retryTicks, Nat.not_le.mpr hlt]
  case normal =>
    intro s fn n hl hr hrec hn hend
    have hcond : s.boot.capsValid = true ∨ n + retryTicks ≤ s.stb := hend
    refine congrArg Host.Outcome.next ((configRequest_of_risen fn hl hr hrec hn).trans ?_)
    rw [if_pos hcond]

end Sys2Proof.Machine
end

section
/-! SUPPORT. The start of `MATMUL`, `CONV2D`, `POOL2D` and `ATTENTION` (06 R154, R159; 08 R185 to R201; 09 R228, R229): what each does once its
source is known and its operands are placed, and the statement that these settle. -/

namespace Sys2Proof.Machine

section
variable {s : State} {c : Cmd}

theorem runCmd_matmul (h : c.op = .matmul) : runCmd c s = runMatmul c s := by
  unfold runCmd
  rw [h]

theorem runCmd_conv2d (h : c.op = .conv2d) : runCmd c s = runConv2d c s := by
  unfold runCmd
  rw [h]

theorem runCmd_pool2d (h : c.op = .pool2d) : runCmd c s = runPool2d c s := by
  unfold runCmd
  rw [h]

theorem runCmd_attention (h : c.op = .attention) : runCmd c s = runAttention c s := by
  unfold runCmd
  rw [h]

end

section
variable {p : Packet} {s w t : State} {c : Cmd}

theorem exec_matmul_of_start (h : startOf .matmul 0x51 p s = some (c, w)) (hrun : runMatmul c w = t) :
    exec (.matmul p) s = .next (ensuing t) :=
  exec_start rfl h (fun ho => (runCmd_matmul ho).trans hrun)

theorem exec_conv2d_of_start (h : startOf .conv2d 0x51 p s = some (c, w)) (hrun : runConv2d c w = t) :
    exec (.conv2d p) s = .next (ensuing t) :=
  exec_start rfl h (fun ho => (runCmd_conv2d ho).trans hrun)

theorem exec_pool2d_of_start (h : startOf .pool2d 0x51 p s = some (c, w)) (hrun : runPool2d c w = t) :
    exec (.pool2d p) s = .next (ensuing t) :=
  exec_start rfl h (fun ho => (runCmd_pool2d ho).trans hrun)

theorem exec_attention_of_start (h : startOf .attention 0x51 p s = some (c, w)) (hrun : runAttention c w = t) :
    exec (.attention p) s = .next (ensuing t) :=
  exec_start rfl h (fun ho => (runCmd_attention ho).trans hrun)

end

/- ### MATMUL (06 R154, R159) -/

section
variable {s : State} {c : Cmd} {n : Nat} (hp : operandsPlaced s c = true) (ht : hostTableOk s c 16 = true)
  (hn : n = (matmulProb s c).rows * (matmulProb s c).cols * (matmulProb s c).batches)
include hp ht hn

/-- With its operands placed and its table readable, a product's count of outputs and the units held OFF decide what it does. -/
theorem runMatmul_of_placed :
    runMatmul c s =
      if n = 0 then complete s c .dimEmpty
      else if !someUnit s (cmdCoppices c) (blk c 5 1) false then complete s c .cancelled
      else startJob s { c with aux := (descAt c.pkt.block 64).format, res := zeroBytes 12 } { id := c.id, total := n } := by
  subst hn
  exact if_neg (by simp [hp, ht])

theorem runMatmul_of_outputs (hpos : 0 < n) (hu : someUnit s (cmdCoppices c) (blk c 5 1) false = true) :
    runMatmul c s = startJob s { c with aux := (descAt c.pkt.block 64).format, res := zeroBytes 12 } { id := c.id, total := n } := by
  rw [runMatmul_of_placed hp ht hn, if_neg (Nat.ne_of_gt hpos), if_neg (by simp [hu])]

theorem runMatmul_of_empty (h0 : n = 0) : runMatmul c s = complete s c .dimEmpty := by
  rw [runMatmul_of_placed hp ht hn, if_pos h0]

end

/- ### CONV2D (08 R185, R191, R193, R198 to R201) -/

/-- What a convolution can read (08 R182, R200, R201): a tensor, or a stored frame behind an open gate that has the shape of its operands. -/
def ConvSource (s : State) (c : Cmd) : Option CamFrame → Prop
  | none => blk c 34 1 ≠ 1
  | some f => blk c 34 1 = 1 ∧ (camOf s (blk c 35 1)).gateOpen = true ∧ frameNamed s c = some f
      ∧ convShapes c (convGeoOf c (some f)) (fun r => r == 3 || r == 4) = true

/-- The job of a convolution over a tensor or over the frame `f`. -/
def convJob (c : Cmd) (f : Option CamFrame) : Job :=
  { id := c.id, edge := onEdge c
    total := (convGeoOf c f).rowsOut * (convGeoOf c f).colsOut * (convGeoOf c f).cout * (convGeoOf c f).batch
    frame := f
    outFlags := flagIf (onEdge c) flagEdge ||| f.elim 0 (fun x => flagIf (x.flags.getLsbD 0) flagSrcTruncated) }

/-- The command of a convolution or a pool with the ways that it holds (08 R191). -/
def withWays (s : State) (c : Cmd) : Cmd := { c with aux := min 8 (fewestWays s (cmdCoppices c)) * waySize }

theorem runConv2d_of_closedGate {s : State} {c : Cmd} (hf : blk c 34 1 = 1) (hg : (camOf s (blk c 35 1)).gateOpen = false) :
    runConv2d c s = complete s c .privacyBlock :=
  if_pos (by simp [hf, hg])

section
variable {s : State} {c : Cmd} {f : Option CamFrame} (hs : ConvSource s c f) (hp : operandsPlaced s c = true)
  (ht : hostTableOk s c 24 = true)
include hs hp ht

/-- With its source given, its operands placed and its table readable, a convolution's geometry, the ways and the units decide what it
does. -/
theorem runConv2d_of_source :
    runConv2d c s =
      if (convGeoOf c f).empty then complete s c .dimEmpty
      else if !waysAvailable s (cmdCoppices c) then complete s c .quota
      else if !someUnit s (cmdCoppices c) (blk c 5 1) (onEdge c) then complete s c .cancelled
      else startJob s { withWays s c with res := convResult (withWays s c) (convJob c f) } (convJob c f) := by
  unfold runConv2d
  cases f with
  | none =>
    have hfrom : (blk c 34 1 == 1) = false := beq_eq_false_iff_ne.mpr hs
    simp only [hfrom, hp, ht]
    rfl
  | some f =>
    obtain ⟨hfrom, hgate, hnamed, hshape⟩ := hs
    simp only [hfrom, hgate, hnamed, hp, ht, beq_self_eq_true, if_true, hshape]
    rfl

theorem runConv2d_of_outputs (he : (convGeoOf c f).empty = false) (hw : waysAvailable s (cmdCoppices c) = true)
    (hu : someUnit s (cmdCoppices c) (blk c 5 1) (onEdge c) = true) :
    runConv2d c s = startJob s { withWays s c with res := convResult (withWays s c) (convJob c f) } (convJob c f) := by
  rw [runConv2d_of_source hs hp ht, if_neg (by simp [he]), if_neg (by simp [hw]), if_neg (by simp [hu])]

theorem runConv2d_of_empty (he : (convGeoOf c f).empty = true) : runConv2d c s = complete s c .dimEmpty := by
  rw [runConv2d_of_source hs hp ht, if_pos he]

end

/- ### POOL2D (08 R185, R191, R196) -/

section
variable {s : State} {c : Cmd} (hp : operandsPlaced s c = true)
include hp

/-- With its operands placed, a pool's geometry, the ways and the units decide what it does. -/
theorem runPool2d_of_placed :
    runPool2d c s =
      if (poolGeo c).empty then complete s c .dimEmpty
      else if !waysAvailable s (cmdCoppices c) then complete s c .quota
      else if !someUnit s (cmdCoppices c) (blk c 5 1) false then complete s c .cancelled
      else startJob s { withWays s c with res := zeroBytes 12 }
        { id := c.id, total := (poolGeo c).rowsOut * (poolGeo c).colsOut * (poolGeo c).cout * (poolGeo c).batch } :=
  if_neg (by simp [hp])

theorem runPool2d_of_outputs (he : (poolGeo c).empty = false) (hw : waysAvailable s (cmdCoppices c) = true)
    (hu : someUnit s (cmdCoppices c) (blk c 5 1) false = true) :
    runPool2d c s = startJob s { withWays s c with res := zeroBytes 12 }
      { id := c.id, total := (poolGeo c).rowsOut * (poolGeo c).colsOut * (poolGeo c).cout * (poolGeo c).batch } := by
  rw [runPool2d_of_placed hp, if_neg (by simp [he]), if_neg (by simp [hw]), if_neg (by simp [hu])]

theorem runPool2d_of_empty (he : (poolGeo c).empty = true) : runPool2d c s = complete s c .dimEmpty := by
  rw [runPool2d_of_placed hp, if_pos he]

end

/- ### ATTENTION (09 R228, R229; 12 R297) -/

theorem withContext_of_readable {s : State} {c : Cmd} (f : State → State)
    (h : rangesPoisoned (contextRead c s) (contextRanges s c) = false) : withContext c s f = f (contextRead c s) :=
  if_neg (by simp [h])

/-- What an attention reads (09 R228): tensors, or the pages of a sequence that fits it. -/
def AttnSource (s : State) (c : Cmd) : Prop :=
  (attnArgs c 0).pages = false ∨ ∃ x, attnSeq s c = some x ∧ attnSeqOk c x = true

/-- The job of an attention of `n` outputs, with the pages its start fixes where it reads a sequence (09 R229). -/
def startAttention (s : State) (c : Cmd) (n : Nat) : Option Seqn → State
  | none => startJob s { c with res := zeroBytes 12 } { id := c.id, total := n }
  | some x => startJob (addReader s x c.id) { c with aux := x.length, res := zeroBytes 12 }
      { id := c.id, total := n, pages := x.pages.filter (fun p => p.layer == (attnArgs c 0).layer) }

section
variable {s v : State} {c : Cmd} {n : Nat} (hv : v = contextRead c s) (hr : rangesPoisoned v (contextRanges s c) = false)
  (hs : AttnSource v c) (hp : operandsPlaced v c = true)
  (hn : n = (descAt c.pkt.block 64).dim 0 * (descAt c.pkt.block 64).dim1 1 * (attnArgs c 0).qHeads)
include hv hr hs hp hn

/-- With its source given and its operands placed, an attention's count of outputs and the units held OFF decide what it does. -/
theorem runAttention_of_source :
    runAttention c s =
      if n = 0 then complete v c .dimEmpty
      else if !someUnit v (cmdCoppices c) (blk c 5 1) false then complete v c .cancelled
      else startAttention v c n (attnSeq v c) := by
  subst hv hn
  have hfits : ((attnArgs c 0).pages
      && (match attnSeq (contextRead c s) c with | some x => !attnSeqOk c x | none => true)) = false := by
    obtain hpages | ⟨x, hx, hok⟩ := hs
    · rw [hpages, Bool.false_and]
    · simp [hx, hok]
  unfold runAttention
  rw [withContext_of_readable _ hr]
  refine (if_neg (by simp only [hp, Bool.not_true, Bool.or_false]; exact Bool.eq_false_iff.mp hfits)).trans ?_
  cases attnSeq (contextRead c s) c <;> rfl

theorem runAttention_of_outputs (hpos : 0 < n) (hu : someUnit v (cmdCoppices c) (blk c 5 1) false = true) :
    runAttention c s = startAttention v c n (attnSeq v c) := by
  rw [runAttention_of_source hv hr hs hp hn, if_neg (Nat.ne_of_gt hpos), if_neg (by simp [hu])]

theorem runAttention_of_empty (h0 : n = 0) : runAttention c s = complete v c .dimEmpty := by
  rw [runAttention_of_source hv hr hs hp hn, if_pos h0]

end

/-- Settles O20: each row is the body of its command in the state of the start; what it reads is a tensor, a frame or a sequence, and its
count of outputs decides whether it becomes a job. -/
theorem operatorCommandsStart : Obligations.OperatorCommandsStart := by
  unfold Obligations.OperatorCommandsStart
  refine ⟨?matmul, ?matmulEmpty, ?convTensor, ?convFrame, ?convGate, ?convEmpty, ?pool, ?poolEmpty, ?attnTensors, ?attnPages, ?attnEmpty,
    ?job⟩
  case matmul =>
    intro p s w c n h hp ht hn hpos hu
    exact exec_matmul_of_start h (runMatmul_of_outputs hp ht hn hpos hu)
  case matmulEmpty =>
    intro p s w c h hp ht h0
    exact exec_matmul_of_start h (runMatmul_of_empty hp ht rfl h0)
  case convTensor =>
    rintro p s w c d g j h hfrom hp ht rfl he hw hu rfl rfl
    exact exec_conv2d_of_start h (runConv2d_of_outputs (f := none) hfrom hp ht he hw hu)
  case convFrame =>
    rintro p s w c d f g j h hfrom hgate hnamed hp ht rfl hshape he hw hu rfl rfl
    exact exec_conv2d_of_start h (runConv2d_of_outputs (f := some f) ⟨hfrom, hgate, hnamed, hshape⟩ hp ht he hw hu)
  case convGate =>
    intro p s w c h hfrom hgate
    exact exec_conv2d_of_start h (runConv2d_of_closedGate hfrom hgate)
  case convEmpty =>
    intro p s w c h hfrom hp ht he
    exact exec_conv2d_of_start h (runConv2d_of_empty (f := none) hfrom hp ht he)
  case pool =>
    rintro p s w c g h hp rfl he hw hu
    exact exec_pool2d_of_start h (runPool2d_of_outputs hp he hw hu)
  case poolEmpty =>
    intro p s w c h hp he
    exact exec_pool2d_of_start h (runPool2d_of_empty hp he)
  case attnTensors =>
    intro p s w v c n h hv hr hpages hseq hp hn hpos hu
    have hrun := runAttention_of_outputs hv hr (.inl hpages) hp hn hpos hu
    rw [hseq] at hrun
    exact exec_attention_of_start h hrun
  case attnPages =>
    intro p s w v c n x h hv hr _ hseq hfits hp hn hpos hu
    have hrun := runAttention_of_outputs hv hr (.inr ⟨x, hseq, hfits⟩) hp hn hpos hu
    rw [hseq] at hrun
    exact exec_attention_of_start h hrun
  case attnEmpty =>
    intro p s w v c h hv hr hpages hp h0
    exact exec_attention_of_start h (runAttention_of_empty hv hr (.inl hpages) hp rfl h0)
  case job =>
    rintro s _ c j rfl
    rfl

end Sys2Proof.Machine
end

section
/-! SUPPORT. The commit of a tile or edge command (06 R144, R146, R155, R156, R447; 14 R339): one equation for each outcome of a cut of an operator
and of a batch step, and the statement that these settle. -/

namespace Sys2Proof.Machine

/-- A commit row, of a tile or of an edge engine, is `cutCommit` on a unit of its kind. -/
theorem exec_cutCommit {i : Instr} {e : Bool} {t : WorkCut} {up : Option Upset} {s x : State}
    (hi : (i, e) = (.tileCommandCommit t up, false) ∨ (i, e) = (.edgeCommandCommit t up, true)) (hx : cutCommit t e up (sweep s) = x) :
    exec i s = .next (settle x) := by
  obtain hi | hi := hi <;> cases hi
  · exact exec_event (f := tileCommitEvent t up) rfl hx
  · exact exec_event (f := edgeCommitEvent t up) rfl hx

theorem cutCommit_of_notAdmitted {u : State} {t : WorkCut} {e : Bool} {up : Option Upset} (ha : admittedAs u t e = none) :
    cutCommit t e up u = u := by
  unfold cutCommit
  rw [ha]

/- ### A cut of an operator (06 R144, R155, R447) -/

/-- What a cut of an operator does once its comparisons hold and its tile's buffer was readable: it commits its outputs, or it cannot be
delivered an operand. `pr` is what the operator computes and `unit` the cut's unit. -/
def deliverCut (s : State) (t : WorkCut) (e : Bool) (a : Admitted) (c : Cmd) (j : Job) (pr : Prob) (unit : Nat) : State :=
  match (probOf (strikeCut s c j t e) c j).bind (fun pr => cutBad pr t) with
  | some b => poisonCut (strikeCut s c j t e) c j a b
  | none =>
    let x := commitCut (removeCut (strikeCut s c j t e) t) pr j t
    afterCommit (countCommit (setJob x.1 x.2) (some c) e unit (pr.products t) (pr.skipped t)) c x.2

section
variable {s w : State} {t : WorkCut} {e : Bool} {a : Admitted} {c : Cmd} {j : Job} {pr qr : Prob} {unit : Nat}
  (hw : w = strikeCut s c j t e) (hq : probOf w c j = some qr)
include hw hq

theorem deliverCut_of_good {y : State} {q : Job} (hb : cutBad qr t = none) (hy : commitCut (removeCut w t) pr j t = (y, q)) :
    deliverCut s t e a c j pr unit =
      afterCommit (countCommit (setJob y q) (some c) e unit (pr.products t) (pr.skipped t)) c q := by
  subst hw
  simp only [deliverCut, hq, Option.bind_some, hb, hy]

theorem deliverCut_of_bad {b : ReadError} (hb : cutBad qr t = some b) : deliverCut s t e a c j pr unit = poisonCut w c j a b := by
  subst hw
  simp only [deliverCut, hq, Option.bind_some, hb]

end

section
variable {u v : State} {t : WorkCut} {e : Bool} {up : Option Upset} {a : Admitted} {k : Nat × Nat} {id : Nat} {c : Cmd} {j : Job} {pr : Prob}
  (ha : admittedAs u t e = some a) (hi : u.fault.integrity = false) (hk : k = checkerOf u t e) (ht : t.work = .cmd id)
  (hc : cmdOf u id = some c) (hj : jobOf u id = some j) (hp : probOf u c j = some pr)
include ha hi hk ht hc hj hp

/-- The checks of an operator's cut, in the order of 06 Table 6.9. -/
theorem cutCommit_of_cmd :
    cutCommit t e up u =
      if (armed u k.1 k.2 (fun _ => true)).isSome || cutFails pr j t up then mismatch u t a k.1 k.2
      else if (tileEcc u t e).2 then eccCut (tileEcc u t e).1 a
      else deliverCut (tileEcc u t e).1 t e a c j pr k.2 := by
  subst hk
  simp only [cutCommit, ha, hi, ht, hc, hj, hp]
  rfl

theorem cutCommit_of_mismatch (h : (armed u k.1 k.2 (fun _ => true)).isSome = true ∨ cutFails pr j t up = true) :
    cutCommit t e up u = mismatch u t a k.1 k.2 := by
  rw [cutCommit_of_cmd ha hi hk ht hc hj hp, if_pos ((Bool.or_eq_true _ _).mpr h)]

variable (hn : armed u k.1 k.2 (fun _ => true) = none) (hf : cutFails pr j t up = false)
include hn hf

theorem cutCommit_of_uncorrectable (he : tileEcc u t e = (v, true)) : cutCommit t e up u = eccCut v a := by
  rw [cutCommit_of_cmd ha hi hk ht hc hj hp, if_neg (by simp [hn, hf]), he, if_pos rfl]

theorem cutCommit_of_readable (he : tileEcc u t e = (v, false)) : cutCommit t e up u = deliverCut v t e a c j pr k.2 := by
  rw [cutCommit_of_cmd ha hi hk ht hc hj hp, if_neg (by simp [hn, hf]), he, if_neg Bool.false_ne_true]

end

/- ### A cut of a batch step (05 Table 5.12; 10 R248) -/

/-- A cut of a step without an error that its checks or reads find commits its part of a member's output. -/
theorem cutCommit_of_step {u v : State} {t : WorkCut} {up : Option Upset} {a : Admitted} {k : Nat × Nat} {fn : Fn} {m : Nat} {st : Step}
    (ha : admittedAs u t false = some a) (hi : u.fault.integrity = false) (hk : k = checkerOf u t false)
    (hn : armed u k.1 k.2 (fun _ => true) = none) (he : tileEcc u t false = (v, false)) (ht : t.work = .step fn m)
    (hup : ∀ z, up = some z → z.delta = 0) (hs : stepOf v fn m = some st) (hb : stepCutBad v st t = none) :
    cutCommit t false up u =
      countStepCut (commitStepCut (bumpFree
        (countCommit (removeCut v t) (traceOwner v t.work) false k.2 (Config.freeNat v.freeCtr) 0)) st t) st := by
  have hsame : up.any (fun u => decide (u.delta ≠ 0)) = false := by
    cases up with
    | none => rfl
    | some z => simp [hup z rfl]
  subst hk
  simp only [cutCommit, ha, hi, ht, hn, hsame, he, hs, hb]
  rfl

/- ### After a commit, and after a mismatch (06 R146) -/

theorem afterCommit_of_delivered {s : State} {c d : Cmd} {j : Job}
    (hd : d = { c with res := jobResult c j, warn := c.warn ||| (if 0 < j.emptyRows then warnEmptyRow else 0) })
    (hp : j.poisoned = false) :
    afterCommit s c j = if j.done.length = j.total then finishCmd (setCmd s d) d else setCmd s d := by
  subst hd
  exact if_neg (by simp [hp])

/-- The state in which a mismatch has been reported against the cut's unit and counted, before the cut is run again or its work ends. -/
def reported (s : State) (t : WorkCut) (a : Admitted) (src unit : Nat) : State :=
  let y := discardTrace (raiseAt s src unit (match (workCmds s t.work).head?.bind (cmdOf s) with
    | some c => captureCmd s c src unit 1 | none => capture s src unit 1)) a 6
  bumpFree (if a.edge then y else countUp (countUp y 0x0005 unit 1) 0x0003 unit (Config.freeNat y.freeCtr))

/-- The cut `t` is noted as one that failed, and stays on its unit to be run again. -/
def markFailed (s : State) (t : WorkCut) : State :=
  { s with work := { s.work with
      retried := s.work.retried ++ [anywhere t]
      admitted := s.work.admitted.map (fun x => if x.cut = t then { x with retried := true } else x) } }

/-- The cut `t` stands on no unit as one that never failed. -/
def NoUnfailed (s : State) (t : WorkCut) : Prop := s.work.admitted.filter (fun x => decide (x.cut = t) && !x.retried) = []

theorem noUnfailed_removeCut (s : State) (t : WorkCut) : NoUnfailed (removeCut s t) t := by
  refine List.filter_eq_nil_iff.mpr fun x hx => ?_
  have hne : x.cut ≠ t := of_decide_eq_true (List.mem_filter.mp hx).2
  simp [hne]

theorem noUnfailed_markFailed (s : State) (t : WorkCut) : NoUnfailed (markFailed s t) t := by
  refine List.filter_eq_nil_iff.mpr fun x hx => ?_
  obtain ⟨b, -, rfl⟩ := List.mem_map.mp hx
  by_cases hb : b.cut = t <;> simp [hb]

section
variable {s : State} {t : WorkCut} {a : Admitted} {src unit : Nat}

theorem mismatch_of_halt (hh : (reported s t a src unit).fault.haltLaurel = true) :
    mismatch s t a src unit = removeCut (reported s t a src unit) t :=
  if_pos hh

variable (hh : (reported s t a src unit).fault.haltLaurel = false)
include hh

/-- The second mismatch of an operator's cut ends its command. -/
theorem mismatch_of_second {id : Nat} (ht : t.work = .cmd id) (ha : a.retried = true) :
    mismatch s t a src unit = endAll (removeCut (reported s t a src unit) t) [id] .poison := by
  refine (if_neg (Bool.eq_false_iff.mp hh)).trans ((if_pos ha).trans ?_)
  simp only [reported, ht]
  rfl

/-- The first mismatch of a cut leaves it to be run again. -/
theorem mismatch_of_first (ha : a.retried = false) : ∃ v, mismatch s t a src unit = markFailed v t :=
  ⟨_, (if_neg (Bool.eq_false_iff.mp hh)).trans (if_neg (Bool.eq_false_iff.mp ha))⟩

end

theorem noUnfailed_mismatch {s : State} {t : WorkCut} {a : Admitted} {src unit : Nat} (ha : a.retried = false) :
    NoUnfailed (mismatch s t a src unit) t := by
  cases hh : (reported s t a src unit).fault.haltLaurel
  · obtain ⟨v, hv⟩ := mismatch_of_first hh ha
    rw [hv]
    exact noUnfailed_markFailed v t
  · rw [mismatch_of_halt hh]
    exact noUnfailed_removeCut _ t

/-- Settles O50: a commit row runs `cutCommit`; its checks come in the order of 06 Table 6.9, and a cut that passes them all commits. -/
theorem tileCommandsCommit : Obligations.TileCommandsCommit := by
  unfold Obligations.TileCommandsCommit
  refine ⟨?noTile, ?noEdge, ?good, ?fails, ?uncorrectable, ?undeliverable, ?step, ?after, ?second, ?first⟩
  case noTile =>
    rintro s _ t up rfl ha
    exact exec_cutCommit (.inl rfl) (cutCommit_of_notAdmitted ha)
  case noEdge =>
    rintro s _ t up rfl ha
    exact exec_cutCommit (.inr rfl) (cutCommit_of_notAdmitted ha)
  case good =>
    rintro i e s _ v w y t up a k id c j q pr qr hrow rfl ha hi hk hn he ht hc hj hp hf hw hq hb hy
    exact exec_cutCommit hrow
      ((cutCommit_of_readable ha hi hk ht hc hj hp hn hf he).trans (deliverCut_of_good hw hq hb hy))
  case fails =>
    rintro i e s _ t up a k id c j pr hrow rfl ha hi hk ht hc hj hp hfail
    exact exec_cutCommit hrow (cutCommit_of_mismatch ha hi hk ht hc hj hp hfail)
  case uncorrectable =>
    rintro i e s _ v t up a k id c j pr hrow rfl ha hi hk hn he ht hc hj hp hf
    exact exec_cutCommit hrow (cutCommit_of_uncorrectable ha hi hk ht hc hj hp hn hf he)
  case undeliverable =>
    rintro i e s _ v w t up a k id c j pr qr b hrow rfl ha hi hk hn he ht hc hj hp hf hw hq hb
    exact exec_cutCommit hrow
      ((cutCommit_of_readable ha hi hk ht hc hj hp hn hf he).trans (deliverCut_of_bad hw hq hb))
  case step =>
    rintro s _ v _ t up a k fn m st rfl ha hi hk hn he ht hup rfl hs hb
    exact exec_cutCommit (.inl rfl) (cutCommit_of_step ha hi hk hn he ht hup hs hb)
  case after =>
    exact fun _ _ _ _ => afterCommit_of_delivered
  case second =>
    rintro s x y t a src unit id ht ha rfl hx hh
    have hreported : x = reported s t a src unit := by
      rw [hx]
      simp only [reported, ht]
      rfl
    subst hreported
    exact mismatch_of_second hh ht ha
  case first =>
    exact fun _ _ _ _ _ => noUnfailed_mismatch

end Sys2Proof.Machine
end

section
/-! SUPPORT. `TABLE_BUILD` and `COMPRESS` (07 R172, R173, R175 to R177; 06 R159): what each does once its operands lie in the tenant's
allocations and its coppice is usable, by the form of the destination and by what the read of the source delivers, and the statement that
these settle. -/

namespace Sys2Proof.Machine

section
variable {s : State} {c : Cmd}

theorem runCmd_tableBuild (h : c.op = .tableBuild) : runCmd c s = runTableBuild c s := by
  unfold runCmd
  rw [h]

theorem runCmd_compress (h : c.op = .compress) : runCmd c s = runCompress c s := by
  unfold runCmd
  rw [h]

end

section
variable {p : Packet} {s w t : State} {c : Cmd}

theorem exec_tableBuild_of_start (h : startOf .tableBuild 0x25 p s = some (c, w)) (hrun : runTableBuild c w = t) :
    exec (.tableBuild p) s = .next (ensuing t) :=
  exec_start rfl h (fun ho => (runCmd_tableBuild ho).trans hrun)

theorem exec_compress_of_start (h : startOf .compress 0x26 p s = some (c, w)) (hrun : runCompress c w = t) :
    exec (.compress p) s = .next (ensuing t) :=
  exec_start rfl h (fun ho => (runCmd_compress ho).trans hrun)

end

/- ### TABLE_BUILD (07 R175, Table 7.3) -/

/-- The header of an `ENTROPY` tensor whose payload is still empty: `CODEBOOK_OFF` of a code format follows the tables, of which the
header and they take `len` bytes (07 Table 7.3; notes/assumptions/37.md). -/
def tableHeader (d : Desc) (sb segs len : Nat) : List Byte :=
  natLe 2 1 ++ natLe 1 d.format ++ [0] ++ natLe 4 sb ++ natLe 4 segs ++ natLe 4 (if isCode d.format then len else 0)
    ++ natLe 8 d.rawSize ++ natLe 8 0 ++ zeroBytes 32

/-- Only an undecodable block raises a fault beside the status `POISON` (07 R173). -/
theorem endOperand_of_decodable {s : State} {c : Cmd} {e : ReadError} (he : e ≠ .undecodable) :
    endOperand s c e = complete s c .poison := by
  unfold endOperand
  rw [if_neg he]

section
variable {s x : State} {c : Cmd} {d : Desc} {sb segs len : Nat} (hp : operandsPlaced s c = true) (hd : d = descAt c.pkt.block 64)
  (hsb : sb = blk c 2 2) (hsegs : segs = segCount d sb) (hlen : len = 64 + 128 * segs)
  (ho : ownsRange s c.fn (tierOf (blk c 8 8)) (offOf (blk c 8 8)) len = true) (hu : usable s (domCop (blk c 4 1)) = true)
  (hx : x = strikeTensor s c (blk c 4 1) d)
include hp hd hsb hsegs hlen ho hu hx

/-- A build of a tensor that the engine can read writes the header and the tables of its segments. -/
theorem runTableBuild_of_readable {raw : List Byte} {lens : Nat → List Nat} (hr : d.raw x = .ok raw)
    (hl : lens = fun g => segmentLens (bytesAt raw (4096 * sb * g) (4096 * sb))) :
    runTableBuild c s =
      complete
        (tierWrite x (tierOf (blk c 8 8)) (offOf (blk c 8 8))
          (tableHeader d sb segs len ++ (List.range segs).flatMap (fun g => tableBytes (lens g))))
        c .ok (natLe 4 segs ++ natLe 8 ((entropyBlocks raw sb lens).map (fun b => b.1.length)).sum) := by
  subst hd hsb hsegs hlen hx hl
  unfold runTableBuild
  rw [if_neg (by simp [hp, ho]), if_neg (by simp [hu])]
  dsimp only
  rw [hr]
  rfl

theorem runTableBuild_of_unreadable {e : ReadError} (hr : d.raw x = .error e) : runTableBuild c s = endOperand x c e := by
  subst hd hsb hsegs hlen hx
  unfold runTableBuild
  rw [if_neg (by simp [hp, ho]), if_neg (by simp [hu])]
  dsimp only
  rw [hr]

end

/- ### COMPRESS (07 R176, R177) -/

theorem runCompress_of_placed {s : State} {c : Cmd} (hp : operandsPlaced s c = true) (hu : usable s (domCop (blk c 2 1)) = true) :
    runCompress c s =
      setCmd (if (descAt c.pkt.block 128).form = 0 then s else invalidateOut s (descAt c.pkt.block 128))
        { c with phase := .parked .units, res := zeroBytes 12 } := by
  unfold runCompress
  rw [if_neg (by simp [hp]), if_neg (by simp [hu])]

/-- A tick commits the `COMPRESS` whose path is open, whose deadline stands and whose domains are on. -/
theorem workUnit_of_compress {s : State} {c : Cmd} (hop : c.op = .compress) (hc : cmdOf s c.id = some c)
    (hph : c.phase = .parked .units) (hpath : pathOpen s c = true) (hdue : overdue s c = false) (hon : allOn s (cmdDoms s c) = true) :
    workUnit s c.id = commitCompress c s := by
  unfold workUnit
  rw [hc]
  dsimp only
  rw [if_neg (by simp [hph, hpath, hdue, hon]), if_neg (by simp [hop]), if_pos hop]

/-- The packed blocks of a raw form in the compressed form of the destination `b` (07 R165). -/
def packedBlocks (s : State) (b : Desc) (raw : List Byte) : List (List Byte × Bool) :=
  if b.form = 1 then zmaskBlocks b raw else entropyBlocks raw (field (b.header s) 4 4) (b.segLens s)

/-- The result of a `COMPRESS` into packed blocks: the bytes stored, and the blocks that are stored raw (07 R176). -/
def packedResult (bs : List (List Byte × Bool)) : List Byte :=
  natLe 8 (bs.map (fun y => y.1.length)).sum ++ natLe 4 (bs.filter (·.2)).length

section
variable {s x : State} {c : Cmd} {a b : Desc} {raw : List Byte} (ha : a = descAt c.pkt.block 64) (hb : b = descAt c.pkt.block 128)
  (hx : x = strikeTensor s c (blk c 2 1) a) (hrec : a.recordsPoison x = false) (hr : a.raw x = .ok raw)
include ha hb hx hrec hr

/-- A commit whose source the engine can read writes the destination in its form. -/
theorem commitCompress_of_readable :
    commitCompress c s =
      if b.form = 0 then complete (writeRaw (copyRecords x a b) b raw) c .ok (natLe 8 raw.length ++ natLe 4 0)
      else complete (writeCompressed x a b (packedBlocks x b raw)) c .ok (packedResult (packedBlocks x b raw)) := by
  subst ha hb hx
  unfold commitCompress
  dsimp only
  rw [if_neg (by simp [hrec]), hr]
  rfl

theorem commitCompress_to_raw (hf : b.form = 0) :
    commitCompress c s = complete (writeRaw (copyRecords x a b) b raw) c .ok (natLe 8 raw.length ++ natLe 4 0) := by
  rw [commitCompress_of_readable ha hb hx hrec hr, if_pos hf]

theorem commitCompress_to_blocks {bs : List (List Byte × Bool)} (hf : b.form ≠ 0) (hbs : packedBlocks x b raw = bs) :
    commitCompress c s = complete (writeCompressed x a b bs) c .ok (packedResult bs) := by
  rw [commitCompress_of_readable ha hb hx hrec hr, if_neg hf, hbs]

end

theorem packedBlocks_zmask (s : State) {b : Desc} (raw : List Byte) (h : b.form = 1) : packedBlocks s b raw = zmaskBlocks b raw :=
  if_pos h

theorem packedBlocks_entropy (s : State) {b : Desc} (raw : List Byte) (h : b.form = 2) :
    packedBlocks s b raw = entropyBlocks raw (field (b.header s) 4 4) (b.segLens s) :=
  if_neg (by simp [h])

/-- Settles O14: a build and a commit are split on what the read of the source delivers; a `COMPRESS` is split on the form of its
destination, at its start and again at its commit, which the unit of work of a tick is. -/
theorem compressionCommandsComplete : Obligations.CompressionCommandsComplete := by
  unfold Obligations.CompressionCommandsComplete
  refine ⟨?build, ?buildPoison, ?expand, ?compress, fun _ _ => workUnit_of_compress, ?raw, ?zmask, ?entropy⟩
  case build =>
    intro p s w c d sb segs len x raw lens h hp hd hsb hsegs hlen ho hu hx hr hl
    exact exec_tableBuild_of_start h (runTableBuild_of_readable hp hd hsb hsegs hlen ho hu hx hr hl)
  case buildPoison =>
    intro p s w c d e x h hp hd ho hu hx hr he
    exact exec_tableBuild_of_start h
      ((runTableBuild_of_unreadable hp hd rfl rfl rfl ho hu hx hr).trans (endOperand_of_decodable he))
  case expand =>
    intro p s w c h hp hu hf
    exact exec_compress_of_start h ((runCompress_of_placed hp hu).trans (by rw [if_pos hf]))
  case compress =>
    intro p s w c h hp hu hf
    exact exec_compress_of_start h ((runCompress_of_placed hp hu).trans (by rw [if_neg hf]))
  case raw =>
    exact fun _ _ _ _ _ _ => commitCompress_to_raw
  case zmask =>
    intro s x c a b raw bs ha hb hx hrec hr hf hbs
    exact commitCompress_to_blocks ha hb hx hrec hr (by simp [hf]) ((packedBlocks_zmask x raw hf).trans hbs.symm)
  case entropy =>
    intro s x c a b raw bs ha hb hx hrec hr hf hbs
    exact commitCompress_to_blocks ha hb hx hrec hr (by simp [hf]) ((packedBlocks_entropy x raw hf).trans hbs.symm)

end Sys2Proof.Machine
end

section
/-! SUPPORT. `SEQ_CREATE`, `SEQ_FREE`, `SEQ_FORK` and `SEQ_APPEND` (09 R211 to R214; 11 R254, R275; 12 R297): what each does once its context
can be read, and the statement that these settle. -/

namespace Sys2Proof.Machine

section
variable {s : State} {c : Cmd}

theorem runCmd_seqCreate (h : c.op = .seqCreate) : runCmd c s = runSeqCreate c s := by
  unfold runCmd
  rw [h]

theorem runCmd_seqFree (h : c.op = .seqFree) : runCmd c s = runSeqFree c s := by
  unfold runCmd
  rw [h]

theorem runCmd_seqFork (h : c.op = .seqFork) : runCmd c s = runSeqFork c s := by
  unfold runCmd
  rw [h]

theorem runCmd_seqAppend (h : c.op = .seqAppend) : runCmd c s = runSeqAppend c s := by
  unfold runCmd
  rw [h]

theorem resumeCmd_seqAppend (h : c.op = .seqAppend) : resumeCmd c s = resumeSeqAppend c s := by
  unfold resumeCmd
  rw [h]

theorem withContext_of_poisoned (f : State → State) (h : rangesPoisoned (contextRead c s) (contextRanges s c) = true) :
    withContext c s f = endCmd (contextRead c s) c .poison :=
  if_pos h

end

section
variable {p : Packet} {s w t : State} {c : Cmd}

theorem exec_seqCreate_of_start (h : startOf .seqCreate 0x40 p s = some (c, w)) (hrun : runSeqCreate c w = t) :
    exec (.seqCreate p) s = .next (ensuing t) :=
  exec_start rfl h (fun ho => (runCmd_seqCreate ho).trans hrun)

theorem exec_seqFree_of_start (h : startOf .seqFree 0x43 p s = some (c, w)) (hrun : runSeqFree c w = t) :
    exec (.seqFree p) s = .next (ensuing t) :=
  exec_start rfl h (fun ho => (runCmd_seqFree ho).trans hrun)

theorem exec_seqFork_of_start (h : startOf .seqFork 0x42 p s = some (c, w)) (hrun : runSeqFork c w = t) :
    exec (.seqFork p) s = .next (ensuing t) :=
  exec_start rfl h (fun ho => (runCmd_seqFork ho).trans hrun)

theorem exec_seqAppend_of_start (h : startOf .seqAppend 0x41 p s = some (c, w)) (hrun : runSeqAppend c w = t) :
    exec (.seqAppend p) s = .next (ensuing t) :=
  exec_start rfl h (fun ho => (runCmd_seqAppend ho).trans hrun)

end

/- ### SEQ_CREATE (11 R271, R275) -/

theorem runSeqCreate_of_conversation {s : State} {c : Cmd} {h : Nat} (hk : arg c 27 1 = 1)
    (hh : newHandle s c.fn (handlesUsed s) = some h) (hf : entriesFit s c.fn 1 = true) :
    runSeqCreate c s =
      complete { s with work := { s.work with
        convs := s.work.convs ++ [{ handle := h, fn := c.fn, session := sessionOf s c.fn, cls := arg c 26 1 }] } } c .ok
        (natLe 4 h ++ natLe 4 0) := by
  unfold runSeqCreate
  rw [if_pos hk, hh]
  exact if_neg (by simp [hf])

/-- A sequence of a model with a usable geometry is made at once where the model is resident, and after the residency elsewhere. -/
theorem runSeqCreate_of_model {s : State} {c : Cmd} {m : Model} {g : KvGeom} (hk : arg c 27 1 ≠ 1)
    (hconv : (arg c 28 4).testBit 31 = true → (convOf s c.fn (arg c 28 4 % 2 ^ 20)).isSome = true)
    (hm : modelOf s c.fn (arg c 24 2) = some m) (hg : m.kv = some g) (hok : g.ok = true) :
    runSeqCreate c s = if m.resident.isSome then createSeq c m s else awaitModel s c m 0 := by
  have hnamed : ¬((arg c 28 4).testBit 31 = true ∧ (convOf s c.fn (arg c 28 4 % 2 ^ 20)).isNone = true) := by
    rintro ⟨hbit, hnone⟩
    have hsome := hconv hbit
    rw [Option.isNone_iff_eq_none.mp hnone] at hsome
    cases hsome
  unfold runSeqCreate
  dsimp only
  rw [if_neg hk, if_neg hnamed, hm]
  exact if_neg (by simp [hg, hok])

theorem createSeq_of_room {s x : State} {c : Cmd} {m : Model} {g : KvGeom} {q : Seqn} {ev : Bool} (hg : m.kv = some g)
    (hn : newSeq s c.fn m.id (arg c 26 1) g (if (arg c 28 4).testBit 31 then some (arg c 28 4 % 2 ^ 20) else none) = some (x, q, ev)) :
    createSeq c m s = complete x (c.warns ev warnEvicted) .ok (natLe 4 q.handle ++ natLe 4 q.charge) := by
  unfold createSeq
  dsimp only
  rw [hg, Option.bind_some, hn]

theorem awaitModel_of_started {s : State} {c : Cmd} {m : Model} {r : State × Bool} (handle : Nat) (hr : startResidency s m = some r) :
    awaitModel s c m handle = residencyWait r.1 (c.warns (r.2 || m.wasEvicted) warnEvicted) handle := by
  unfold awaitModel
  rw [hr, Option.getD_some]

/- ### SEQ_FREE (11 R275) -/

/-- The sequences that a `SEQ_FREE` names: the one of its handle, and where that is a conversation, all of it. -/
def seqsNamed (s : State) (c : Cmd) : List Seqn :=
  s.work.seqs.filter (fun q => q.fn == c.fn
    && (q.handle == ctxHandle c.pkt || ((convOf s c.fn (ctxHandle c.pkt)).isSome && q.conv == some (ctxHandle c.pkt))))

/-- The conversation of a handle is taken away, where `conv` says that there is one. -/
def dropConv (s : State) (conv : Bool) (h : Nat) : State :=
  { s with work := { s.work with convs := s.work.convs.filter (fun k => !(conv && k.handle == h)) } }

theorem runSeqFree_of_named {s v x : State} {c : Cmd} {r : State × Nat} (hv : v = contextRead c s)
    (hr : rangesPoisoned v (contextRanges s c) = false)
    (hnamed : seqsNamed v c ≠ [] ∨ (convOf v c.fn (ctxHandle c.pkt)).isSome = true)
    (hx : x = endAll v (seqUsers v c ((seqsNamed v c).map (·.handle))) .cancelled) (hfree : r = freeSeqs x c.fn (seqsNamed v c)) :
    runSeqFree c s =
      complete (dropConv r.1 (convOf v c.fn (ctxHandle c.pkt)).isSome (ctxHandle c.pkt)) c .ok (natLe 4 r.2) := by
  subst hv hx hfree
  unfold runSeqFree
  rw [withContext_of_readable _ hr]
  refine if_neg fun hnone => ?_
  obtain ⟨hempty, hconv⟩ := (Bool.and_eq_true _ _).mp hnone
  obtain h | h := hnamed
  · exact h (List.isEmpty_iff.mp hempty)
  · simp [h] at hconv

/- ### SEQ_FORK (09 R209 to R212) -/

/-- The position of a fork: its own, or its parent's length. -/
def forkPosition (c : Cmd) (q : Seqn) : Nat := if arg c 24 4 = 0xFFFFFFFF then q.length else arg c 24 4

/-- The parent's pages that hold positions below `at0`. -/
def pagesBelow (q : Seqn) (at0 : Nat) : List Page := q.pages.filter (fun p => decide (p.index < ceilDiv at0 q.geom.tokens))

/-- The parent as a fork leaves it: the pages below the fork are shared. -/
def sharedParent (q : Seqn) (at0 : Nat) : Seqn :=
  { q with pages := q.pages.map (fun p => if p.index < ceilDiv at0 q.geom.tokens then { p with shared := true } else p) }

theorem tryFork_of_idle {s : State} {c : Cmd} {q : Seqn} (hq : seqOf s c.fn (ctxHandle c.pkt) = some q)
    (hi : inStep s c.fn q.handle = false) : tryFork c s = some (forkNow c q s) := by
  unfold tryFork
  rw [hq]
  exact if_neg (by simp [hi])

theorem tryFork_of_inStep {s : State} {c : Cmd} {q : Seqn} (hq : seqOf s c.fn (ctxHandle c.pkt) = some q)
    (hi : inStep s c.fn q.handle = true) : tryFork c s = none := by
  unfold tryFork
  rw [hq]
  exact if_pos hi

theorem forkNow_of_room {s x : State} {c : Cmd} {q k : Seqn} {at0 : Nat} {shared : List Page} {ev : Bool} (hat : at0 = forkPosition c q)
    (hlen : at0 ≤ q.length) (hshared : shared = pagesBelow q at0)
    (hrefs : shared.any (fun p => s.store.frames.any (fun f => f.pfn == p.pfn && decide (65535 ≤ f.refs))) = false)
    (hn : newSeq s c.fn q.model q.cls q.geom none = some (x, k, ev)) :
    forkNow c q s =
      complete (setSeq (setSeq (shared.foldl (fun s p => raiseFrame s p.pfn) x) (sharedParent q at0))
        { k with length := at0, pages := shared.map (childPage q.geom at0) }) (c.warns ev warnEvicted) .ok
        (natLe 4 k.handle ++ natLe 4 at0 ++ natLe 4 shared.length) := by
  subst hshared hat
  refine (if_neg (Nat.not_lt.mpr hlen)).trans ((if_neg (Bool.eq_false_iff.mp hrefs)).trans ?_)
  rw [hn]
  rfl

theorem runSeqFork_of_readable {s v : State} {c : Cmd} (hv : v = contextRead c s) (hr : rangesPoisoned v (contextRanges s c) = false) :
    runSeqFork c s = (tryFork c v).getD (park v c .step) := by
  subst hv
  exact withContext_of_readable _ hr

/- ### SEQ_APPEND (09 R213, R214; 11 R254) -/

/-- The appends of a sequence that have started before `c`. -/
def startedAppends (s : State) (c : Cmd) (q : Seqn) : List Cmd :=
  s.cmds.filter (fun d => d.id != c.id && d.fn == c.fn && d.op == .seqAppend && d.phase != .waiting && ctxHandle d.pkt == q.handle)

/-- An append behind those that have started, as it waits for its turn. -/
def queuedBehind (c : Cmd) (others : List Cmd) : Cmd :=
  { c with sseq := (others.map (·.sseq)).foldl max 0 + 1, phase := .parked .turn, misc := [0, 0] }

section
variable {s v : State} {c : Cmd} {q : Seqn} {m : Model} {others : List Cmd} (hv : v = contextRead c s)
  (hr : rangesPoisoned v (contextRanges s c) = false) (hq : seqOf v c.fn (ctxHandle c.pkt) = some q) (hm : modelOf v c.fn q.model = some m)
  (ha : appendAgrees v c m q = true) (ho : others = startedAppends v c q)
include hv hr hq hm ha ho

/-- Where its context can be read and its tensors agree with its model, the number of positions decides what an append does. -/
theorem runSeqAppend_of_agreed :
    runSeqAppend c s =
      if 65536 < q.length + (others.map (fun d => blk d 4 4 - d.cnt)).sum + blk c 4 4 then complete v c .lengthLimit
      else
        let d := queuedBehind c others
        matchWatch (setCmd v { d with res := appendResult d q.length }) d := by
  subst hv ho
  unfold runSeqAppend
  rw [withContext_of_readable _ hr]
  dsimp only
  rw [hq]
  dsimp only
  rw [hm]
  exact if_neg (by simp [ha])

theorem runSeqAppend_of_room {d : Cmd} (hroom : q.length + (others.map (fun d => blk d 4 4 - d.cnt)).sum + blk c 4 4 ≤ 65536)
    (hd : d = queuedBehind c others) : runSeqAppend c s = matchWatch (setCmd v { d with res := appendResult d q.length }) d := by
  rw [runSeqAppend_of_agreed hv hr hq hm ha ho, if_neg (Nat.not_lt.mpr hroom), hd]

theorem runSeqAppend_of_overlong (hlong : 65536 < q.length + (others.map (fun d => blk d 4 4 - d.cnt)).sum + blk c 4 4) :
    runSeqAppend c s = complete v c .lengthLimit := by
  rw [runSeqAppend_of_agreed hv hr hq hm ha ho, if_pos hlong]

end

/-- An append with none open before it takes its slot. -/
theorem resumeSeqAppend_of_turn {s : State} {c : Cmd} {q : Seqn} (hp : c.phase = .parked .turn)
    (hq : seqOf s c.fn (ctxHandle c.pkt) = some q) (he : earlierOn s c = []) :
    resumeSeqAppend c s = some (enterTable s c 1 q.handle q.cls q.model) := by
  unfold resumeSeqAppend
  rw [if_neg (not_not_intro hp), hq]
  exact if_pos (List.isEmpty_iff.mpr he)

/-- Settles O17: each row is the body of its command in the state of the start, which its context's read has left; an append whose turn has
come goes on at once. -/
theorem contextCommandsComplete : Obligations.ContextCommandsComplete := by
  unfold Obligations.ContextCommandsComplete
  refine ⟨?conversation, ?resident, ?waits, ?free, ?fork, ?forkWaits, ?append, ?overlong, ?appendGoesOn,
    fun _ _ => withContext_of_poisoned⟩
  case conversation =>
    intro p s w c h hs hk hh hf
    exact exec_seqCreate_of_start hs (runSeqCreate_of_conversation hk hh hf)
  case resident =>
    rintro p s w c m g x q ev _ hs hk hconv hm hg hok hres rfl hn
    exact exec_seqCreate_of_start hs
      ((runSeqCreate_of_model hk hconv hm hg hok).trans ((if_pos hres).trans (createSeq_of_room hg hn)))
  case waits =>
    intro p s w c m g r hs hk hconv hm hg hok hres hr
    exact exec_seqCreate_of_start hs
      ((runSeqCreate_of_model hk hconv hm hg hok).trans ((if_neg (by simp [hres])).trans (awaitModel_of_started 0 hr)))
  case free =>
    rintro p s w v x _ c _ _ r hs hv hr rfl rfl hnamed hx hfree rfl
    exact exec_seqFree_of_start hs (runSeqFree_of_named hv hr hnamed hx hfree)
  case fork =>
    rintro p s w v c q k at0 shared x _ ev hs hv hr hq hi hat hlen hshared hrefs hn rfl
    refine exec_seqFork_of_start hs ((runSeqFork_of_readable hv hr).trans ?_)
    rw [tryFork_of_idle hq hi, Option.getD_some]
    exact forkNow_of_room hat hlen hshared hrefs hn
  case forkWaits =>
    intro p s w v c q hs hv hr hq hi
    refine exec_seqFork_of_start hs ((runSeqFork_of_readable hv hr).trans ?_)
    rw [tryFork_of_inStep hq hi, Option.getD_none]
  case append =>
    intro p s w v c d q m others hs hv hr hq hm ha ho hroom hd
    exact exec_seqAppend_of_start hs (runSeqAppend_of_room hv hr hq hm ha ho hroom hd)
  case overlong =>
    intro p s w v c q m others hs hv hr hq hm ha ho hlong
    exact exec_seqAppend_of_start hs (runSeqAppend_of_overlong hv hr hq hm ha ho hlong)
  case appendGoesOn =>
    intro p s w v u c d e q q2 m others hs hv hr hq hm ha ho hroom hd hgo hop hp hq2 he
    have hresume : resumeCmd e u = some (enterTable u e 1 q2.handle q2.cls q2.model) := by
      rw [resumeCmd_seqAppend hop, resumeSeqAppend_of_turn hp hq2 he]
    rw [← ensuing_goesOn hgo hresume]
    exact exec_seqAppend_of_start hs (runSeqAppend_of_room hv hr hq hm ha ho hroom hd)

end Sys2Proof.Machine
end

section
/-! SUPPORT. What the commit of a batch step does for each kind of member (09 R205, R207, R210, R224, R231; 10 R248; 11 R258, R276,
R278): one equation for each kind, and the statement that these settle. -/

namespace Sys2Proof.Machine

/- ### Reads with no injection armed (14 R347, R348) -/

section
variable {s : State} (h : s.fault.injections = [])
include h

theorem strike_of_unarmed (cap : Nat → Nat → Nat → Capture) (ranges : List (Nat × Nat × Nat)) (bad : State → Bool) :
    strike cap ranges bad s = s := by
  rw [strike, h, List.foldl_nil]

theorem strikeInputs_of_unarmed (t : Step) (c : Cmd) (bad : State → Bool) : strikeInputs t c bad s = s :=
  strike_of_unarmed h _ _ _

theorem strikeState_of_unarmed (cap : Nat → Nat → Nat → Capture) (x : Stream) : strikeState cap x s = s :=
  strike_of_unarmed h _ _ _

end

/- ### After a member's commit (11 R258) -/

theorem afterStep_of_last {s v : State} {c : Cmd} (hv : v = progress (setCmd s c) c 0x0006 c.steps true) :
    afterStep s c true = finishCmd v c := by
  subst hv
  unfold afterStep
  exact if_pos rfl

theorem afterStep_of_more {s v : State} {c : Cmd} (hv : v = progress (setCmd s c) c 0x0006 c.steps true) :
    afterStep s c false = setCmd v { c with phase := .parked .step } := by
  subst hv
  unfold afterStep
  exact if_neg Bool.false_ne_true

/- ### Streams (10 R248) -/

theorem commitStream_of_open {t : Step} {m : Member} {s u : State} {c : Cmd} {q : Stream} (hc : cmdOf s m.cmd = some c)
    (hq : streamOf s t.fn m.handle = some q) (hu : u = setStream s { q with lastRun := ctrlStamp s }) :
    commitStream t m s = afterStep u (bookStep u c t) (decide (blk c 4 4 ≤ c.cnt)) := by
  subst hu
  unfold commitStream
  rw [hc, hq]

/- ### GRAPH_RUN and TRAIN_STEP (09 R230, R231; 11 R276) -/

section
variable {t : Step} {m : Member} {s : State} {c : Cmd} {md : Model} (hc : cmdOf s m.cmd = some c) (hi : s.fault.injections = [])
  (hb : memberBad s c m = none) (hm : modelOf s t.fn t.model = some md)
include hc hi hb hm

/-- A member with inputs that can be delivered commits as a `TRAIN_STEP`, or with its outputs as a `GRAPH_RUN`. -/
theorem commitGraph_of_deliverable :
    commitGraph t m s =
      if c.op = .trainStep then commitTrain t c md s
      else
        let w := (memberOuts c m).zipIdx.foldl (fun s o => commitOut s c o.2 o.1.1 o.1.2) s
        afterStep (bumpFree w) { bookStep w c t with res := graphResult c t.tileCmds (openFlags w.freeCtr) } true := by
  unfold commitGraph
  rw [hc]
  dsimp only
  rw [strikeInputs_of_unarmed hi, hb, hm]

theorem commitGraph_of_graphRun {w : State} (ho : c.op ≠ .trainStep)
    (hw : w = (memberOuts c m).zipIdx.foldl (fun s o => commitOut s c o.2 o.1.1 o.1.2) s) :
    commitGraph t m s =
      afterStep (bumpFree w) { bookStep w c t with res := graphResult c t.tileCmds (openFlags w.freeCtr) } true := by
  rw [commitGraph_of_deliverable hc hi hb hm, if_neg ho, hw]

theorem commitGraph_of_trainStep (ho : c.op = .trainStep) : commitGraph t m s = commitTrain t c md s := by
  rw [commitGraph_of_deliverable hc hi hb hm, if_pos ho]

end

/-- A `TRAIN_STEP` of a model with keys and values goes back through its layers, and its gradient and result follow. -/
theorem commitTrain_of_geometry {t : Step} {s v : State} {c : Cmd} {m : Model} {n per rows : Nat} {g : KvGeom}
    {grads : List (List (List (List U32)))} (hn : n = blk c 8 4) (hg : m.kv = some g) (hper : per = layerDraws m.image g n)
    (hgrads : grads = (List.range g.layers).map (fun l =>
      layerBackward s m.image g ((trainPrefix s c).map (fun q => (q, c.aux))) l n (s.freeCtr + l * per)))
    (hv : v = commitGrad { s with freeCtr := s.freeCtr + g.layers * per } c grads m.image)
    (hrows : rows = emptyRowsOf m.image g.layers c.aux (c.aux + n)) :
    commitTrain t c m s = afterStep { v with freeCtr := v.freeCtr + 2 } { (bookStep v c t).warns (rows != 0) warnEmptyRow with
      res := natLe 4 n ++ natLe 4 (Config.freeBits v.freeCtr).toNat ++ natLe 2 (min rows 65535) ++ natLe 2 (openFlags (v.freeCtr + 1)) }
      true := by
  subst hn hper hgrads hv hrows
  unfold commitTrain
  rw [hg]
  rfl

/- ### Sequences (09 R205, R207, R210, R224) -/

/-- The pages, list by list, that positions `[a, b)` of a sequence lie in. -/
def pagesOf (q : Seqn) (a b : Nat) : List ((Nat × Bool) × Nat) :=
  q.geom.lists.flatMap (fun l =>
    ((List.range (ceilDiv b q.geom.tokens - a / q.geom.tokens)).map (a / q.geom.tokens + ·)).map (fun i => (l, i)))

/-- Warnings change nothing of a command but `WARN`. -/
theorem Cmd.warns_eq (c : Cmd) (b : Bool) (w : BitVec 8) : c.warns b w = { c with warn := if b then c.warn ||| w else c.warn } := by
  cases b <;> rfl

section
variable {t : Step} {m : Member} {s : State} {c : Cmd} {q : Seqn} {md : Model} (hc : cmdOf s m.cmd = some c)
  (hq : seqOf s t.fn m.handle = some q) (hm : modelOf s t.fn t.model = some md) (hi : s.fault.injections = [])
  (hb : memberBad s c m = none) (hr : rangesPoisoned s (seqRanges s q) = false)
include hc hq hm hi hb hr

/-- With its inputs and its own structures readable, a sequence's positions `[a, b)` go into its pages, and its outputs, statistics and
result follow. -/
theorem commitSeq_of_deliverable {u v : State} {pool : List Nat} {d : Cmd} {a b : Nat} {w : PageWork} (ha : a = q.length)
    (hend : b = a + m.n) (hw : w = (pagesOf q a b).foldl (commitPage a b) { s := s, pool := pool, q := q, cow := false })
    (hu : u = (memberOuts c m).foldl (fun s o => if o.1.present then commitOut s c 0 o.1 o.2 else s)
      (setSeq w.s { w.q with length := b, lastRun := ctrlStamp s }))
    (hv : v = commitStats u c md c.cnt (c.cnt + m.n) a)
    (hd : d = { bookStep v (c.warns (emptyRowsOf md.image q.geom.layers a b != 0) warnEmptyRow) t with
      cnt := c.cnt + m.n, misc := [max (c.misc.headD 0) (b2n w.sat), max (c.misc.getD 1 0) (b2n w.cow)] }) :
    commitSeq t m (s, pool) =
      (afterStep v { d with res := appendResult d b } (decide (blk c 4 4 ≤ c.cnt + m.n)), w.pool) := by
  subst ha hend hw hu hv hd
  unfold commitSeq
  dsimp only
  rw [hc, hq, hm]
  dsimp only
  rw [strikeInputs_of_unarmed hi, strike_of_unarmed hi, hb, hr, Cmd.warns_eq]
  rfl

end

/-- Settles O49: each kind of member has its equation once its reads meet neither an injection nor poison, and what follows is
`afterStep`. -/
theorem membersCommitWithTheirStep : Obligations.MembersCommitWithTheirStep := by
  unfold Obligations.MembersCommitWithTheirStep
  refine ⟨fun _ _ _ _ _ _ => commitStream_of_open, ?graph, ?train, fun _ _ _ _ _ _ _ _ _ _ => commitTrain_of_geometry,
    ?seq, fun _ _ _ => afterStep_of_last, fun _ _ _ => afterStep_of_more, fun _ _ => rfl⟩
  case graph =>
    intro t m s w c md hc hi hb hm ho hw
    exact commitGraph_of_graphRun hc hi hb hm ho hw
  case train =>
    intro t m s c md hc hi hb hm ho
    exact commitGraph_of_trainStep hc hi hb hm ho
  case seq =>
    intro t m s u v pool c d q md a b w hc hq hm hi hb hr ha hend hw hu hv hd
    exact commitSeq_of_deliverable hc hq hm hi hb hr ha hend hw hu hv hd

end Sys2Proof.Machine
end

section
/-! SUPPORT. The events of batch steps and of what they wait for (09 R219; 10 R248, R250; 11 R254, R255, R258, R271; 13 R327; 15 R362): one
equation for each outcome of each event, and the statement that these settle. -/

namespace Sys2Proof.Machine

/- ### The release of a step (11 R255 to R261) -/

/-- The step of a model that the members `ms` with `n` positions make (11 R258). -/
def builtStep (s : State) (fn : Fn) (id : Nat) (m : Model) (ms : List Member) (n : Nat) : Step :=
  { fn := fn, model := id, release := ctrlStamp s, members := ms
    cls := ((ms.filterMap (fun k => (s.work.slots.find? (fun x => x.num == k.slot)).map (·.effCls))).min?).getD 3
    coppices := BitVec.ofNat 4 ((builtCoppices s fn id ms).map (2 ^ ·)).sum
    est := max 1 (Config.soloEstimate m.image ms.length n (builtCoppices s fn id ms).length) }

/-- A step in flight on its coppices: it has pre-empted the lower steps, taken its ways and asked for its domains (11 R260, R261). -/
def launched (s : State) (t : Step) (cops : List Nat) : State :=
  let x := { s with work := { s.work with steps := s.work.steps ++ [t] } }
  let y := cops.foldl (takeWays t) (s.work.steps.foldl (preemptStep t) x)
  demandWork y t.fn (stepDoms y t)

section
variable {s : State} {fn : Fn} {id : Nat} {m : Model} (hm : modelOf s fn id = some m)
include hm

theorem stepRelease_of_held (h : mayRelease s fn m = false ∨ builtCoppices s fn id [] = []) : stepRelease fn id s = s := by
  unfold stepRelease
  rw [hm]
  refine if_pos ?_
  obtain h | h := h <;> simp [h]

variable {w : State} {ms : List Member} {n : Nat} (hmay : mayRelease s fn m = true) (hcops : builtCoppices s fn id [] ≠ [])
  (hbuilt : (candidates s fn id).foldl (buildSlot m (policyOf s fn id)) (s, [], 0) = (w, ms, n))
include hmay hcops hbuilt

/-- A model that may be released puts the step of its members in flight, if any slot joins. -/
theorem stepRelease_of_built :
    stepRelease fn id s =
      if ms.isEmpty then w
      else
        let z := launched w (builtStep w fn id m ms n) (builtCoppices w fn id ms)
        if fn = .pf0 then traceEvent z domCtrl 0x10 0x03 0x10 0 0 0 (id + 2 ^ 16 * ms.length + 2 ^ 32 * n) else z := by
  unfold stepRelease
  rw [hm]
  dsimp only
  rw [if_neg (by simp [hmay, hcops]), hbuilt]
  cases fn <;> rfl

theorem stepRelease_of_noMember (hms : ms = []) : stepRelease fn id s = w := by
  rw [stepRelease_of_built hm hmay hcops hbuilt, if_pos (List.isEmpty_iff.mpr hms)]

theorem stepRelease_of_members {z : State} (hms : ms ≠ [])
    (hz : z = launched w (builtStep w fn id m ms n) (builtCoppices w fn id ms)) :
    stepRelease fn id s =
      if fn = .pf0 then traceEvent z domCtrl 0x10 0x03 0x10 0 0 0 (id + 2 ^ 16 * ms.length + 2 ^ 32 * n) else z := by
  rw [stepRelease_of_built hm hmay hcops hbuilt, if_neg (mt List.isEmpty_iff.mp hms), hz]

end

/- ### The admission of a cut (11 R259; 15 R362) -/

section
variable {s : State} {t : WorkCut} {k : Energies} (hl : laurelRuns s = true) (hq : s.custody.quiescing = false)
  (hj : jobAdmits s t (edgeWork s t) = true) (hn : workNames s t (edgeWork s t) = true) (hu : unitReady s t (edgeWork s t) = true)
  (ht : classTurn s t = true)
include hl hq hj hn hu ht

/-- A cut whose work, unit and class have their turn is admitted or deferred as the power limit says. -/
theorem admitEvent_of_turn :
    admitEvent t k s = if powerAdmits s t (cutEnergy s t) k then admitCut s t (edgeWork s t) else deferCut s :=
  if_pos (by simp [hl, hq, hj, hn, hu, ht])

theorem admitEvent_of_power (hp : powerAdmits s t (cutEnergy s t) k = true) : admitEvent t k s = admitCut s t (edgeWork s t) := by
  rw [admitEvent_of_turn hl hq hj hn hu ht, if_pos hp]

theorem admitEvent_of_limit (hp : powerAdmits s t (cutEnergy s t) k = false) : admitEvent t k s = deferCut s := by
  rw [admitEvent_of_turn hl hq hj hn hu ht, if_neg (Bool.eq_false_iff.mp hp)]

end

/- ### Scan chunks (10 R248; 14 R340) -/

theorem armed_of_unarmed {s : State} (h : s.fault.injections = []) (target unit : Nat) (hit : Nat → Bool) :
    armed s target unit hit = none := by
  rw [armed, h, List.find?_nil]

/-- A scan chunk of an open step whose input and state can be read commits where the comparison holds. -/
theorem scanChunkCommit_of_readable {s : State} {id : Nat} {ok : Bool} {c : Cmd} {t : Step} {b : Member} {x : Stream} {m : Model}
    (hc : cmdOf s id = some c) (ht : stepWith s id = some (t, b)) (hx : streamOf s t.fn b.handle = some x)
    (hm : modelOf s t.fn t.model = some m) (hop : c.op = .streamChunk) (hcnt : c.cnt < c.first + b.n) (hf : s.fault.integrity = false)
    (hq : s.custody.quiescing = false) (hon : allOn s (t.cops.map domCop) = true) (hi : s.fault.injections = [])
    (he : inputErr s (descAt c.pkt.block 64) c.cnt (c.cnt + (scanChunk c m.chunk c.cnt).1) = none) (hp : statePoisoned s x = false) :
    scanChunkCommit id ok s = if ok then commitScan s c m x else scanMismatch s c (t.cops.headD 0) := by
  have hhit : t.cops.find? (fun k => (armed s 0x0A k (fun _ => true)).isSome) = none := by simp [armed_of_unarmed hi]
  unfold scanChunkCommit
  rw [hc, ht]
  dsimp only
  rw [hx, hm]
  dsimp only
  rw [if_neg (by simp [hop, hcnt, hf, hq, hon]), strike_of_unarmed hi, if_neg (by simp [he, hp]), hhit]
  cases ok <;> rfl

/- ### The commit of a step (11 R258; 09 R205, R207, R210) -/

/-- The sequences of a step commit in the order of their slots, out of the frames that the step holds; what is left of these stays. -/
def commitSeqs (t : Step) (s : State) : State × List Nat :=
  ((sortOn (·.slot) t.members).filter (fun m => decide (m.kind = 1))).foldl (fun x m => commitSeq t m x)
    (s, t.freed ++ t.members.flatMap (fun m => m.frames))

/-- The streams and graphs of a step commit in the order of their slots. -/
def commitOthers (t : Step) (s : State) : State :=
  (sortOn (·.slot) t.members).foldl
    (fun s m => if m.kind = 2 then commitStream t m s else if m.kind = 3 then commitGraph t m s else s) s

/-- The state without the step of a model, whose members' slots stand free for the next one. -/
def withoutStep (s : State) (fn : Fn) (id : Nat) (t : Step) : State :=
  clearChunks { s with work := { s.work with steps := s.work.steps.filter (fun x => !(x.fn == fn && x.model == id)) } } t

section
variable {s : State} {fn : Fn} {id : Nat} {t : Step} (hs : stepOf s fn id = some t)
include hs

theorem stepCommit_of_running (hd : stepDone s t = false) : stepCommit fn id s = s := by
  unfold stepCommit
  rw [hs]
  exact if_pos (by simp [hd])

/-- A step whose tile commands and scan chunks are done commits its sequences, then its streams and graphs, and counts. -/
theorem stepCommit_of_done {m : Model} {v y z : State} {pool : List Nat} (hf : s.fault.integrity = false) (hq : s.custody.quiescing = false)
    (hd : stepDone s t = true) (hon : allOn s (t.cops.map domCop ++ memDomsOf s fn) = true) (hv : v = withoutStep s fn id t)
    (hm : modelOf v fn id = some m) (hy : commitSeqs t (setModel v { m with lastUse := ctrlStamp v }) = (y, pool))
    (hz : z = countUp (commitOthers t (returnFrames y pool)) 0x0007 (if fn = .pf0 then 0 else 1) 1) :
    stepCommit fn id s =
      if fn = .pf0 then traceEvent z domCtrl 0x10 0x04 0x10 0 0 0 (id + 2 ^ 32 * slowdown (ctrlStamp s - t.release) t.est) else z := by
  subst hv hz
  unfold withoutStep at hm hy
  unfold commitSeqs at hy
  unfold stepCommit
  rw [hs]
  dsimp only
  rw [if_neg (by simp [hf, hq, hd, hon]), hm]
  dsimp only
  rw [hy]
  cases fn <;> rfl

end

/- ### Page waits and slots (09 R219; 11 R254) -/

theorem pageWaitEnd_of_runs {s : State} (fn : Fn) (hl : laurelRuns s = true) :
    pageWaitEnd fn s =
      (sortOn (·.effCls) (sortOn (·.parkStamp) (s.work.slots.filter (fun x => x.fn == fn && x.parked)))).foldl servePage s :=
  if_neg (by simp [hl])

theorem slotGrant_of_first {s : State} {fn : Fn} {c : Cmd} {cls k h m : Nat}
    (hc : (sortOn (fun c => ((slotWant s c).map (·.1)).getD 4) (sortOn (·.startStamp)
      (s.cmds.filter (fun c => c.fn == fn && c.phase == .parked .slot)))).head? = some c)
    (hw : slotWant s c = some (cls, k, h, m)) : slotGrant fn s = enterTable s c k h cls m := by
  unfold slotGrant
  dsimp only
  rw [hc]
  dsimp only
  rw [hw]

/- ### Prefetches (10 R250) -/

/-- The place that a prefetched state is given: with the demotions it needs for a chunk that waits, else where it has room. -/
def placePrefetched (s : State) (m : Model) (x : Stream) : Option (State × Stream × Bool) :=
  if (frontChunk s x).isSome then placeDemoting s m x (s.work.streams.length + 1) else placeState s m x false

/-- A chunk notes how its state was placed: with a model evicted, and narrow. -/
def notePlaced (d : Cmd) (ev narrow : Bool) : Cmd :=
  { (d.warns ev warnEvicted).warns narrow warnNarrow with misc := [d.misc.getD 0 0, max (d.misc.getD 1 0) (b2n narrow), d.misc.getD 2 0] }

/-- The state once the chunk that waited for a prefetch, if it is still open, shows how the state was placed. -/
def tellChunk (s : State) (front : Option Cmd) (ev narrow : Bool) : State :=
  match front.bind (fun c => cmdOf s c.id) with
  | some d => setCmd s { notePlaced d ev narrow with res := chunkResult (notePlaced d ev narrow) }
  | none => s

section
variable {s z : State} {h : Nat} {x y : Stream} {m : Model} {e : Bool} (hx : s.work.streams.find? (fun x => x.handle == h) = some x)
  (hp : x.prefetch = true) (hl : laurelRuns s = true) (hq : s.custody.quiescing = false)
  (hon : allOn s (domNand :: memDomsOf s x.fn) = true) (hm : modelOf s x.fn x.model = some m) (hi : s.fault.injections = [])
  (hr : statePoisoned s x = false)
include hx hp hl hq hon hm hi hr

/-- A prefetch whose state can be read and finds a place commits, and its chunk is told. -/
theorem prefetchCommit_of_placed (hplace : placePrefetched s m x = some (z, y, e)) :
    prefetchCommit h s = tellChunk z (frontChunk s x) e y.narrow := by
  unfold placePrefetched at hplace
  unfold prefetchCommit
  rw [hx]
  dsimp only
  rw [if_neg (by simp [hp, hl, hq, hon]), hm]
  dsimp only
  rw [strikeState_of_unarmed hi, if_neg (Bool.eq_false_iff.mp hr), hplace]
  dsimp only [tellChunk]
  cases (frontChunk s x).bind (fun c => cmdOf z c.id) with
  | none => rfl
  | some d => simp only [notePlaced, Cmd.warns_eq]

theorem prefetchCommit_of_noChunk (hf : frontChunk s x = none) (hplace : placeState s m x false = some (z, y, e)) :
    prefetchCommit h s = z := by
  have hplaced : placePrefetched s m x = some (z, y, e) := (if_neg (by simp [hf])).trans hplace
  rw [prefetchCommit_of_placed hx hp hl hq hon hm hi hr hplaced, hf]
  rfl

theorem prefetchCommit_of_chunk {c d f : Cmd} (hc : frontChunk s x = some c)
    (hplace : placeDemoting s m x (s.work.streams.length + 1) = some (z, y, e)) (hd : cmdOf z c.id = some d)
    (hf : f = notePlaced d e y.narrow) : prefetchCommit h s = setCmd z { f with res := chunkResult f } := by
  have hplaced : placePrefetched s m x = some (z, y, e) := (if_pos (by simp [hc])).trans hplace
  rw [prefetchCommit_of_placed hx hp hl hq hon hm hi hr hplaced, hc, tellChunk, Option.bind_some, hd, hf]

end

/- ### Residency (11 R271; 12 R303) -/

/-- The bases of what a model holds in a tier as objects of a kind. -/
def basesOf (s : State) (fn : Fn) (tier obj id : Nat) : List Nat :=
  (s.store.allocs.filter (fun a => a.fn == fn && a.tier == tier && a.obj == obj && a.owner == id)).map (·.base)

/-- The end of a residency that has read its model: the copy in the pool is the model's. -/
def madeResident (s : State) (m : Model) (src dst : List Nat) : State :=
  let v := copyPieces s m src dst
  setModel v { m with
    loading := false, resident := some (dst.headD 0), lastUse := ctrlStamp v, wasEvicted := false, tables := tablesOf m.image }

/-- The end of a residency that met an uncorrectable store unit: its place is given back, and the commands that wait for it end. -/
def failedResidency (s : State) (fn : Fn) (id : Nat) (m : Model) : State :=
  let v := dropAllocs (setModel s { m with loading := false }) fn [20] id
  endAll v ((v.cmds.filter (fun c => c.fn == fn && c.phase == .parked .residency && modelNeeded v c == id)).map (·.id)) .poison

/-- A residency under way ends as what it reads of the store decides. -/
theorem modelResident_of_loading {s : State} {fn : Fn} {id : Nat} {m : Model} {src : List Nat} (hm : modelOf s fn id = some m)
    (hload : m.loading = true) (hl : laurelRuns s = true) (hon : allOn s (residencyDoms s m) = true) (hi : s.fault.injections = [])
    (hsrc : src = basesOf s fn 3 22 id) :
    modelResident fn id s =
      if (loadRanges s m src).any (fun r => (firstPoison s 3 r.2.1 r.2.2).isSome) then failedResidency s fn id m
      else madeResident s m src (basesOf s fn 2 20 id) := by
  subst hsrc
  unfold modelResident
  rw [hm]
  dsimp only
  rw [if_neg (by simp [hload, hl, hon]), strike_of_unarmed hi]
  rfl

/- ### NOR writes (13 R327) -/

theorem norWriteDone_of_activating {s x : State} {ok : Bool} {i : Nat} {f : FwImage} (ha : s.fw.activating = some i)
    (hr : s.boot.inReset = false) (hf : f = { runningOf s i with valid := ok })
    (hx : x = { s with fw := { s.fw with
      activating := none, norState := s.fw.norState.set (i - 1) (if ok then 0 else 2)
      nor := s.fw.nor.map (fun g => if g.component = i then f else g) } }) :
    norWriteDone ok s = if ok then raiseSvn x else x := by
  subst hf hx
  unfold norWriteDone
  rw [ha]
  exact if_neg (Bool.eq_false_iff.mp hr)

/-- Settles O48: each clause is the equation of its event in the swept state; an admission changes only the fields it names. -/
theorem workEvents : Obligations.WorkEvents := by
  unfold Obligations.WorkEvents
  refine ⟨?held, ?noMember, ?released, ?admitted, fun _ _ _ => ⟨rfl, rfl, rfl, rfl, rfl⟩, ?deferred, ?scan, ?running, ?committed,
    ?pages, ?slot, ?prefetch, ?prefetchChunk, ?resident, ?poisoned, ?nor⟩
  case held =>
    rintro s _ fn id m rfl hm h
    exact exec_event rfl (stepRelease_of_held hm h)
  case noMember =>
    rintro s _ w fn id n m rfl hm hmay hcops hbuilt
    exact exec_event rfl (stepRelease_of_noMember hm hmay hcops hbuilt rfl)
  case released =>
    rintro s _ fn id n m w x y z ms cops t rfl hm hmay hcops hbuilt hms hc ht hx hy hz
    subst hc ht hx hy
    exact exec_event rfl (stepRelease_of_members hm hmay hcops hbuilt hms hz)
  case admitted =>
    rintro s _ t k e rfl rfl hl hq hj hn hu ht hp
    exact exec_event rfl (admitEvent_of_power hl hq hj hn hu ht hp)
  case deferred =>
    rintro s _ t k e rfl rfl hl hq hj hn hu ht hp
    exact exec_event rfl (admitEvent_of_limit hl hq hj hn hu ht hp)
  case scan =>
    rintro s _ id ok c t b x m rfl hc ht hx hm hop hcnt hf hq hon hi he hp
    exact exec_event rfl (scanChunkCommit_of_readable hc ht hx hm hop hcnt hf hq hon hi he hp)
  case running =>
    rintro s _ fn id t rfl hs hd
    exact exec_event rfl (stepCommit_of_running hs hd)
  case committed =>
    rintro s _ fn id t m _ v _ y z pool rfl hs hf hq hd hon rfl hv hm rfl hy hz
    exact exec_event rfl (stepCommit_of_done hs hf hq hd hon hv hm hy hz)
  case pages =>
    rintro s _ fn rfl hl
    exact exec_event rfl (pageWaitEnd_of_runs fn hl)
  case slot =>
    rintro s _ fn c cls k h m rfl hc hw
    exact exec_event rfl (slotGrant_of_first hc hw)
  case prefetch =>
    rintro s _ h x y m z e rfl hx hp hl hq hon hm hi hr hf hplace
    exact exec_event rfl (prefetchCommit_of_noChunk hx hp hl hq hon hm hi hr hf hplace)
  case prefetchChunk =>
    rintro s _ z h x y m c d f e rfl hx hp hl hq hon hm hi hr hc hplace hd hf
    exact exec_event rfl (prefetchCommit_of_chunk hx hp hl hq hon hm hi hr hc hplace hd hf)
  case resident =>
    rintro s _ _ fn id m src _ rfl hm hload hl hon hi hsrc rfl hr rfl
    exact exec_event rfl ((modelResident_of_loading hm hload hl hon hi hsrc).trans (if_neg (Bool.eq_false_iff.mp hr)))
  case poisoned =>
    rintro s _ _ fn id m src rfl hm hload hl hon hi hsrc hr rfl
    exact exec_event rfl ((modelResident_of_loading hm hload hl hon hi hsrc).trans (if_pos hr))
  case nor =>
    rintro s _ ok i f x rfl ha hr hf hx
    exact exec_event rfl (norWriteDone_of_activating ha hr hf hx)

end Sys2Proof.Machine
end

section
/-! SUPPORT. `STREAM_OPEN`, `STREAM_CHUNK`, `STREAM_CLOSE` and `STATE_SWAP` (10 R243, R245 to R247, R251, R252; 11 R254): what each does once
its context can be read, what it does in its turn, and the statement that these settle. -/

namespace Sys2Proof.Machine

section
variable {s : State} {c : Cmd}

theorem runCmd_streamOpen (h : c.op = .streamOpen) : runCmd c s = runStreamOpen c s := by
  unfold runCmd
  rw [h]

theorem runCmd_streamChunk (h : c.op = .streamChunk) : runCmd c s = runStreamChunk c s := by
  unfold runCmd
  rw [h]

theorem runCmd_streamClose (h : c.op = .streamClose) : runCmd c s = runStreamClose c s := by
  unfold runCmd
  rw [h]

theorem runCmd_stateSwap (h : c.op = .stateSwap) : runCmd c s = runStateSwap c s := by
  unfold runCmd
  rw [h]

theorem resumeCmd_streamChunk (h : c.op = .streamChunk) : resumeCmd c s = resumeStreamChunk c s := by
  unfold resumeCmd
  rw [h]

theorem resumeCmd_streamClose (h : c.op = .streamClose) : resumeCmd c s = resumeStreamClose c s := by
  unfold resumeCmd
  rw [h]

theorem resumeCmd_stateSwap (h : c.op = .stateSwap) : resumeCmd c s = resumeStateSwap c s := by
  unfold resumeCmd
  rw [h]

end

section
variable {p : Packet} {s w t : State} {c : Cmd}

theorem exec_streamOpen_of_start (h : startOf .streamOpen 0x44 p s = some (c, w)) (hrun : runStreamOpen c w = t) :
    exec (.streamOpen p) s = .next (ensuing t) :=
  exec_start rfl h (fun ho => (runCmd_streamOpen ho).trans hrun)

theorem exec_streamChunk_of_start (h : startOf .streamChunk 0x45 p s = some (c, w)) (hrun : runStreamChunk c w = t) :
    exec (.streamChunk p) s = .next (ensuing t) :=
  exec_start rfl h (fun ho => (runCmd_streamChunk ho).trans hrun)

theorem exec_streamClose_of_start (h : startOf .streamClose 0x46 p s = some (c, w)) (hrun : runStreamClose c w = t) :
    exec (.streamClose p) s = .next (ensuing t) :=
  exec_start rfl h (fun ho => (runCmd_streamClose ho).trans hrun)

theorem exec_stateSwap_of_start (h : startOf .stateSwap 0x47 p s = some (c, w)) (hrun : runStateSwap c w = t) :
    exec (.stateSwap p) s = .next (ensuing t) :=
  exec_start rfl h (fun ho => (runCmd_stateSwap ho).trans hrun)

end

/- ### STREAM_OPEN (10 R245, R246) -/

/-- The initial state of a stream that is opened: zero, or the values of the image that its command names. -/
def initialState (s : State) (c : Cmd) (m : Model) : State × Except Status (List U32) :=
  if arg c 32 8 = 0 then (s, .ok (List.replicate (wideSize m / 4) 0)) else readImage s c m (arg c 32 8) (arg c 40 4)

theorem initialState_of_zero {s : State} {c : Cmd} {m : Model} (h : arg c 32 8 = 0) :
    initialState s c m = (s, .ok (List.replicate (wideSize m / 4) 0)) :=
  if_pos h

section
variable {s : State} {c : Cmd} {m : Model} {im : State × Except Status (List U32)} {init : List U32}
  (hm : modelOf s c.fn (arg c 24 2) = some m) (hr : m.recurrent = true) (him : im = initialState s c m) (hi : im.2 = .ok init)
include hm hr him hi

/-- With its initial values known, an opening depends on the room for its stream alone. -/
theorem runStreamOpen_of_initial :
    runStreamOpen c s = (newStream im.1 c m init).elim (complete im.1 c .quota) (fun r =>
      complete r.1 ((c.warns r.2.2 warnEvicted).warns r.2.1.narrow warnNarrow) .ok
        (natLe 4 r.2.1.handle ++ natLe 4 r.2.1.wide ++ natLe 1 (b2n r.2.1.narrow))) := by
  subst him
  unfold initialState at hi ⊢
  unfold runStreamOpen
  rw [hm]
  dsimp only
  rw [if_neg (by simp [hr]), hi]
  dsimp only
  cases newStream _ c m init <;> rfl

theorem runStreamOpen_of_room {y : State} {x : Stream} {ev : Bool} (hn : newStream im.1 c m init = some (y, x, ev)) :
    runStreamOpen c s = complete y ((c.warns ev warnEvicted).warns x.narrow warnNarrow) .ok
      (natLe 4 x.handle ++ natLe 4 x.wide ++ natLe 1 (b2n x.narrow)) := by
  rw [runStreamOpen_of_initial hm hr him hi, hn, Option.elim_some]

theorem runStreamOpen_of_full (hn : newStream im.1 c m init = none) : runStreamOpen c s = complete im.1 c .quota := by
  rw [runStreamOpen_of_initial hm hr him hi, hn, Option.elim_none]

end

/- ### The starts that wait for their turn (10 R247, R251, R252) -/

/-- The tensors of a chunk agree with its model: its input has the chunk's positions, and an output it gives is the model's. -/
def chunkAgrees (c : Cmd) (m : Model) : Bool :=
  agrees (m.tmplIn 0) (descAt c.pkt.block 64) (some (blk c 4 4))
    && (!(descAt c.pkt.block 128).present || agrees (m.tmplOut 0) (descAt c.pkt.block 128) none)

/-- An image that a swap writes or takes lies in a range of the tenant that is long enough for its model (10 R251). -/
def SwapImageFits (s : State) (c : Cmd) (m : Model) : Prop :=
  arg c 24 1 = 1 ∨ arg c 24 1 = 2 → [1, 2, 3].contains (tierOf (arg c 28 8)) = true ∧
    ownsRange s c.fn (tierOf (arg c 28 8)) (offOf (arg c 28 8)) (arg c 36 4) = true ∧ 64 + wideSize m ≤ arg c 36 4

section
variable {s v : State} {c : Cmd} {x : Stream} (hv : v = contextRead c s) (hr : rangesPoisoned v (contextRanges s c) = false)
  (hx : streamNamed v c = some x)
include hv hr hx

theorem runStreamChunk_of_agreed {m : Model} (hm : modelOf v c.fn x.model = some m) (ha : chunkAgrees c m = true)
    (hp : operandsPlaced v c = true) : runStreamChunk c s = park v c .turn := by
  subst hv
  unfold runStreamChunk
  rw [withContext_of_readable _ hr]
  dsimp only
  rw [hx]
  dsimp only
  rw [hm]
  exact if_pos ((Bool.and_eq_true _ _).mpr ⟨ha, hp⟩)

theorem runStreamClose_of_named :
    runStreamClose c s =
      if arg c 24 1 = 1 then endAll (park v c .turn)
        (((streamCmds (park v c .turn) c).filter (fun d => decide (d.sseq < c.sseq))).map (·.id)) .cancelled
      else park v c .turn := by
  subst hv
  unfold runStreamClose
  rw [withContext_of_readable _ hr]
  dsimp only
  rw [hx]

theorem runStateSwap_of_fits {m : Model} (hm : modelOf v c.fn x.model = some m) (hf : SwapImageFits v c m) :
    runStateSwap c s = park v c .turn := by
  subst hv
  unfold runStateSwap
  rw [withContext_of_readable _ hr]
  dsimp only
  rw [hx]
  dsimp only
  rw [hm]
  refine if_neg ?_
  rintro ⟨himage, hbad⟩
  obtain ⟨htier, howns, hlen⟩ := hf himage
  rw [htier, howns, decide_eq_false (Nat.not_lt.mpr hlen)] at hbad
  exact Bool.false_ne_true hbad

end

/- ### In its turn (10 R247, R251, R252; 11 R254) -/

section
variable {s : State} {c : Cmd} {x : Stream} (hx : streamNamed s c = some x) (ht : streamTurn s c = true)
include hx ht

theorem resumeStreamChunk_of_turn (hp : c.phase = .parked .turn) :
    resumeStreamChunk c s = some (enterTable (matchWatch s c) c 2 x.handle x.cls x.model) := by
  unfold resumeStreamChunk
  rw [if_neg (not_not_intro hp), hx]
  exact if_pos ht

theorem resumeStreamClose_of_turn {later : List Nat} (hl : later = ((streamCmds s c).filter (fun d => d.id != c.id)).map (·.id)) :
    resumeStreamClose c s = some (complete
      (freeStream { s with cmds := s.cmds.map (fun d => if later.contains d.id then { d with lost := 2 } else d) } x) c .ok
      (natLe 4 c.sseq)) := by
  subst hl
  unfold resumeStreamClose
  rw [hx]
  exact if_neg (by simp [ht])

theorem resumeStateSwap_of_turn {m : Model} (hm : modelOf s c.fn x.model = some m) (hp : x.prefetch = false) :
    resumeStateSwap c s = swapAct c m x s := by
  unfold resumeStateSwap
  rw [hx]
  dsimp only
  rw [hm]
  exact if_neg (by simp [ht, hp])

end

/- ### STATE_SWAP acts (10 R243, R251) -/

/-- A swap reads the place of its state: to write its image, or to move it to the other tier or to the wide form. -/
@[reducible] def SwapReads (c : Cmd) (x : Stream) : Prop :=
  arg c 24 1 = 1 ∨ arg c 24 1 = 0 ∧ (x.home ≠ arg c 25 1 ∨ arg c 25 1 = 2 ∧ (x.narrow && arg c 26 1 == 1) = true)

section
variable {s u : State} {c : Cmd} {m : Model} {x : Stream} (ha : arg c 24 1 = 0)
include ha

theorem swapAct_of_inStore (hl : arg c 25 1 = 3) (hh : x.home = 3) : swapAct c m x s = some (swapDone s c x false) := by
  have hreads : ¬SwapReads c x := by simp [ha, hl, hh]
  unfold swapAct
  dsimp only
  rw [if_neg hreads, if_pos ⟨ha, hl⟩, if_pos hh]

theorem swapAct_of_inPool (hl : arg c 25 1 = 2) (hh : x.home = 2) (hw : (x.narrow && arg c 26 1 == 1) = false) :
    swapAct c m x s = some (swapDone s c x false) := by
  have hreads : ¬SwapReads c x := by simp [ha, hl, hh, hw]
  unfold swapAct
  dsimp only
  rw [if_neg hreads, if_neg (by simp [hl]), if_pos ha, if_pos (by simp [hh, hw])]

section
variable (hu : u = strikeState (captureBy s c 0x54) x s) (hp : statePoisoned u x = false)
include hu hp

theorem swapAct_of_movedToStore {z : State} (hl : arg c 25 1 = 3) (hh : x.home ≠ 3) (hz : stateToStore u x = some z) :
    swapAct c m x s = some (swapDone z (c.warns x.narrow warnNarrow) { x with home := 3 } false) := by
  subst hu
  have hreads : SwapReads c x := .inr ⟨ha, .inl (by rwa [hl])⟩
  unfold swapAct
  dsimp only
  rw [if_pos hreads, if_pos ⟨ha, hl⟩, if_neg hh, if_neg (Bool.eq_false_iff.mp hp), hz]

/-- A swap into tier 2 that has something to move places the state there, or waits. -/
theorem swapAct_of_movedToPool (hl : arg c 25 1 = 2) (hmove : x.home ≠ 2 ∨ (x.narrow && arg c 26 1 == 1) = true) :
    swapAct c m x s = swapPlace u c m x (arg c 26 1 == 1) := by
  subst hu
  have hreads : SwapReads c x := .inr ⟨ha, hmove.imp (fun hh => by rwa [hl]) (fun hw => ⟨hl, hw⟩)⟩
  have hmoves : ¬(x.home = 2 ∧ (!(x.narrow && arg c 26 1 == 1)) = true) := by
    rintro ⟨hh, hw⟩
    exact hmove.elim (fun h => h hh) (fun h => by simp [h] at hw)
  unfold swapAct
  dsimp only
  rw [if_pos hreads, if_neg (by simp [hl]), if_pos ha, if_neg hmoves, if_neg (Bool.eq_false_iff.mp hp)]

end

end

section
variable {s : State} {c : Cmd} {m : Model} {x : Stream} {wideOnly : Bool} (hw : c.resWaited = false)
include hw

theorem swapPlace_of_placed {z : State} {y : Stream} {ev : Bool} (hz : placeState s m x wideOnly = some (z, y, ev)) :
    swapPlace s c m x wideOnly = some (swapDone z c y ev) := by
  unfold swapPlace
  rw [hz]
  dsimp only
  rw [if_neg (by simp [hw])]

theorem swapPlace_of_full (hz : placeState s m x wideOnly = none) :
    swapPlace s c m x wideOnly = some (residencyWait s c x.handle) := by
  unfold swapPlace
  rw [hz]
  exact if_neg (by simp [hw])

end

section
variable {s u : State} {c : Cmd} {m : Model} {x : Stream}

theorem swapAct_of_imageWritten (ha : arg c 24 1 = 1) (hu : u = strikeState (captureBy s c 0x54) x s) (hp : statePoisoned u x = false)
    (hw : ¬(tierOf (arg c 28 8) = 3 ∧ (nandCh u (offOf (arg c 28 8) / nandSize)).readOnly = true)) :
    swapAct c m x s = some (swapDone (tierWrite u (tierOf (arg c 28 8)) (offOf (arg c 28 8))
      (imageHeader m ++ x.carried.flatMap (fun v => natLe 4 v.toNat))) c x false) := by
  subst hu
  have hreads : SwapReads c x := .inl ha
  unfold swapAct
  dsimp only
  rw [if_pos hreads, if_neg (by simp [ha]), if_neg (by simp [ha]), if_pos ha, if_neg (Bool.eq_false_iff.mp hp), if_neg hw]

/-- Where a swap takes the values of its state from: the image it names, or the state's own initial copy. -/
def swapSource (s : State) (c : Cmd) (m : Model) (x : Stream) : State × Except Status (List U32) :=
  if arg c 24 1 = 2 then readImage s c m (arg c 28 8) (arg c 36 4) else (s, .ok x.init)

/-- A swap sets the values of its state, in the width that the state has. -/
def swapSet (s : State) (c : Cmd) (m : Model) (x : Stream) (vs : List U32) : State :=
  swapDone (setStream s { x with carried := storeState m x.narrow vs }) c { x with carried := storeState m x.narrow vs } false

section
variable {vs : List U32}

/-- A swap that sets a state places it again where it is in tier 2 and the values are an image's; else they are stored where it is. -/
theorem swapAct_of_set (ha : 2 ≤ arg c 24 1) (hi : swapSource s c m x = (u, .ok vs)) :
    swapAct c m x s = some (if arg c 24 1 = 2 ∧ x.home = 2 then
      ((placeState u m { x with carried := vs } false).map (fun r => swapDone r.1 c r.2.1 r.2.2)).getD (swapSet u c m x vs)
      else swapSet u c m x vs) := by
  have hreads : ¬SwapReads c x := by
    rintro (h | ⟨h, -⟩) <;> omega
  unfold swapSource at hi
  unfold swapAct
  dsimp only
  rw [if_neg hreads, if_neg (by omega), if_neg (by omega), if_neg (by omega), hi]
  dsimp only
  split
  case isFalse => rfl
  case isTrue => cases placeState u m { x with carried := vs } false <;> rfl

theorem swapAct_of_imageTaken (ha : arg c 24 1 = 2) (hh : x.home ≠ 2) (hi : readImage s c m (arg c 28 8) (arg c 36 4) = (u, .ok vs)) :
    swapAct c m x s = some (swapSet u c m x vs) := by
  rw [swapAct_of_set ha.ge ((if_pos ha).trans hi), if_neg (fun h => hh h.2)]

theorem swapAct_of_imagePlaced {z : State} {y : Stream} {ev : Bool} (ha : arg c 24 1 = 2) (hh : x.home = 2)
    (hi : readImage s c m (arg c 28 8) (arg c 36 4) = (u, .ok vs)) (hz : placeState u m { x with carried := vs } false = some (z, y, ev)) :
    swapAct c m x s = some (swapDone z c y ev) := by
  rw [swapAct_of_set ha.ge ((if_pos ha).trans hi), if_pos ⟨ha, hh⟩, hz, Option.map_some, Option.getD_some]

theorem swapAct_of_reset (ha : arg c 24 1 = 3) : swapAct c m x s = some (swapSet s c m x x.init) := by
  rw [swapAct_of_set (by omega) (if_neg (by omega)), if_neg (by omega)]

end

end

/-- Settles O18: each start is the body of its command in the state that its context's read has left; a command whose turn has come goes on
at once, and a swap then acts as its `ACTION`, its `LEVEL` and the place of its state decide. -/
theorem streamCommandsComplete : Obligations.StreamCommandsComplete := by
  unfold Obligations.StreamCommandsComplete
  refine ⟨?opened, ?quota, ?chunkGoesOn, ?chunk, ?closeGoesOn, ?close, ?swap, ?swapGoesOn, fun _ _ _ _ => swapAct_of_inStore,
    fun _ _ _ _ _ _ ha hl hh hu hp hz => swapAct_of_movedToStore ha hu hp hl hh hz, fun _ _ _ _ => swapAct_of_inPool, ?placed, ?waits,
    fun _ _ _ _ _ => swapAct_of_imageWritten, fun _ _ _ _ _ _ => swapAct_of_imageTaken,
    fun _ _ _ _ _ _ _ _ _ => swapAct_of_imagePlaced, fun _ _ _ _ => swapAct_of_reset⟩
  case opened =>
    intro p s w c m im init y x ev hs hm hr him hi hn
    exact exec_streamOpen_of_start hs (runStreamOpen_of_room hm hr him hi hn)
  case quota =>
    intro p s w c m hs hm hr hzero hn
    have hrun := runStreamOpen_of_full hm hr (initialState_of_zero hzero).symm rfl hn
    exact exec_streamOpen_of_start hs hrun
  case chunkGoesOn =>
    intro p s w v u c d x y m hs hv hr hx hm hin hout hplaced hgo hop hp hy ht
    have hresume := (resumeCmd_streamChunk hop).trans (resumeStreamChunk_of_turn hy ht hp)
    rw [← ensuing_goesOn hgo hresume]
    exact exec_streamChunk_of_start hs (runStreamChunk_of_agreed hv hr hx hm ((Bool.and_eq_true _ _).mpr ⟨hin, hout⟩) hplaced)
  case chunk =>
    intro p s w v c x m hs hv hr hx hm hin hout hplaced
    exact exec_streamChunk_of_start hs (runStreamChunk_of_agreed hv hr hx hm ((Bool.and_eq_true _ _).mpr ⟨hin, hout⟩) hplaced)
  case closeGoesOn =>
    rintro p s w v _ u c d x y later hs hv hr hx rfl hgo hop hy ht hl
    have hresume := (resumeCmd_streamClose hop).trans (resumeStreamClose_of_turn hy ht hl)
    rw [← ensuing_goesOn hgo hresume]
    exact exec_streamClose_of_start hs (runStreamClose_of_named hv hr hx)
  case close =>
    rintro p s w v _ c x hs hv hr hx rfl
    exact exec_streamClose_of_start hs (runStreamClose_of_named hv hr hx)
  case swap =>
    intro p s w v c x m hs hv hr hx hm hf
    exact exec_stateSwap_of_start hs (runStateSwap_of_fits hv hr hx hm hf)
  case swapGoesOn =>
    intro p s w v u z c d x y m n hs hv hr hx hm hf hgo hop hy hn ht hp hz
    have hresume := (resumeCmd_stateSwap hop).trans ((resumeStateSwap_of_turn hy ht hn hp).trans hz)
    rw [← ensuing_goesOn hgo hresume]
    exact exec_stateSwap_of_start hs (runStateSwap_of_fits hv hr hx hm hf)
  case placed =>
    intro s u z c m x y ev ha hl hmove hu hp hz hw
    exact (swapAct_of_movedToPool ha hu hp hl hmove).trans (swapPlace_of_placed hw hz)
  case waits =>
    intro s u c m x ha hl hmove hu hp hz hw
    exact (swapAct_of_movedToPool ha hu hp hl hmove).trans (swapPlace_of_full hw hz)

end Sys2Proof.Machine
end

section
/-! SUPPORT. The boosts along every step (11 R268; 05 R112): each command of the queue ends in a settling, which sets the boosts, or leaves alone
what the wait-for edges are read from; and the statement that this settles. -/

namespace Sys2Proof.Machine

/- ### Rows that leave commands, semaphores and rings alone -/

theorem boosts_of_sameWaits {s t : State} (hw : SameWaits t s) (h : BoostsSettled s) : BoostsSettled t := by
  obtain ⟨hcmds, hsems, hrings⟩ := hw
  exact boosts_kept h hcmds hsems hrings

theorem sameWaits_rfl (s : State) : SameWaits s s := ⟨rfl, rfl, rfl⟩

theorem sameWaits_ite {p : Prop} [Decidable p] {s t u : State} (ht : SameWaits t s) (hu : SameWaits u s) :
    SameWaits (if p then t else u) s := by
  split
  · exact ht
  · exact hu

theorem provision_sameWaits (s : State) (op : Nat) : SameWaits (provision op s) s := by
  have hend (r : Nat) : SameWaits (provEnd s r) s := ⟨rfl, rfl, rfl⟩
  exact sameWaits_ite (sameWaits_rfl s) (sameWaits_ite (hend 2) (sameWaits_ite (hend 4) (sameWaits_ite (hend 1) ⟨rfl, rfl, rfl⟩)))

theorem askProvision_sameWaits (s : State) (op : Nat) : SameWaits (askProvision op s) s :=
  sameWaits_ite (provision_sameWaits s op) (sameWaits_rfl s)

/-- What the rows do that nothing follows from: accesses over I3C and to single registers, the edges and messages of the watch over Laurel,
and the bookkeeping of the memories. -/
def directEffect : Instr → Option (State → State)
  | .programOemKey => some (askProvision 1)
  | .blowOemLock => some (askProvision 2)
  | .blowDbgOff => some (askProvision 3)
  | .wakePending v => some (clearWakePending v)
  | .wakeCountsRead => some readWakeCounts
  | .testStop v => some (writeTestStop v)
  | .testStopExpiry => some testStopExpiry
  | .rcvCtrlGo v => some (rcvCtrlWrite v)
  | .entdaa a => some (entdaa a)
  | .rstdaa => some rstdaa
  | .setnewda a => some (setnewda a)
  | .getpid => some getpid
  | .getbcr => some getbcr
  | .getdcr => some getdcr
  | .getstatus => some getstatus
  | .syncMark m => some (syncMark m)
  | .configRequest fn => some (configRequest fn)
  | .renewalDue => some renewalDue
  | .healthMessage => some healthMessage
  | .aliveEdge => some aliveEdge
  | .disturbWindow ch bank => some (disturbWindow ch bank)
  | .readRefresh ch block => some (readRefresh ch block)
  | _ => none

theorem exec_directEffect {i : Instr} {f : State → State} (s : State) (h : directEffect i = some f) : exec i s = .next (f s) := by
  cases i
  all_goals cases h
  all_goals rfl

/-- Whichever way its guard falls, a direct effect touches no command, semaphore or ring. -/
theorem directEffect_sameWaits {i : Instr} {f : State → State} (s : State) (h : directEffect i = some f) : SameWaits (f s) s := by
  cases i
  all_goals cases h
  case programOemKey | blowOemLock | blowDbgOff => exact askProvision_sameWaits s _
  case disturbWindow => exact ⟨rfl, rfl, rfl⟩
  case aliveEdge => exact sameWaits_ite (sameWaits_rfl s) (sameWaits_ite ⟨rfl, rfl, rfl⟩ ⟨rfl, rfl, rfl⟩)
  case rcvCtrlGo => exact sameWaits_ite (sameWaits_ite (sameWaits_rfl s) ⟨rfl, rfl, rfl⟩) (sameWaits_rfl s)
  case wakePending | testStopExpiry | entdaa | rstdaa | setnewda | getpid | getbcr | getdcr | getstatus | syncMark =>
    exact sameWaits_ite ⟨rfl, rfl, rfl⟩ (sameWaits_rfl s)
  case wakeCountsRead | testStop | configRequest | renewalDue | healthMessage | readRefresh =>
    exact sameWaits_ite (sameWaits_rfl s) ⟨rfl, rfl, rfl⟩

/- ### What a command of the queue can do -/

/-- A packet's row settles its fetch, or leaves the state as it is. -/
theorem fetchRow_settles_or_same (op : Op) (opc : Nat) (p : Packet) (s : State) :
    (∃ u, fetchRow op opc p s = settle u) ∨ fetchRow op opc p s = s := by
  cases h : canFetch s p.ring with
  | true => exact .inl ⟨_, fetchRow_of_canFetch h⟩
  | false => exact .inr (fetchRow_of_cannotFetch h)

section
variable {o : Host.Outcome State Fault Refusal} {f : State → State} {s t u : State}

theorem settles_of_next (ho : o = .next (settle u)) (h : o = .next t) : ∃ u, t = settle u :=
  ⟨u, Host.Outcome.next.inj (h.symm.trans ho)⟩

theorem settles_of_during (ho : o = .next (during f s)) (h : o = .next t) : ∃ u, t = settle u :=
  settles_of_next (u := f (sweep s)) ho h

/-- An event whose ends rank before the deadlines of its tick settles twice. -/
theorem settles_of_duringEnd (ho : o = .next (duringEnd f s)) (h : o = .next t) : ∃ u, t = settle u := by
  rw [duringEnd, settleLate] at ho
  exact settles_of_next ho h

end

/-- A row that is no packet's and has no direct effect settles what it did, or leaves commands, semaphores and rings alone. -/
theorem exec_event_settles_or_sameWaits {i : Instr} {s t : State} (hrow : packetRow i = none) (hdirect : directEffect i = none)
    (h : exec i s = .next t) : (∃ u, t = settle u) ∨ SameWaits t s := by
  cases i
  case badOpcode opc p =>
    cases hd : definedOpcodes.contains opc.toNat with
    | true =>
      rw [exec_badOpcode_of_defined p s hd] at h
      cases h
      exact .inr (sameWaits_rfl s)
    | false =>
      rw [packetRow_badOpcode p hd] at hrow
      cases hrow
  case notBeforeReached id =>
    have hnb : exec (.notBeforeReached id) s = .next (if nbReached s id then during (fun s => s) s else s) := rfl
    rw [hnb] at h
    cases h
    split
    · exact .inl ⟨_, rfl⟩
    · exact .inr (sameWaits_rfl s)
  case thermalCap temp =>
    have hcap : exec (.thermalCap temp) s =
      if s.boot.inReset then .next s else if junctionOk s temp then .next (thermalCap temp s) else .fault .junctionOutOfRange := rfl
    rw [hcap] at h
    split at h
    · cases h
      exact .inr (sameWaits_rfl s)
    · split at h
      · cases h
        exact .inr ⟨rfl, rfl, rfl⟩
      · cases h
  case controlBlock | slotHeader | peerAbsent => exact .inl (settles_of_duringEnd rfl h)
  case deadlinePassed => exact .inl (settles_of_next rfl h)
  all_goals cases hrow
  all_goals cases hdirect
  all_goals exact .inl (settles_of_during rfl h)

/-- Whatever command is at the front of the queue: it settles what it did, or leaves commands, semaphores and rings alone. -/
theorem exec_settles_or_sameWaits {i : Instr} {s t : State} (h : exec i s = .next t) : (∃ u, t = settle u) ∨ SameWaits t s := by
  cases hrow : packetRow i with
  | some row =>
    obtain ⟨op, opc, p⟩ := row
    rw [exec_packetRow s hrow] at h
    cases h
    refine (fetchRow_settles_or_same op opc p s).imp_right fun hsame => ?_
    rw [hsame]
    exact sameWaits_rfl s
  | none =>
    cases hdirect : directEffect i with
    | some f =>
      rw [exec_directEffect s hdirect] at h
      cases h
      exact .inr (directEffect_sameWaits s hdirect)
    | none => exact exec_event_settles_or_sameWaits hrow hdirect h

theorem stbTick_boosts {s : State} (h : BoostsSettled s) : BoostsSettled (stbTick s) := by
  cases hr : s.boot.inReset with
  | true => rwa [stbTick_of_inReset hr]
  | false =>
    rw [stbTick_of_running hr]
    exact settle_boosts _

/-- Settles O58: an idle step is a tick, and a command of the queue settles what it did, which sets the boosts, or leaves alone what they
depend on. -/
theorem everyStepKeepsBoosts : Obligations.EveryStepKeepsBoosts := by
  unfold Obligations.EveryStepKeepsBoosts
  intro s t h hstep
  cases hq : s.pending with
  | nil =>
    rw [step_of_idle hq] at hstep
    cases hstep
    exact stbTick_boosts h
  | cons i rest =>
    rw [step_of_front hq] at hstep
    obtain ⟨u, rfl⟩ | hw := exec_settles_or_sameWaits hstep
    · exact settle_boosts u
    · exact boosts_of_sameWaits hw (boosts_kept h rfl rfl rfl)

end Sys2Proof.Machine
end

section
/-! SUPPORT. `SEM_CREATE`, `SEM_SIGNAL` and `SEM_WAIT` (11 R266, R267): what each does with the owner, the count and the number that it names, and
the statement that these settle. -/

namespace Sys2Proof.Machine

section
variable {s : State} {c : Cmd}

theorem runCmd_semCreate (h : c.op = .semCreate) : runCmd c s = runSemCreate c s := by
  unfold runCmd
  rw [h]

theorem runCmd_semSignal (h : c.op = .semSignal) : runCmd c s = runSemSignal c s := by
  unfold runCmd
  rw [h]

theorem runCmd_semWait (h : c.op = .semWait) : runCmd c s = runSemWait c s := by
  unfold runCmd
  rw [h]

end

section
variable {p : Packet} {s w t : State} {c : Cmd}

theorem exec_semCreate_of_start (h : startOf .semCreate 0x12 p s = some (c, w)) (hrun : runSemCreate c w = t) :
    exec (.semCreate p) s = .next (ensuing t) :=
  exec_start rfl h (fun ho => (runCmd_semCreate ho).trans hrun)

theorem exec_semSignal_of_start (h : startOf .semSignal 0x13 p s = some (c, w)) (hrun : runSemSignal c w = t) :
    exec (.semSignal p) s = .next (ensuing t) :=
  exec_start rfl h (fun ho => (runCmd_semSignal ho).trans hrun)

theorem exec_semWait_of_start (h : startOf .semWait 0x14 p s = some (c, w)) (hrun : runSemWait c w = t) :
    exec (.semWait p) s = .next (ensuing t) :=
  exec_start rfl h (fun ho => (runCmd_semWait ho).trans hrun)

end

/- ### SEM_CREATE (11 R266) -/

/-- The semaphore of number `n` that a `SEM_CREATE` asks for, with the owners that it names. -/
def askedSem (s : State) (c : Cmd) (n : Nat) : Sem :=
  { num := n, fn := c.fn, session := sessionOf s c.fn, count := BitVec.ofNat 32 (arg c 28 4),
    ownerCtx := if (arg c 32 4).testBit 31 then some (arg c 32 4 % 2 ^ 20) else none,
    ownerRing := if arg c 36 2 = 0xFFFF then none else some (arg c 36 2) }

/-- The owners that a `SEM_CREATE` names are there: a context of the tenant and a ring of the session. -/
def OwnersLive (s : State) (c : Cmd) : Prop :=
  ((arg c 32 4).testBit 31 = true → contextExists s c.fn (arg c 32 4 % 2 ^ 20) = true)
    ∧ (arg c 36 2 ≠ 0xFFFF → sameSession s c (arg c 36 2) = true)

/-- With its owners there and a number free, the tenant's share decides whether a semaphore is made. -/
theorem runSemCreate_of_owners {s : State} {c : Cmd} {n : Nat} (ha : arg c 24 1 = 0) (ho : OwnersLive s c)
    (hn : lowestFree (s.work.sems.map (·.num)) 1 65535 = some n) :
    runSemCreate c s =
      if semShare s c.fn ≤ (s.work.sems.filter (fun x => x.fn == c.fn)).length then complete s c .quota
      else complete { s with work := { s.work with sems := s.work.sems ++ [askedSem s c n] } } c .ok (natLe 2 n) := by
  obtain ⟨hctx, hring⟩ := ho
  have hlive : ((!(arg c 32 4).testBit 31 || contextExists s c.fn (arg c 32 4 % 2 ^ 20))
      && (arg c 36 2 == 0xFFFF || sameSession s c (arg c 36 2))) = true := by
    rw [Bool.and_eq_true, Bool.or_eq_true, Bool.or_eq_true, Bool.not_eq_true', beq_iff_eq]
    exact ⟨(Bool.eq_false_or_eq_true _).symm.imp_right hctx, or_iff_not_imp_left.mpr hring⟩
  unfold runSemCreate
  dsimp only
  rw [if_neg (by omega), if_neg (by simp only [hlive]; decide), hn]
  rfl

theorem runSemCreate_of_room {s : State} {c : Cmd} {n : Nat} {x : Sem} (ha : arg c 24 1 = 0) (ho : OwnersLive s c)
    (hn : lowestFree (s.work.sems.map (·.num)) 1 65535 = some n)
    (hroom : (s.work.sems.filter (fun x => x.fn == c.fn)).length < semShare s c.fn) (hx : x = askedSem s c n) :
    runSemCreate c s = complete { s with work := { s.work with sems := s.work.sems ++ [x] } } c .ok (natLe 2 n) := by
  rw [runSemCreate_of_owners ha ho hn, if_neg (Nat.not_le.mpr hroom), hx]

section
variable {s : State} {c : Cmd} (ha : arg c 24 1 = 1)
include ha

theorem runSemCreate_of_destroyed {x : Sem} {y : State} (hx : semOf s (arg c 26 2) = some x) (hfn : x.fn = c.fn)
    (hy : y = endAll s ((semWaiters s x.num).map (·.id)) .cancelled) :
    runSemCreate c s =
      complete { y with work := { y.work with sems := y.work.sems.filter (fun z => z.num != x.num) } } c .ok (natLe 2 x.num) := by
  subst hy
  unfold runSemCreate
  rw [if_pos ha, hx]
  exact if_pos hfn

theorem runSemCreate_of_unknown (hx : semOf s (arg c 26 2) = none) : runSemCreate c s = complete s c .badParam := by
  unfold runSemCreate
  rw [if_pos ha, hx]

end

/- ### SEM_SIGNAL and SEM_WAIT (11 R267) -/

section
variable {s : State} {c : Cmd} {x : Sem} (hx : semNamed s c = some x)
include hx

theorem runSemSignal_of_room {y : State} (hv : x.count.toNat + arg c 26 2 ≤ 0xFFFFFFFF)
    (hy : y = setSem s { x with count := BitVec.ofNat 32 (x.count.toNat + arg c 26 2) }) :
    runSemSignal c s = complete ((semWaiters y x.num).foldl (fun z d => setCmd z { d with aux := 0 }) y) c .ok
      (natLe 4 (x.count.toNat + arg c 26 2)) := by
  subst hy
  unfold runSemSignal
  rw [hx]
  exact if_neg (Nat.not_lt.mpr hv)

theorem runSemSignal_of_overflow (hv : 0xFFFFFFFF < x.count.toNat + arg c 26 2) : runSemSignal c s = complete s c .badParam := by
  unfold runSemSignal
  rw [hx]
  exact if_pos hv

theorem runSemWait_of_named : runSemWait c s = setCmd s { c with phase := .parked .sem, aux := 1 } := by
  unfold runSemWait
  rw [hx]

end

section
variable {s : State} {c : Cmd} (hx : semNamed s c = none)
include hx

theorem runSemSignal_of_unknown : runSemSignal c s = complete s c .badParam := by
  unfold runSemSignal
  rw [hx]

theorem runSemWait_of_unknown : runSemWait c s = complete s c .badParam := by
  unfold runSemWait
  rw [hx]

end

/-- Settles O12: each row is the body of its command in the state of the start; a creation is split on the owners that it names, and a wait
whose turn has come goes on at once. -/
theorem semaphoreCommandsComplete : Obligations.SemaphoreCommandsComplete := by
  unfold Obligations.SemaphoreCommandsComplete
  refine ⟨?bothOwners, ?ownerCtx, ?ownerRing, ?noOwner, ?quota, ?destroy, ?signal, ?overflow, ?wait, ?waitGoesOn, ?destroyUnknown,
    ?signalUnknown, ?waitUnknown⟩
  case bothOwners =>
    rintro p s w c n _ _ x h ha rfl rfl hbit hctx hne hring hn hroom hx
    exact exec_semCreate_of_start h
      (runSemCreate_of_room ha ⟨fun _ => hctx, fun _ => hring⟩ hn hroom (by rw [hx, askedSem, if_pos hbit, if_neg hne]))
  case ownerCtx =>
    rintro p s w c n _ x h ha rfl hnone hbit hctx hn hroom hx
    exact exec_semCreate_of_start h
      (runSemCreate_of_room ha ⟨fun _ => hctx, fun hne => absurd hnone hne⟩ hn hroom (by rw [hx, askedSem, if_pos hbit, if_pos hnone]))
  case ownerRing =>
    rintro p s w c n _ x h ha rfl hbit hne hring hn hroom hx
    exact exec_semCreate_of_start h
      (runSemCreate_of_room ha ⟨by simp [hbit], fun _ => hring⟩ hn hroom (by rw [hx, askedSem, if_neg (by simp [hbit]), if_neg hne]))
  case noOwner =>
    intro p s w c n x h ha hbit hnone hn hroom hx
    exact exec_semCreate_of_start h
      (runSemCreate_of_room ha ⟨by simp [hbit], fun hne => absurd hnone hne⟩ hn hroom
        (by rw [hx, askedSem, if_neg (by simp [hbit]), if_pos hnone]))
  case quota =>
    intro p s w c n h ha hbit hnone hn hfull
    exact exec_semCreate_of_start h
      ((runSemCreate_of_owners ha ⟨by simp [hbit], fun hne => absurd hnone hne⟩ hn).trans (if_pos hfull))
  case destroy =>
    intro p s w c x y h ha hx hfn hy
    exact exec_semCreate_of_start h (runSemCreate_of_destroyed ha hx hfn hy)
  case signal =>
    intro p s w c x y h hx hv hy
    exact exec_semSignal_of_start h (runSemSignal_of_room hx hv hy)
  case overflow =>
    intro p s w c x h hx hv
    exact exec_semSignal_of_start h (runSemSignal_of_overflow hx hv)
  case wait =>
    intro p s w c x h hx
    exact exec_semWait_of_start h (runSemWait_of_named hx)
  case waitGoesOn =>
    intro p s w c x y d v h hx hd hgo hy hfirst hcount
    have hop : d.op = .semWait := by rw [hd, startOf_op h]
    have hresume := (resumeCmd_semWait (s := v) hop).trans ((resumeSemWait_of_named hy).trans (if_pos ⟨hfirst, hcount⟩))
    rw [← ensuing_goesOn hgo hresume]
    exact exec_semWait_of_start h (hd ▸ runSemWait_of_named hx)
  case destroyUnknown =>
    intro p s w c h ha hx
    exact exec_semCreate_of_start h (runSemCreate_of_unknown ha hx)
  case signalUnknown =>
    intro p s w c h hx
    exact exec_semSignal_of_start h (runSemSignal_of_unknown hx)
  case waitUnknown =>
    intro p s w c h hx
    exact exec_semWait_of_start h (runSemWait_of_unknown hx)

end Sys2Proof.Machine
end

section
/-! SUPPORT. `MODEL_LOAD`, `MODEL_PIN`, `MODEL_EVICT` and `MODEL_INFO` (11 R271 to R274, R446): what each does with the model that it names, as
its action, the residency and the pins decide, and the statements that these settle. -/

namespace Sys2Proof.Machine

section
variable {s : State} {c : Cmd}

theorem runCmd_modelLoad (h : c.op = .modelLoad) : runCmd c s = runModelLoad c s := by
  unfold runCmd
  rw [h]

theorem runCmd_modelPin (h : c.op = .modelPin) : runCmd c s = runModelPin c s := by
  unfold runCmd
  rw [h]

theorem runCmd_modelEvict (h : c.op = .modelEvict) : runCmd c s = runModelEvict c s := by
  unfold runCmd
  rw [h]

theorem runCmd_modelInfo (h : c.op = .modelInfo) : runCmd c s = runModelInfo c s := by
  unfold runCmd
  rw [h]

end

section
variable {p : Packet} {s w t : State} {c : Cmd}

theorem exec_modelLoad_of_start (h : startOf .modelLoad 0x30 p s = some (c, w)) (hrun : runModelLoad c w = t) :
    exec (.modelLoad p) s = .next (ensuing t) :=
  exec_start rfl h (fun ho => (runCmd_modelLoad ho).trans hrun)

theorem exec_modelPin_of_start (h : startOf .modelPin 0x31 p s = some (c, w)) (hrun : runModelPin c w = t) :
    exec (.modelPin p) s = .next (ensuing t) :=
  exec_start rfl h (fun ho => (runCmd_modelPin ho).trans hrun)

theorem exec_modelEvict_of_start (h : startOf .modelEvict 0x32 p s = some (c, w)) (hrun : runModelEvict c w = t) :
    exec (.modelEvict p) s = .next (ensuing t) :=
  exec_start rfl h (fun ho => (runCmd_modelEvict ho).trans hrun)

theorem exec_modelInfo_of_start (h : startOf .modelInfo 0x33 p s = some (c, w)) (hrun : runModelInfo c w = t) :
    exec (.modelInfo p) s = .next (ensuing t) :=
  exec_start rfl h (fun ho => (runCmd_modelInfo ho).trans hrun)

end

/- ### Residencies (11 R271, R272) -/

section
variable {s : State} {c : Cmd} {m : Model}

theorem loadResident_of_resident (hr : m.resident.isSome = true) :
    loadResident c m s = complete s { c with aux := m.id, res := loadResult m } .ok (loadResult m) :=
  if_pos hr

variable (hr : m.resident = none)
include hr

theorem loadResident_of_started {r : State × Bool} (hs : startResidency s m = some r) :
    loadResident c m s =
      park r.1 ({ c with aux := m.id, res := loadResult m }.warns (r.2 || m.wasEvicted) warnEvicted) .residency := by
  unfold loadResident
  dsimp only
  rw [if_neg (by simp [hr]), hs]

theorem loadResident_of_full (hs : startResidency s m = none) :
    loadResident c m s = complete s { c with aux := m.id, res := loadResult m } .quota := by
  unfold loadResident
  dsimp only
  rw [if_neg (by simp [hr]), hs]

end

/- ### MODEL_LOAD (11 R274) -/

/-- The identifier that a `MODEL_LOAD` installs under: the one that it names, or the lowest that the tenant has free. -/
def installId (s : State) (c : Cmd) : Nat :=
  if arg c 26 2 = 0 then (lowestFree ((s.work.models.filter (·.fn == c.fn)).map (·.id)) 1 65535).getD 0 else arg c 26 2

/-- Once its places are found, an install writes the image and the weights there, and completes, or with `ACTION` 2 goes on to the
residency. -/
theorem installModel_of_placed {s x y z : State} {c : Cmd} {id : Nat} {pkg : List Byte} {m : Model} {e : Bool} {bases : List Nat}
    (hm : m = modelFrom c.fn id pkg)
    (hx : placeAll (fun s n => placeObject s c.fn 3 0 n 22 id false) s m.pieces = some (x, e))
    (hbases : bases = (x.store.allocs.filter (fun a => a.fn == c.fn && a.tier == 3 && a.obj == 22 && a.owner == id)).map (·.base))
    (hy : y = (bases.zip (m.image :: (weightDescs pkg).map (fun d => bytesAt pkg d.off d.extent))).foldl
      (fun s q => tierWrite s 3 q.1 q.2) x)
    (hz : z = { y with work := { y.work with models := y.work.models ++ [m] } }) :
    installModel c id pkg s = if arg c 24 1 = 2 then loadResident c m z else complete z c .ok (loadResult m) := by
  -- Unfolded without its arguments: applied, the kernel would run `placeAll` to compare the two sides.
  generalize hf : installModel = install
  delta installModel at hf
  subst hf hm hz hy hbases
  simp only [hx]

/-- A `MODEL_LOAD` that installs, a free identifier and a readable and valid package: the package is installed. -/
theorem runModelLoad_of_package {s : State} {c : Cmd} {id : Nat} {pkg : List Byte} (ha : arg c 24 1 ≠ 1) (hid : id = installId s c)
    (hne : id ≠ 0) (hfree : modelOf s c.fn id = none) (hread : readSrc s c (arg c 28 8) (arg c 36 8) = (pkg, none))
    (hok : packageOk pkg = true) : runModelLoad c s = installModel c id pkg s := by
  subst hid
  unfold installId at hne hfree ⊢
  unfold runModelLoad
  dsimp only
  rw [if_neg ha, if_neg hne, hfree, hread]
  exact (if_neg (by simp)).trans (if_pos hok)

theorem runModelLoad_of_installed {s : State} {c : Cmd} {m : Model} (ha : arg c 24 1 = 1) (hid : arg c 26 2 ≠ 0)
    (hm : modelOf s c.fn (arg c 26 2) = some m) : runModelLoad c s = loadResident c m s := by
  unfold runModelLoad
  dsimp only
  rw [if_neg hid, if_pos ha, hm]

/- ### MODEL_PIN (11 R273) -/

section
variable {s : State} {c : Cmd} {m : Model} (hm : modelOf s c.fn (arg c 24 2) = some m)
include hm

theorem runModelPin_of_dropped (hl : arg c 26 1 = 0) :
    runModelPin c s = complete (dropAllocs (setModel s { m with pin1 := false, pin2 := 0 }) c.fn [21] m.id) c .ok := by
  unfold runModelPin
  rw [hm]
  exact if_pos hl

variable (hl : arg c 26 1 ≠ 0)
include hl

theorem runModelPin_of_resident (hr : m.resident.isSome = true) : runModelPin c s = pinNow c m s := by
  unfold runModelPin
  rw [hm]
  exact (if_neg hl).trans (if_pos hr)

theorem runModelPin_of_absent (hr : m.resident = none) : runModelPin c s = awaitModel s c m 0 := by
  unfold runModelPin
  rw [hm]
  exact (if_neg hl).trans (if_neg (by simp [hr]))

end

theorem pinNow_of_pool {s : State} {c : Cmd} (m : Model) (hl : arg c 26 1 = 1) :
    pinNow c m s = complete (setModel s { m with pin1 := true }) c .ok :=
  if_pos hl

theorem pinNow_of_copied {s : State} {c : Cmd} {m : Model} {r : State × Bool} (hl : arg c 26 1 = 2)
    (hr : pinCopies (dropAllocs s c.fn [21] m.id) m (maskList (arg c 27 1)) = some r) :
    pinNow c m s = complete (setModel r.1 { m with pin2 := BitVec.ofNat 4 (arg c 27 1) }) c .ok := by
  unfold pinNow
  dsimp only
  rw [if_neg (by omega), hr]

/- ### MODEL_EVICT (11 R274) -/

section
variable {s : State} {c : Cmd} {m : Model}

theorem evictNow_of_kept (ha : arg c 26 1 = 0) :
    evictNow c m s = complete (if m.resident.isSome then evictModel s m else s) c .ok := by
  unfold evictNow
  dsimp only
  rw [if_pos ha]

theorem evictNow_of_deleted (ha : arg c 26 1 = 1) :
    evictNow c m s = complete (deleteModel (if m.resident.isSome then evictModel s m else s) m) c .ok := by
  unfold evictNow
  dsimp only
  rw [if_neg (by omega)]

variable (hm : modelOf s c.fn (arg c 24 2) = some m)
include hm

theorem runModelEvict_of_pinned (hp : pinned m = true) : runModelEvict c s = complete s c .busyPinned := by
  unfold runModelEvict tryEvict
  rw [hm]
  dsimp only
  rw [if_pos hp, Option.getD_some]

variable (hp : pinned m = false)
include hp

theorem runModelEvict_of_bound (ha : arg c 26 1 = 1) (hb : modelBound s c.fn m.id = true) :
    runModelEvict c s = complete s c .badParam := by
  unfold runModelEvict tryEvict
  rw [hm]
  dsimp only
  rw [if_neg (by simp [hp]), if_pos ⟨ha, hb⟩, Option.getD_some]

/-- An unpinned model that its eviction may take out goes at once, unless a step or a residency uses it. -/
theorem runModelEvict_of_unpinned (hb : arg c 26 1 = 0 ∨ modelBound s c.fn m.id = false) :
    runModelEvict c s = if (stepOf s c.fn m.id).isSome || m.loading then park s c .step else evictNow c m s := by
  have hfree : ¬(arg c 26 1 = 1 ∧ modelBound s c.fn m.id = true) := by
    rintro ⟨ha, hbound⟩
    obtain h | h := hb
    · omega
    · simp [h] at hbound
  unfold runModelEvict tryEvict
  rw [hm]
  dsimp only
  rw [if_neg (by simp [hp]), if_neg hfree]
  split <;> rfl

theorem runModelEvict_of_idle (hb : arg c 26 1 = 0 ∨ modelBound s c.fn m.id = false) (hs : stepOf s c.fn m.id = none)
    (hl : m.loading = false) : runModelEvict c s = evictNow c m s := by
  rw [runModelEvict_of_unpinned hm hp hb, if_neg (by simp [hs, hl])]

end

/-- Settles O15: each row is the body of its command in the state of the start; a load ends in an install or in a residency, a pin and an
eviction are split on the model's residency. -/
theorem modelCommandsComplete : Obligations.ModelCommandsComplete := by
  unfold Obligations.ModelCommandsComplete
  refine ⟨?install, ?installAndLoad, ?loaded, ?loads, ?loadFull, ?unpin, ?pinPool, ?pinCopies, ?pinWaits, ?evict, ?evictAbsent, ?delete,
    ?deleteAbsent, ?deleteBound, ?evictPinned, ?evictWaits⟩
  case install =>
    intro p s w x y z c id pkg m e bases h ha hid hne hfree hread hok hm hx hbases hy hz
    exact exec_modelLoad_of_start h ((runModelLoad_of_package (by omega) hid hne hfree hread hok).trans
      ((installModel_of_placed hm hx hbases hy hz).trans (if_neg (by omega))))
  case installAndLoad =>
    intro p s w x y z c id pkg m e bases r h ha hid hne hfree hread hok hm hx hbases hy hz hres hr
    exact exec_modelLoad_of_start h ((runModelLoad_of_package (by omega) hid hne hfree hread hok).trans
      ((installModel_of_placed hm hx hbases hy hz).trans ((if_pos ha).trans (loadResident_of_started hres hr))))
  case loaded =>
    intro p s w c m h ha hid hm hr
    exact exec_modelLoad_of_start h ((runModelLoad_of_installed ha hid hm).trans (loadResident_of_resident hr))
  case loads =>
    intro p s w c m r h ha hid hm hres hr
    exact exec_modelLoad_of_start h ((runModelLoad_of_installed ha hid hm).trans (loadResident_of_started hres hr))
  case loadFull =>
    intro p s w c m h ha hid hm hres hr
    exact exec_modelLoad_of_start h ((runModelLoad_of_installed ha hid hm).trans (loadResident_of_full hres hr))
  case unpin =>
    intro p s w c m h hm hl
    exact exec_modelPin_of_start h (runModelPin_of_dropped hm hl)
  case pinPool =>
    intro p s w c m h hm hl hr
    exact exec_modelPin_of_start h ((runModelPin_of_resident hm (by omega) hr).trans (pinNow_of_pool m hl))
  case pinCopies =>
    intro p s w c m r h hm hl hr hcopies
    exact exec_modelPin_of_start h ((runModelPin_of_resident hm (by omega) hr).trans (pinNow_of_copied hl hcopies))
  case pinWaits =>
    intro p s w c m r h hm hl hres hr
    exact exec_modelPin_of_start h ((runModelPin_of_absent hm hl hres).trans (awaitModel_of_started 0 hr))
  case evict =>
    intro p s w c m h hm hp ha hs hl hr
    exact exec_modelEvict_of_start h
      ((runModelEvict_of_idle hm hp (.inl ha) hs hl).trans ((evictNow_of_kept ha).trans (by rw [if_pos hr])))
  case evictAbsent =>
    intro p s w c m h hm hp ha hs hl hr
    exact exec_modelEvict_of_start h
      ((runModelEvict_of_idle hm hp (.inl ha) hs hl).trans ((evictNow_of_kept ha).trans (by rw [if_neg (by simp [hr])])))
  case delete =>
    intro p s w c m h hm hp ha hb hs hl hr
    exact exec_modelEvict_of_start h
      ((runModelEvict_of_idle hm hp (.inr hb) hs hl).trans ((evictNow_of_deleted ha).trans (by rw [if_pos hr])))
  case deleteAbsent =>
    intro p s w c m h hm hp ha hb hs hl hr
    exact exec_modelEvict_of_start h
      ((runModelEvict_of_idle hm hp (.inr hb) hs hl).trans ((evictNow_of_deleted ha).trans (by rw [if_neg (by simp [hr])])))
  case deleteBound =>
    intro p s w c m h hm hp ha hb
    exact exec_modelEvict_of_start h (runModelEvict_of_bound hm hp ha hb)
  case evictPinned =>
    intro p s w c m h hm hp
    exact exec_modelEvict_of_start h (runModelEvict_of_pinned hm hp)
  case evictWaits =>
    intro p s w c m h hm hp ha hs
    exact exec_modelEvict_of_start h ((runModelEvict_of_unpinned hm hp (.inl ha)).trans (if_pos (by simp [hs])))

/- ### MODEL_INFO (11 R446; 05 Table 5.11) -/

section
variable {s : State} {c : Cmd}

theorem runModelInfo_of_absent (hm : modelOf s c.fn (arg c 24 2) = none) :
    runModelInfo c s =
      complete (if arg c 32 8 = 0 then s else writeDest s c (arg c 32 8) (zeroBytes 64)) c .ok (natLe 2 (arg c 24 2) ++ zeroBytes 10) := by
  unfold runModelInfo
  dsimp only
  rw [hm]

/-- The 64-byte record of an installed model. -/
def infoRecord (m : Model) : List Byte :=
  natLe 8 m.extent ++ natLe 2 (if m.pin2 = 0 then 0 else ceilDiv m.extent waySize) ++ zeroBytes 6 ++ natLe 32 m.imageDigest.toNat
    ++ zeroBytes 16

theorem runModelInfo_of_installed {m : Model} (hm : modelOf s c.fn (arg c 24 2) = some m) :
    runModelInfo c s =
      complete (if arg c 32 8 = 0 then s else writeDest s c (arg c 32 8) (infoRecord m)) c .ok (natLe 2 (arg c 24 2) ++
        [BitVec.ofNat 8 (1 + 2 * b2n m.resident.isSome + 4 * b2n m.pin1 + 8 * b2n (m.pin2 != 0)), 0] ++ natLe 8 m.lastUse) := by
  unfold runModelInfo
  dsimp only
  rw [hm]
  rfl

theorem paramsModelInfo_of_zero (hid : arg c 24 2 = 0) : paramsModelInfo c = false := by
  simp [paramsModelInfo, hid]

theorem paramsOk_modelInfo (ho : c.op = .modelInfo) : paramsOk s c = paramsModelInfo c := by
  unfold paramsOk
  rw [ho]

theorem unitAbsent_modelInfo (ho : c.op = .modelInfo) : unitAbsent s c = false := by
  unfold unitAbsent
  rw [ho]

/-- Past checks 2 to 6 and with a readable block, a packet whose parameters are wrong has the status of check 7. -/
theorem fetchStatus_of_paramsOk_false (hop : c.op ≠ .badOpcode) (hal : opAllowed s c.fn c.op = true) (hun : unitAbsent s c = false)
    (hse : sessionFree c.op = true ∨ c.session ≠ 0)
    (h5 : check5 c.fn c.op c.pkt c.pkt.body (expandedNb s c.pkt) (expandedDl s c.pkt) = true)
    (hd : ∀ d, expandedDl s c.pkt = some d → (ctrlStamp s : Int) ≤ d) (h7 : paramsOk s c = false) :
    fetchStatus s c none = some .badParam := by
  unfold fetchStatus
  rw [if_neg hop, if_neg (by simp [hal, hun]), if_neg (ne_true_of_eq_false (check4_holds hse)), if_neg (by simp [h5])]
  cases hdl : expandedDl s c.pkt with
  | none => simp [h7]
  | some d => simp [h7, hd d hdl]

end

/-- Settles O16: a `MODEL_INFO` is split on whether its identifier names an installed model; identifier 0 fails the check of the
parameters. -/
theorem modelInfoOfAbsentModel : Obligations.ModelInfoOfAbsentModel := by
  unfold Obligations.ModelInfoOfAbsentModel
  refine ⟨?absent, ?installed, ?zero⟩
  case absent =>
    intro p s w c h hm
    exact exec_modelInfo_of_start h (runModelInfo_of_absent hm)
  case installed =>
    intro p s w c m h hm
    exact exec_modelInfo_of_start h (runModelInfo_of_installed hm)
  case zero =>
    intro s c ho hal hse h5 hd hid
    exact fetchStatus_of_paramsOk_false (by simp [ho]) hal (unitAbsent_modelInfo ho) (.inr hse) h5 hd
      ((paramsOk_modelInfo ho).trans (paramsModelInfo_of_zero hid))

end Sys2Proof.Machine
end

section
/-! SUPPORT. `GRAPH_RUN`, `TRAIN_STEP` and `STEP_POLICY` (09 R231, R232; 11 R254, R258, R276, R277): the entry into the sequence table of a
command that agrees with its model, what each `ACTION` of a policy sets or reads, and the statement that these settle. -/

namespace Sys2Proof.Machine

section
variable {s : State} {c : Cmd}

theorem runCmd_graphRun (h : c.op = .graphRun) : runCmd c s = runGraphRun c s := by
  unfold runCmd
  rw [h]

theorem runCmd_trainStep (h : c.op = .trainStep) : runCmd c s = runTrainStep c s := by
  unfold runCmd
  rw [h]

theorem runCmd_stepPolicy (h : c.op = .stepPolicy) : runCmd c s = runStepPolicy c s := by
  unfold runCmd
  rw [h]

end

section
variable {p : Packet} {s w t : State} {c : Cmd}

theorem exec_graphRun_of_start (h : startOf .graphRun 0x50 p s = some (c, w)) (hrun : runGraphRun c w = t) :
    exec (.graphRun p) s = .next (ensuing t) :=
  exec_start rfl h (fun ho => (runCmd_graphRun ho).trans hrun)

theorem exec_trainStep_of_start (h : startOf .trainStep 0x53 p s = some (c, w)) (hrun : runTrainStep c w = t) :
    exec (.trainStep p) s = .next (ensuing t) :=
  exec_start rfl h (fun ho => (runCmd_trainStep ho).trans hrun)

theorem exec_stepPolicy_of_start (h : startOf .stepPolicy 0x52 p s = some (c, w)) (hrun : runStepPolicy c w = t) :
    exec (.stepPolicy p) s = .next (ensuing t) :=
  exec_start rfl h (fun ho => (runCmd_stepPolicy ho).trans hrun)

end

/- ### GRAPH_RUN (11 R254, R258, R276) -/

section
variable {s : State} {c : Cmd} {m : Model} (hm : modelOf s c.fn (blk c 2 2) = some m) (hkv : m.kv = none) (hrec : m.recurrent = false)
  (ha : graphAgrees s c m = true)
include hm hkv hrec ha

/-- Where it agrees with its model, the coppices that are usable decide what a `GRAPH_RUN` does. -/
theorem runGraphRun_of_agreed {cops : List Nat} (hcops : cops = stepCoppices s c.fn m.id (blk c 4 1)) :
    runGraphRun c s =
      if cops.isEmpty then complete s c .cancelled
      else if decide (cops.length < m.minCoppices) || cops.any (fun k => decide (activeTiles s k < m.minTiles)) then complete s c .badParam
      else enterTable (matchWatch s { c with res := zeroBytes 12 }) { c with res := zeroBytes 12 } 3 0 c.cls m.id := by
  subst hcops
  unfold runGraphRun
  rw [hm]
  exact if_neg (by simp [hkv, hrec, ha])

theorem runGraphRun_of_coppices {cops : List Nat} {d : Cmd} (hcops : cops = stepCoppices s c.fn m.id (blk c 4 1)) (hne : cops ≠ [])
    (hmin : m.minCoppices ≤ cops.length) (htiles : cops.any (fun k => decide (activeTiles s k < m.minTiles)) = false)
    (hd : d = { c with res := zeroBytes 12 }) : runGraphRun c s = enterTable (matchWatch s d) d 3 0 c.cls m.id := by
  rw [runGraphRun_of_agreed hm hkv hrec ha hcops, if_neg (by simp [hne]), if_neg (by simp only [htiles, Nat.not_lt.mpr hmin]; decide), hd]

theorem runGraphRun_of_noCoppice (hnone : stepCoppices s c.fn m.id (blk c 4 1) = []) : runGraphRun c s = complete s c .cancelled := by
  rw [runGraphRun_of_agreed hm hkv hrec ha rfl, if_pos (by simp [hnone])]

end

/- ### TRAIN_STEP (09 R231, R232) -/

/-- The prefix of a `TRAIN_STEP` is a sequence of its base model, where it names one. -/
def PrefixFits (s : State) (c : Cmd) (m : Model) : Prop := ctxValid c.pkt = true → ∃ q, trainPrefix s c = some q ∧ q.model = m.id

/-- The state in which a `TRAIN_STEP` reads its prefix. -/
def readPrefix (s : State) (id : Nat) : Option Seqn → State
  | some q => addReader s q id
  | none => s

/-- A `TRAIN_STEP` that agrees with its base model, on a usable coppice and within the positions of a sequence, enters the sequence table. -/
theorem runTrainStep_of_agreed {s v : State} {c d : Cmd} {m a : Model} (hv : v = contextRead c s)
    (hr : rangesPoisoned v (contextRanges s c) = false) (hm : modelOf v c.fn (blk c 2 2) = some m) (ha : modelOf v c.fn (blk c 4 2) = some a)
    (hlen : m.training.length = 3)
    (hagree : [(0, 64), (1, 128), (2, 192)].all (fun x => agrees (descAt (m.training.getD x.1 []) 0) (descAt c.pkt.block x.2) none) = true)
    (hp : operandsPlaced v c = true) (hfit : PrefixFits v c m) (hroom : ((trainPrefix v c).map (·.length)).getD 0 + blk c 8 4 ≤ 65536)
    (hcops : stepCoppices v c.fn m.id (blk c 7 1) ≠ [])
    (hd : d = { c with res := zeroBytes 12, aux := ((trainPrefix v c).map (·.length)).getD 0 }) :
    runTrainStep c s = enterTable (matchWatch (readPrefix v c.id (trainPrefix v c)) d) d 3 0 c.cls m.id := by
  subst hv hd
  have hprefix : (!ctxValid c.pkt || ((trainPrefix (contextRead c s) c).map (fun q => q.model == m.id)).getD false) = true := by
    cases hc : ctxValid c.pkt with
    | false => rfl
    | true =>
      obtain ⟨q, hq, hmodel⟩ := hfit hc
      simp [hq, hmodel]
  unfold runTrainStep
  rw [withContext_of_readable _ hr]
  dsimp only
  rw [hm, ha]
  dsimp only
  rw [if_neg (by simp only [hlen, hagree, hp, hprefix]; decide), if_neg (Nat.not_lt.mpr hroom), if_neg (by simp [hcops])]
  rfl

/- ### STEP_POLICY (11 R277) -/

/-- A `STEP_POLICY` reads a context entry with `ACTION` 3 alone. -/
theorem withContext_stepPolicy {s : State} {c : Cmd} (f : State → State) (ho : c.op = .stepPolicy) (ha : arg c 24 1 ≠ 3) :
    withContext c s f = f s := by
  have hranges : contextRanges s c = [] := by
    unfold contextRanges
    dsimp only
    rw [ho]
    exact if_neg ha
  have hread : contextRead c s = s := if_pos (by simp [hranges])
  have hclean : rangesPoisoned (contextRead c s) (contextRanges s c) = false := by rw [hranges]; rfl
  rw [withContext_of_readable f hclean, hread]

/-- The policy that a `STEP_POLICY` with `ACTION` 0 sets. -/
def askedStepPolicy (c : Cmd) : StepPolicy :=
  { fn := c.fn, model := arg c 26 2, period := arg c 28 4, phase := arg c 32 4, tokens := arg c 36 2, chunkMax := arg c 38 2,
    coppices := arg c 40 1, preempt := arg c 41 1, ageBoost := arg c 42 2 }

section
variable {s : State} {c : Cmd} (ho : c.op = .stepPolicy)
include ho

theorem runStepPolicy_of_set (hm : (modelOf s c.fn (arg c 26 2)).isSome = true) (ha : arg c 24 1 = 0) :
    runStepPolicy c s = complete { s with work := { s.work with
      policies := s.work.policies.filter (fun q => !(q.fn == c.fn && q.model == arg c 26 2)) ++ [askedStepPolicy c] } } c .ok := by
  unfold runStepPolicy
  rw [withContext_stepPolicy _ ho (by omega)]
  dsimp only
  rw [if_neg (fun h => by simp [Option.isNone_iff_eq_none.mp h.2] at hm), if_pos ha]
  rfl

theorem runStepPolicy_of_policyRead (hm : (modelOf s c.fn (arg c 26 2)).isSome = true) (ha : arg c 24 1 = 1) :
    runStepPolicy c s = complete (writeDest s c (arg c 56 8) (policyRecord (policyOf s c.fn (arg c 26 2)))) c .ok := by
  unfold runStepPolicy
  rw [withContext_stepPolicy _ ho (by omega)]
  dsimp only
  rw [if_neg (fun h => by simp [Option.isNone_iff_eq_none.mp h.2] at hm), if_neg (by omega), if_pos ha]

theorem runStepPolicy_of_slotRead (ha : arg c 24 1 = 2) :
    runStepPolicy c s =
      complete (writeDest s c (arg c 56 8) (slotRecord (s.work.slots.find? (fun x => x.num == arg c 44 2)))) c .ok := by
  unfold runStepPolicy
  rw [withContext_stepPolicy _ ho (by omega)]
  dsimp only
  rw [if_neg (by omega), if_neg (by omega), if_neg (by omega), if_pos ha]

end

theorem runStepPolicy_of_contextRead {s v : State} {c : Cmd} (ha : arg c 24 1 = 3) (hv : v = contextRead c s)
    (hr : rangesPoisoned v (contextRanges s c) = false) :
    runStepPolicy c s = complete (writeDest v c (arg c 56 8) (contextRecord v c.fn (arg c 48 4))) c .ok := by
  subst hv
  unfold runStepPolicy
  rw [withContext_of_readable _ hr]
  dsimp only
  rw [if_neg (by omega), if_neg (by omega), if_neg (by omega), if_neg (by omega)]

/-- Settles O19: each row is the body of its command in the state of the start; a `TRAIN_STEP` is split on its prefix, a `STEP_POLICY` on its
`ACTION`. -/
theorem stepCommandsStart : Obligations.StepCommandsStart := by
  unfold Obligations.StepCommandsStart
  refine ⟨?graph, ?graphCancelled, ?train, ?trainPrefixed, ?setPolicy, ?readPolicy, ?readSlot, ?readContext⟩
  case graph =>
    intro p s w c d m cops h hm hkv hrec ha hcops hne hmin htiles hd
    exact exec_graphRun_of_start h (runGraphRun_of_coppices hm hkv hrec ha hcops hne hmin htiles hd)
  case graphCancelled =>
    intro p s w c m h hm hkv hrec ha hnone
    exact exec_graphRun_of_start h (runGraphRun_of_noCoppice hm hkv hrec ha hnone)
  case train =>
    intro p s w v c d m a h hv hr hm ha hlen hagree hp hctx hcops hroom hd
    have hnone : trainPrefix v c = none := if_neg (by simp [hctx])
    have hrun := runTrainStep_of_agreed (d := d) hv hr hm ha hlen hagree hp (fun hc => by simp [hctx] at hc)
      (by rw [hnone, Option.map_none, Option.getD_none]; omega) hcops (by rw [hnone, hd]; rfl)
    rw [hnone] at hrun
    exact exec_trainStep_of_start h hrun
  case trainPrefixed =>
    intro p s w v c d m a q h hv hr hm ha hlen hagree hp hq hmodel hroom hcops hd
    have hrun := runTrainStep_of_agreed (d := d) hv hr hm ha hlen hagree hp (fun _ => ⟨q, hq, hmodel⟩)
      (by rwa [hq, Option.map_some, Option.getD_some]) hcops (by rw [hq, hd]; rfl)
    rw [hq] at hrun
    exact exec_trainStep_of_start h hrun
  case setPolicy =>
    intro p s w c h hm ha
    exact exec_stepPolicy_of_start h (runStepPolicy_of_set (startOf_op h) hm ha)
  case readPolicy =>
    intro p s w c h hm ha
    exact exec_stepPolicy_of_start h (runStepPolicy_of_policyRead (startOf_op h) hm ha)
  case readSlot =>
    intro p s w c h ha
    exact exec_stepPolicy_of_start h (runStepPolicy_of_slotRead (startOf_op h) ha)
  case readContext =>
    intro p s w v c h ha hv hr
    exact exec_stepPolicy_of_start h (runStepPolicy_of_contextRead ha hv hr)

end Sys2Proof.Machine
end

section
/-! SUPPORT. The memories of tiers 1 to 3 and their poison (12 R282, R289, R297, R303): what a write of a tier changes and what it leaves, which
lines a range marks, and the statement that these settle. -/

namespace Sys2Proof.Machine

/- ### The canonical form -/

theorem memoriesWf_iff (s : State) : memoriesWf s = true ↔
    memWf s.store.host = true ∧ memWf s.store.t0 = true ∧ memWf s.store.t1 = true ∧ memWf s.store.dram = true ∧ memWf s.store.nand = true := by
  simp only [memoriesWf, Bool.and_eq_true, and_assoc]

theorem memWf_tierMem {s : State} (h : memoriesWf s = true) (k : Nat) : memWf (tierMem s k) = true := by
  obtain ⟨hhost, -, ht1, hdram, hnand⟩ := (memoriesWf_iff s).mp h
  unfold tierMem
  split_ifs <;> assumption

/- ### The bytes that a write changes -/

section
variable (s : State) (off : Nat) (bs : List Byte)

theorem tierMem_tierWrite_same {tier : Nat} (ht : tier = 1 ∨ tier = 2 ∨ tier = 3) :
    tierMem (tierWrite s tier off bs) tier = memWriteN (tierMem s tier) off bs := by
  rcases ht with rfl | rfl | rfl <;> rfl

/-- A write leaves the memory of every other tier, and with it host memory, alone. -/
theorem tierMem_tierWrite_other {tier k : Nat} (ht : tier = 1 ∨ tier = 2 ∨ tier = 3) (hk : k ≠ tier) :
    tierMem (tierWrite s tier off bs) k = tierMem s k := by
  unfold tierMem
  rcases ht with rfl | rfl | rfl <;> simp only [if_neg hk] <;> rfl

theorem memoriesWf_tierWrite (tier : Nat) {s : State} (h : memoriesWf s = true) : memoriesWf (tierWrite s tier off bs) = true := by
  obtain ⟨hhost, ht0, ht1, hdram, hnand⟩ := (memoriesWf_iff s).mp h
  rw [memoriesWf_iff]
  unfold tierWrite
  dsimp only
  split_ifs
  · exact ⟨hhost, ht0, memWriteN_wf bs off ht1, hdram, hnand⟩
  · exact ⟨hhost, ht0, ht1, memWriteN_wf bs off hdram, hnand⟩
  · exact ⟨hhost, ht0, ht1, hdram, memWriteN_wf bs off hnand⟩

end

/- ### Poison (12 R297, R303) -/

theorem wholeUnits_iff (unit off len n : Nat) :
    wholeUnits unit off len n = true ↔ off ≤ unit * n ∧ unit * n + unit ≤ off + len := by
  simp only [wholeUnits, Bool.and_eq_true, decide_eq_true_eq, Nat.succ_mul, Nat.mul_comm n]

/-- Of the poisoned units those stay that a write does not cover whole. -/
theorem mem_filter_not_wholeUnits (unit off len l : Nat) (ps : List Nat) :
    l ∈ ps.filter (fun n => !wholeUnits unit off len n) ↔ l ∈ ps ∧ ¬(off ≤ unit * l ∧ unit * l + unit ≤ off + len) := by
  rw [List.mem_filter, Bool.not_eq_true', ← Bool.not_eq_true, wholeUnits_iff]

/-- The lines of a range are those that it meets. -/
theorem mem_linesOf_iff (off len l : Nat) : l ∈ linesOf off len 64 ↔ 64 * l < off + len ∧ off < 64 * l + 64 := by
  simp only [linesOf, ceilDiv, List.mem_map, List.mem_range]
  constructor
  · rintro ⟨i, hi, rfl⟩
    omega
  · intro h
    exact ⟨l - off / 64, by omega, by omega⟩

theorem poisonRange_poison (s : State) (off len : Nat) : (poisonRange s off len).store.poison =
    s.store.poison ++ (linesOf off len 64).filter (fun l => !s.store.poison.contains l) := rfl

theorem mem_poisonRange_iff (s : State) (off len l : Nat) :
    l ∈ (poisonRange s off len).store.poison ↔ l ∈ s.store.poison ∨ 64 * l < off + len ∧ off < 64 * l + 64 := by
  rw [poisonRange_poison, List.mem_append, List.mem_filter, mem_linesOf_iff, Bool.not_eq_true', List.contains_eq_mem, decide_eq_false_iff_not]
  tauto

/-- Settles O57: the bytes by the laws of the sparse memory that the tier names, the poison by the units that lie whole in the write or meet
the range. -/
theorem tierMemories : Obligations.TierMemories := by
  unfold Obligations.TierMemories
  refine ⟨?readBack, ?otherPlaces, fun s tier k off bs ht _ hk => tierMem_tierWrite_other s off bs ht hk,
    fun _ tier off bs h => memoriesWf_tierWrite off bs tier h, fun s off l bs => mem_filter_not_wholeUnits 64 off bs.length l s.store.poison,
    fun s off l bs => mem_filter_not_wholeUnits 64 off bs.length l s.store.poison1,
    fun s off l bs => mem_filter_not_wholeUnits 4096 off bs.length l s.store.poisonUnits, fun s off len l _ => mem_poisonRange_iff s off len l⟩
  case readBack =>
    intro s tier off bs h ht
    rw [tierRead, tierMem_tierWrite_same s off bs ht, memReadN_memWriteN bs (memWf_tierMem h tier)]
  case otherPlaces =>
    intro s tier off a bs h ht ha
    rw [tierMem_tierWrite_same s off bs ht, memRead_memWriteN_other bs (memWf_tierMem h tier) ha]

end Sys2Proof.Machine
end

section
/-! SUPPORT. `ALLOC`, `FREE`, `COPY`, `PLACE_HINT` and `QUOTA_SET` (12 R283 to R289): what each does once its operands are the tenant's, a `COPY`
unit by unit, and the statement that these settle. -/

namespace Sys2Proof.Machine

section
variable {s : State} {c : Cmd}

theorem runCmd_alloc (h : c.op = .alloc) : runCmd c s = runAlloc c s := by
  unfold runCmd
  rw [h]

theorem runCmd_free (h : c.op = .free) : runCmd c s = runFree c s := by
  unfold runCmd
  rw [h]

theorem resumeCmd_free (h : c.op = .free) : resumeCmd c s = resumeFree c s := by
  unfold resumeCmd
  rw [h]

theorem runCmd_copy (h : c.op = .copy) : runCmd c s = runCopy c s := by
  unfold runCmd
  rw [h]

theorem runCmd_placeHint (h : c.op = .placeHint) : runCmd c s = runPlaceHint c s := by
  unfold runCmd
  rw [h]

theorem runCmd_quotaSet (h : c.op = .quotaSet) : runCmd c s = runQuotaSet c s := by
  unfold runCmd
  rw [h]

end

section
variable {p : Packet} {s w t : State} {c : Cmd}

theorem exec_alloc_of_start (h : startOf .alloc 0x20 p s = some (c, w)) (hrun : runAlloc c w = t) :
    exec (.alloc p) s = .next (ensuing t) :=
  exec_start rfl h (fun ho => (runCmd_alloc ho).trans hrun)

theorem exec_free_of_start (h : startOf .free 0x21 p s = some (c, w)) (hrun : runFree c w = t) :
    exec (.free p) s = .next (ensuing t) :=
  exec_start rfl h (fun ho => (runCmd_free ho).trans hrun)

theorem exec_copy_of_start (h : startOf .copy 0x22 p s = some (c, w)) (hrun : runCopy c w = t) :
    exec (.copy p) s = .next (ensuing t) :=
  exec_start rfl h (fun ho => (runCmd_copy ho).trans hrun)

theorem exec_placeHint_of_start (h : startOf .placeHint 0x23 p s = some (c, w)) (hrun : runPlaceHint c w = t) :
    exec (.placeHint p) s = .next (ensuing t) :=
  exec_start rfl h (fun ho => (runCmd_placeHint ho).trans hrun)

theorem exec_quotaSet_of_start (h : startOf .quotaSet 0x24 p s = some (c, w)) (hrun : runQuotaSet c w = t) :
    exec (.quotaSet p) s = .next (ensuing t) :=
  exec_start rfl h (fun ho => (runCmd_quotaSet ho).trans hrun)

end

/- ### ALLOC and FREE (12 R284 to R286, R288) -/

/-- An `ALLOC` reports the first tier of its order that takes the object. -/
theorem runAlloc_of_placed {s x : State} {c : Cmd} {r : PlaceReq} {t base : Nat} {ev : Bool} (hr : r = (allocReq c).hinted s c.fn)
    (hunits : r.unitsOk s c.fn = true) (hsize : r.order.all (fun t => decide (tierLimit t < arg c 24 8)) = false)
    (hplace : r.order.findSome? (fun t => (tryTier s c.fn r (arg c 24 8) t).map (fun x => (t, x))) = some (t, x, base, ev)) :
    runAlloc c s = complete x (c.warns ev warnEvicted) .ok
      (natLe 8 (addrField t base) ++ [BitVec.ofNat 8 t, BitVec.ofNat 8 (b2n (r.order.head? != some t)), 0, 0]) := by
  subst hr
  unfold runAlloc
  dsimp only
  rw [if_neg (by simp [hunits, hsize]), hplace]

theorem runFree_of_named {s : State} {c : Cmd} {a : Alloc} (ha : allocNamed s c.fn (arg c 24 8) = some a) :
    runFree c s = setCmd s { c with
      phase := .parked .others,
      awaited := (s.cmds.filter (fun x => x.fn == c.fn && decide (x.id < c.id) && usesAlloc x a)).map (·.id) } := by
  unfold runFree
  rw [ha]

/-- Once no command waits on it any more, the allocation goes. -/
theorem resumeFree_of_ended {s : State} {c : Cmd} {a : Alloc} (hw : stillOpen s c.awaited = false)
    (ha : allocNamed s c.fn (arg c 24 8) = some a) :
    resumeFree c s = some (complete { s with store := { s.store with allocs := s.store.allocs.filter (fun x => decide (x ≠ a)) } } c .ok
      (natLe 8 a.size)) := by
  unfold resumeFree
  rw [if_neg (by simp [hw]), ha]

/- ### COPY (12 R289) -/

/-- What lets a `COPY` start on its first unit: both sides are the tenant's, no channel that it writes is read-only, and a sealed source
has a valid header. -/
structure CopyAllowed (s : State) (c : Cmd) : Prop where
  source : copySide s c.fn (arg c 24 8) (arg c 40 8) true = true
  dest : copySide s c.fn (arg c 32 8) (arg c 40 8) false = true
  writable : ¬(tierOf (arg c 32 8) = 3 ∧ (nandCh s (offOf (arg c 32 8) / nandSize)).readOnly = true)
  header : ¬(tierOf (arg c 24 8) = 8 ∧ c.isSealed = true ∧ (readSrc s c (offOf (arg c 24 8)) (arg c 40 8)).2 = some .badParam)

theorem runCopy_of_allowed {s : State} {c : Cmd} (h : CopyAllowed s c) : runCopy c s = copyUnit c s := by
  unfold runCopy
  dsimp only
  rw [if_neg (by simp [h.source, h.dest]), if_neg h.writable, if_neg h.header]

/-- The bytes of one unit of a `COPY` as they go to its destination: to a tier, or in the clear or sealed to the host. -/
def deliverUnit (c : Cmd) (s : State) (bs : List Byte) : State × Cmd :=
  if tierOf (arg c 32 8) = 8 then
    (if c.isSealed then sealMore s c (offOf (arg c 32 8)) bs else (hostOut s c.fn (offOf (arg c 32 8) + c.cnt) bs, c))
  else (tierWrite s (tierOf (arg c 32 8)) (offOf (arg c 32 8) + c.cnt) bs, c)

section
variable {c : Cmd} (s : State) (bs : List Byte)

theorem deliverUnit_tier (ht : tierOf (arg c 32 8) ≠ 8) :
    deliverUnit c s bs = (tierWrite s (tierOf (arg c 32 8)) (offOf (arg c 32 8) + c.cnt) bs, c) :=
  if_neg ht

theorem deliverUnit_host (ht : tierOf (arg c 32 8) = 8) (hs : c.isSealed = false) :
    deliverUnit c s bs = (hostOut s c.fn (offOf (arg c 32 8) + c.cnt) bs, c) :=
  (if_pos ht).trans (if_neg (by simp [hs]))

theorem deliverUnit_sealed (ht : tierOf (arg c 32 8) = 8) (hs : c.isSealed = true) :
    deliverUnit c s bs = sealMore s c (offOf (arg c 32 8)) bs :=
  (if_pos ht).trans (if_pos hs)

end

section
variable {s x y : State} {c d : Cmd} {bs : List Byte} {n : Nat} (hn : n = min 65536 (arg c 40 8 - c.cnt))
include hn

theorem copyUnit_of_unreadable {e : Status} (hb : copyBytes s c (arg c 24 8) c.cnt n = (x, bs, some e)) :
    copyUnit c s = complete x c e (natLe 8 c.cnt) := by
  subst hn
  unfold copyUnit
  dsimp only
  rw [hb]

variable (hb : copyBytes s c (arg c 24 8) c.cnt n = (x, bs, none)) (hd : deliverUnit c x bs = (y, d))
include hb hd

/-- A unit that can be read is delivered, and ends the command or leaves it to the next tick. -/
theorem copyUnit_of_readable :
    copyUnit c s =
      if c.cnt + n = arg c 40 8 then complete y { d with cnt := c.cnt + n, res := natLe 8 (c.cnt + n) } .ok (natLe 8 (c.cnt + n))
      else setCmd y { d with cnt := c.cnt + n, res := natLe 8 (c.cnt + n), phase := .parked .units } := by
  subst hn
  unfold deliverUnit at hd
  unfold copyUnit
  dsimp only
  rw [hb]
  dsimp only
  rw [hd]

theorem copyUnit_of_last (hend : c.cnt + n = arg c 40 8) :
    copyUnit c s = complete y { d with cnt := c.cnt + n, res := natLe 8 (c.cnt + n) } .ok (natLe 8 (c.cnt + n)) := by
  rw [copyUnit_of_readable hn hb hd, if_pos hend]

theorem copyUnit_of_more (hmore : c.cnt + n ≠ arg c 40 8) :
    copyUnit c s = setCmd y { d with cnt := c.cnt + n, res := natLe 8 (c.cnt + n), phase := .parked .units } := by
  rw [copyUnit_of_readable hn hb hd, if_neg hmore]

end

section
variable {s x y : State} {c d : Cmd} {bs : List Byte} (h : CopyAllowed s c) (h0 : c.cnt = 0)
include h h0

/-- A `COPY` of at most one unit completes in the step that starts it. -/
theorem runCopy_of_oneUnit (hlen : arg c 40 8 ≤ 65536) (hb : copyBytes s c (arg c 24 8) 0 (arg c 40 8) = (x, bs, none))
    (hd : deliverUnit c x bs = (y, d)) :
    runCopy c s = complete y { d with cnt := arg c 40 8, res := natLe 8 (arg c 40 8) } .ok (natLe 8 (arg c 40 8)) := by
  have hunit := copyUnit_of_last (s := s) (n := arg c 40 8) (by omega) (by rwa [h0]) hd (by omega)
  rwa [h0, Nat.zero_add, ← runCopy_of_allowed h] at hunit

/-- A longer `COPY` writes its first unit and parks for the next. -/
theorem runCopy_of_moreUnits (hlen : 65536 < arg c 40 8) (hb : copyBytes s c (arg c 24 8) 0 65536 = (x, bs, none))
    (hd : deliverUnit c x bs = (y, d)) :
    runCopy c s = setCmd y { d with cnt := 65536, res := natLe 8 65536, phase := .parked .units } := by
  have hunit := copyUnit_of_more (s := s) (n := 65536) (by omega) (by rwa [h0]) hd (by omega)
  rwa [h0, Nat.zero_add, ← runCopy_of_allowed h] at hunit

theorem runCopy_of_unreadable {e : Status} (hb : copyBytes s c (arg c 24 8) 0 (min 65536 (arg c 40 8)) = (x, bs, some e)) :
    runCopy c s = complete x c e (natLe 8 0) := by
  have hunit := copyUnit_of_unreadable (by rw [h0, Nat.sub_zero]) (by rwa [h0])
  rwa [h0, ← runCopy_of_allowed h] at hunit

end

/-- A tick commits a unit of the `COPY` whose path is open, whose deadline stands and whose domains are on. -/
theorem workUnit_of_copy {s : State} {c : Cmd} (hop : c.op = .copy) (hc : cmdOf s c.id = some c) (hph : c.phase = .parked .units)
    (hpath : pathOpen s c = true) (hdue : overdue s c = false) (hon : allOn s (cmdDoms s c) = true) :
    workUnit s c.id = copyUnit c s := by
  unfold workUnit
  rw [hc]
  dsimp only
  rw [if_neg (by simp [hph, hpath, hdue, hon]), if_pos hop]

/- ### PLACE_HINT (12 R287) -/

/-- The hint that a `PLACE_HINT` names. -/
def askedHint (c : Cmd) : Hint :=
  { fn := c.fn, target := (hintReq c).obj, tier := (hintReq c).tier, mode := (hintReq c).mode, coppice := (hintReq c).coppice,
    groups := (hintReq c).groups }

/-- The units that a `PLACE_HINT` names are the tenant's; an object of the device names groups alone. -/
def HintUnitsOwned (s : State) (c : Cmd) : Prop :=
  (if (hintReq c).obj ≤ 4 then (hintReq c).unitsOk s c.fn else (maskList (hintReq c).groups).all (ownsGroup s c.fn)) = true

section
variable {s : State} {c : Cmd}

theorem runPlaceHint_of_units (ht : (hintReq c).tier ≠ 0xFF) (hu : HintUnitsOwned s c) :
    runPlaceHint c s = complete { s with store := { s.store with
      hints := s.store.hints.filter (fun h => !(h.fn == c.fn && h.target == (hintReq c).obj)) ++ [askedHint c] } } c .ok := by
  unfold HintUnitsOwned at hu
  unfold runPlaceHint
  dsimp only
  rw [if_neg (fun h => by simp [hu] at h), if_neg ht]
  rfl

theorem runPlaceHint_of_removal (ht : (hintReq c).tier = 0xFF) :
    runPlaceHint c s = complete { s with store := { s.store with
      hints := s.store.hints.filter (fun h => !(h.fn == c.fn && h.target == (hintReq c).obj)) } } c .ok := by
  unfold runPlaceHint
  dsimp only
  rw [if_neg (fun h => h.1 ht), if_pos ht, List.append_nil]

end

/- ### QUOTA_SET (12 R282, R283) -/

/-- The limit that a `QUOTA_SET` names. -/
def askedQuota (c : Cmd) : Quota := { fn := c.fn, kind := arg c 25 1, coppice := arg c 26 1, limit := arg c 28 4 }

/-- The use and the limit of the kind that a `QUOTA_SET` names. -/
def quotaReport (s : State) (c : Cmd) : List Byte :=
  natLe 8 (quotaUsed s c.fn (arg c 25 1) (arg c 26 1)) ++ natLe 4 (quotaLimit s c.fn (arg c 25 1) (arg c 26 1))

section
variable {s : State} {c : Cmd} (hown : ¬(arg c 25 1 = 3 ∧ ownsCoppice s c.fn (arg c 26 1) = false))
include hown

theorem runQuotaSet_of_set {x : State} (ha : arg c 24 1 = 0) (hmax : arg c 28 4 ≤ quotaMax s c.fn (arg c 25 1))
    (hx : x = { s with store := { s.store with
      quotas := s.store.quotas.filter (fun q => !(q.fn == c.fn && q.kind == arg c 25 1 && q.coppice == arg c 26 1)) ++ [askedQuota c] } }) :
    runQuotaSet c s = complete x c .ok (quotaReport x c) := by
  subst hx
  unfold runQuotaSet
  dsimp only
  rw [if_neg (by simpa [hmax] using hown), if_neg (by omega)]
  rfl

theorem runQuotaSet_of_read (ha : arg c 24 1 = 1) : runQuotaSet c s = complete s c .ok (quotaReport s c) := by
  unfold runQuotaSet
  dsimp only
  rw [if_neg (by simpa [ha] using hown), if_pos ha]
  rfl

end

/-- Settles O13: each row is the body of its command in the state of the start; a `FREE` goes on at once, and a `COPY` is split on where a unit
goes and on whether it is the last. -/
theorem memoryCommandsComplete : Obligations.MemoryCommandsComplete := by
  unfold Obligations.MemoryCommandsComplete
  refine ⟨?alloc, ?free, ?copyToTier, ?copyToHost, ?copySealed, ?copyMore, ?copyLast, ?copyUnreadable, ?hint, ?removeHint, ?deviceHint,
    ?setQuota, ?readQuota⟩
  case alloc =>
    intro p s w c t base x ev h hunits hsize hplace
    exact exec_alloc_of_start h (runAlloc_of_placed rfl hunits hsize hplace)
  case free =>
    intro p s w c a b d v h ha hd hgo hw hb
    have hop : d.op = .free := by rw [hd, startOf_op h]
    rw [← ensuing_goesOn hgo ((resumeCmd_free hop).trans (resumeFree_of_ended hw hb))]
    exact exec_free_of_start h (hd ▸ runFree_of_named ha)
  case copyToTier =>
    intro p s w c x bs h h0 hsrc hdst hro hseal ht hlen hb
    have hd := deliverUnit_tier x bs ht
    rw [h0] at hd
    exact exec_copy_of_start h (runCopy_of_oneUnit ⟨hsrc, hdst, hro, hseal⟩ h0 hlen hb hd)
  case copyToHost =>
    intro p s w c x bs h h0 hsrc hdst hseal ht hs hlen hb
    have hd := deliverUnit_host x bs ht hs
    rw [h0] at hd
    exact exec_copy_of_start h (runCopy_of_oneUnit ⟨hsrc, hdst, fun hro => by omega, hseal⟩ h0 hlen hb hd)
  case copySealed =>
    intro p s w c d x y bs h h0 hsrc hdst hseal ht hs hlen hb hd
    exact exec_copy_of_start h
      (runCopy_of_oneUnit ⟨hsrc, hdst, fun hro => by omega, hseal⟩ h0 hlen hb ((deliverUnit_sealed x bs ht hs).trans hd))
  case copyMore =>
    intro p s w c x bs h h0 hsrc hdst hro hseal ht hlen hb
    have hd := deliverUnit_tier x bs ht
    rw [h0] at hd
    exact exec_copy_of_start h (runCopy_of_moreUnits ⟨hsrc, hdst, hro, hseal⟩ h0 hlen hb hd)
  case copyLast =>
    intro s x c bs n hop hc hph hpath hdue hon ht hn hb hend
    rw [workUnit_of_copy hop hc hph hpath hdue hon, copyUnit_of_last hn hb (deliverUnit_tier x bs ht) hend]
  case copyUnreadable =>
    intro p s w c x bs e h h0 hsrc hdst hro hseal hb
    exact exec_copy_of_start h (runCopy_of_unreadable ⟨hsrc, hdst, hro, hseal⟩ h0 hb)
  case hint =>
    intro p s w c h ht hobj hu
    exact exec_placeHint_of_start h (runPlaceHint_of_units ht ((if_pos hobj).trans hu))
  case removeHint =>
    intro p s w c h ht
    exact exec_placeHint_of_start h (runPlaceHint_of_removal ht)
  case deviceHint =>
    intro p s w c h ht hobj hu
    exact exec_placeHint_of_start h (runPlaceHint_of_units ht ((if_neg (Nat.not_le.mpr hobj)).trans hu))
  case setQuota =>
    intro p s w c x h ha hown hmax hx
    exact exec_quotaSet_of_start h (runQuotaSet_of_set hown ha hmax hx)
  case readQuota =>
    intro p s w c h ha hown
    exact exec_quotaSet_of_start h (runQuotaSet_of_read hown ha)

end Sys2Proof.Machine
end

section
/-! SUPPORT. The events of the memories (12 R293 to R296, R299, R302; 13 R307): one equation for each outcome of each event, and the statement
that these settle. -/

namespace Sys2Proof.Machine

/- ### The patrol scrub (12 R294) -/

theorem patrolScrub_of_idleGroup {s : State} {line : Nat} (r : LineResult) (h : groupRuns s (line * 64 / groupSize) = false) :
    patrolScrub line r s = s :=
  if_pos (by simp [h])

/-- The scrub stands at a line; one below the last begins a new pass, with its counts. -/
def scrubAt (s : State) (line : Nat) : State :=
  { s with dram := { s.dram with scrubPos := line, corrected := if line < s.dram.scrubPos then [] else s.dram.corrected } }

/-- Corrected errors of a rank in this pass, with the one just met. -/
def correctedCount (s : State) (ch r : Nat) : Nat :=
  match s.dram.corrected.find? (fun e => e.1 == ch && e.2.1 == r) with
  | some e => e.2.2 + 1
  | none => 1

section
variable {s x : State} {line : Nat} (hg : groupRuns s (line * 64 / groupSize) = true) (hx : x = scrubAt s line)
include hg hx

/-- An injection armed for the line's channel fires whatever the line holds. -/
theorem patrolScrub_of_armed {i : Injection} {y : State} (k : LineResult)
    (hi : s.fault.injections.find? (fun i => i.target == 0x11 && i.unit == channelOf s (line * 64)
      && (i.address == 0 || offOf i.address.toNat / 64 == line)) = some i)
    (hy : y = fireInjection x i
      (captureAt (capture x 0x11 (channelOf s (line * 64)) (if i.bits = 1 then 0 else 1)) 2 (line * 64) 5)) :
    patrolScrub line k s =
      if i.bits = 1 then countUp y 0x0021 (line * 64 / groupSize) 1
      else startRetire (poisonRange y (line * 64) 64) (channelOf s (line * 64)) (rankOf s (line * 64)) := by
  subst hx hy
  unfold patrolScrub
  dsimp only
  rw [if_neg (by simp [hg]), hi]
  rfl

variable (hi : s.fault.injections = [])
include hi

theorem patrolScrub_of_clean : patrolScrub line .clean s = x := by
  subst hx
  unfold patrolScrub
  dsimp only
  rw [if_neg (by simp [hg]), hi]
  rfl

theorem patrolScrub_of_uncorrectable : patrolScrub line .uncorrectable s = badLine x (line * 64) 5 (capture x) := by
  subst hx
  unfold patrolScrub
  dsimp only
  rw [if_neg (by simp [hg]), hi]
  rfl

theorem patrolScrub_of_corrected {y z : State} {ch r n : Nat} (hch : ch = channelOf s (line * 64)) (hr : r = rankOf s (line * 64))
    (hy : y = correctedLine x (line * 64) 5 (capture x)) (hn : n = correctedCount y ch r)
    (hz : z = { y with dram := { y.dram with
      corrected := (ch, r, n) :: y.dram.corrected.filter (fun e => !(e.1 == ch && e.2.1 == r)) } }) :
    patrolScrub line .corrected s = if 1024 < n then startRetire z ch r else z := by
  subst hx hch hr hy hn hz
  unfold patrolScrub
  dsimp only
  rw [if_neg (by simp [hg]), hi]
  rfl

end

/- ### Migration (12 R296) -/

/-- The bad lines of the unit that a migration copies next. -/
def badLinesOfUnit (s : State) (ch rank : Nat) (m : Migration) (bad : List Nat) : List Nat :=
  bad.filter (fun l => channelOf s (l * 64) == ch && rankOf s (l * 64) == rank && unitOfRank s (l * 64) == m.watermark)

/-- A migration whose next unit has been copied: it goes on, or it ends after the last. -/
def unitMoved (s : State) (m : Migration) : State :=
  if m.watermark + 1 = 15872 then migrationEnd s m
  else { s with dram := { s.dram with
    migrations := s.dram.migrations.map (fun y => if y = m then { m with watermark := m.watermark + 1 } else y) } }

theorem migrationUnit_of_running {s x : State} {ch rank : Nat} {bad : List Nat} {m : Migration}
    (hm : s.dram.migrations.find? (fun m => m.ch == ch && m.rank == rank) = some m) (hg : groupRuns s (ch / 8) = true)
    (hx : x = (badLinesOfUnit s ch rank m bad).foldl (fun s l => badLine s (l * 64) 0 (capture s)) s) :
    migrationUnit ch rank bad s = unitMoved x m := by
  subst hx
  unfold migrationUnit
  rw [hm]
  dsimp only
  rw [if_neg (by simp [hg])]
  rfl

/- ### Training and retraining (12 R295, R299) -/

/-- A training check logs a bad rank and retires it. -/
def rankFailed (s : State) (ch r : Nat) : State := startRetire (raise s (capture s 0x12 ch 0)) ch r

/-- A training check logs drift and starts the retraining. -/
def channelDrifted (s : State) (ch : Nat) : State := startRetraining (raise s (capture s 0x12 ch 0)) ch

theorem trainingCheck_of_good (s : State) (ch : Nat) : trainingCheck ch none false s = s :=
  ite_self s

section
variable {s : State} {ch : Nat} (hg : groupRuns s (ch / 8) = true) (hch : ch < 32)
include hg hch

theorem trainingCheck_of_badRank {r : Nat} (drift : Bool) (hr : r < 2) :
    trainingCheck ch (some r) drift s = if drift then channelDrifted (rankFailed s ch r) ch else rankFailed s ch r := by
  unfold trainingCheck
  rw [if_neg (by simp [hg, hch])]
  dsimp only
  rw [if_pos hr]
  rfl

theorem trainingCheck_of_drift : trainingCheck ch none true s = channelDrifted s ch :=
  if_neg (by simp [hg, hch])

end

theorem retrainingDone_of_retrained {s : State} {ch i : Nat}
    (hi : (List.range 2).find? (fun i => (spareOf s i).retraining && (spareOf s i).rank0 == some (ch, 0)) = some i)
    (hm : s.dram.migrations.any (fun m => m.ch == ch && m.retraining) = false) :
    retrainingDone ch s = { s with dram := { s.dram with migrations := s.dram.migrations ++
      [{ ch := ch, rank := 0, spare := i, spareRank := 0, retraining := true, back := true }] } } := by
  unfold retrainingDone
  rw [hi]
  exact if_neg (by simp [hm])

/- ### The NAND channels (12 R302) -/

section
variable {s : State} {ch block : Nat} (hp : nandPresent s ch = true) (hs : (nandCh s ch).inService = true)
include hp hs

theorem readRefresh_of_inService :
    readRefresh ch block s = updNand s ch (fun x => { x with reads := x.reads.filter (fun r => r.1 != block) }) :=
  if_neg (by simp [hp, hs])

variable {left : Nat} (hr : (nandCh s ch).retired.contains block = false)
  (hl : left = min (nandCh s ch).sparePermille (Config.freeNat s.freeCtr))
include hr hl

/-- A failed block is retired, and the channel is read-only once less than 10 per mille of its spare blocks are left. -/
theorem programFailure_of_inService {x : State}
    (hx : x = updNand (bumpFree s) ch (fun y => { y with
      retired := y.retired ++ [block], sparePermille := left, readOnly := y.readOnly || decide (left < 10) })) :
    programFailure ch block s =
      if left < 10 ∧ (nandCh s ch).readOnly = false then bumpMap (raise x (capture x 0x15 ch 0)) else x := by
  subst hl hx
  exact if_neg (by simp only [hp, hs, hr]; decide)

theorem programFailure_of_spares {x : State} (hspare : 10 ≤ left)
    (hx : x = updNand (bumpFree s) ch (fun y => { y with retired := y.retired ++ [block], sparePermille := left })) :
    programFailure ch block s = x := by
  have hnot : ¬ left < 10 := Nat.not_lt.mpr hspare
  rw [programFailure_of_inService hp hs hr hl rfl, if_neg (fun h => hnot h.1), hx]
  simp only [hnot, decide_false, Bool.or_false]

theorem programFailure_of_exhausted {x : State} (hlow : left < 10) (hw : (nandCh s ch).readOnly = false)
    (hx : x = updNand (bumpFree s) ch (fun y => { y with retired := y.retired ++ [block], sparePermille := left, readOnly := true })) :
    programFailure ch block s = bumpMap (raise x (capture x 0x15 ch 0)) := by
  have hstate := programFailure_of_inService hp hs hr hl rfl
  simp only [hlow, decide_true, Bool.or_true] at hstate
  rw [hstate, if_pos ⟨trivial, hw⟩, hx]

end

/- ### The end of clearing (13 R307) -/

theorem partitionClearDone_of_clearing {s x : State} (hc : s.regs.clearing ≠ 0) (hr : s.boot.inReset = false)
    (hx : x = (maskList (bits s.regs.clearing.toNat 11 8)).foldl clearNand
      ((maskList (bits s.regs.clearing.toNat 7 4)).foldl clearGroup ((maskList (s.regs.clearing.toNat % 16)).foldl clearCoppice s))) :
    partitionClearDone s = { x with regs := { x.regs with clearing := 0 } } := by
  subst hx
  have hne : s.regs.clearing.toNat ≠ 0 := fun h => hc (BitVec.eq_of_toNat_eq h)
  exact if_neg (by simp [hne, hr])

/-- Settles O46: each event is split on what it meets, and what has become possible follows. -/
theorem memoryEvents : Obligations.MemoryEvents := by
  unfold Obligations.MemoryEvents
  refine ⟨?clean, ?uncorrectable, ?corrected, ?armed, ?idleGroup, ?unit, ?lastUnit, ?unitWithBadLines, ?good, ?badRank, ?badRankAndDrift,
    ?drift, ?retrained, fun _ _ _ => rfl, ?refresh, ?spares, ?exhausted, ?clearing⟩
  case clean =>
    rintro s _ line rfl hg hi
    exact exec_event rfl (patrolScrub_of_clean hg rfl hi)
  case uncorrectable =>
    rintro s _ line x rfl hg hi hx
    exact exec_event rfl (patrolScrub_of_uncorrectable hg hx hi)
  case corrected =>
    rintro s _ x y z line ch r n _ rfl hg hi hx hch hr hy rfl hn hz
    exact exec_event rfl (patrolScrub_of_corrected hg hx hi hch hr hy hn hz)
  case armed =>
    rintro s _ x y line k i rfl hg hx hi hy
    exact exec_event rfl (patrolScrub_of_armed hg hx k hi hy)
  case idleGroup =>
    rintro s _ line r rfl hg
    exact exec_event rfl (patrolScrub_of_idleGroup r hg)
  case unit =>
    rintro s _ ch rank m rfl hm hg hw
    exact exec_event rfl ((migrationUnit_of_running hm hg rfl).trans (if_neg hw))
  case lastUnit =>
    rintro s _ ch rank m rfl hm hg hw
    exact exec_event rfl ((migrationUnit_of_running hm hg rfl).trans (if_pos hw))
  case unitWithBadLines =>
    rintro s _ x ch rank bad m rfl hm hg hx
    exact exec_event rfl (migrationUnit_of_running hm hg hx)
  case good =>
    rintro s _ ch rfl
    exact exec_event rfl (trainingCheck_of_good (sweep s) ch)
  case badRank =>
    rintro s _ ch r rfl hg hch hr
    exact exec_event rfl (trainingCheck_of_badRank hg hch false hr)
  case badRankAndDrift =>
    rintro s _ x ch r rfl hg hch hr rfl
    exact exec_event rfl (trainingCheck_of_badRank hg hch true hr)
  case drift =>
    rintro s _ ch rfl hg hch
    exact exec_event rfl (trainingCheck_of_drift hg hch)
  case retrained =>
    rintro s _ ch i rfl hi hm
    exact exec_event rfl (retrainingDone_of_retrained hi hm)
  case refresh =>
    intro s ch block hp hs
    exact congrArg Host.Outcome.next (readRefresh_of_inService hp hs)
  case spares =>
    rintro s _ ch block left x rfl hp hs hr hl hspare hx
    exact exec_event rfl (programFailure_of_spares hp hs hr hl hspare hx)
  case exhausted =>
    rintro s _ ch block left x rfl hp hs hr hw hl hlow hx
    exact exec_event rfl (programFailure_of_exhausted hp hs hr hl hlow hw hx)
  case clearing =>
    rintro s _ x rfl hc hr hx
    exact exec_event rfl (partitionClearDone_of_clearing hc hr hx)

end Sys2Proof.Machine
end

section
/-! SUPPORT. `ATTEST`, `KEY_EXCHANGE` and the firmware commands (13 R316 to R318, R323 to R327): what each does in the state in which it starts,
and the statement that these settle. -/

namespace Sys2Proof.Machine

section
variable {s : State} {c : Cmd}

theorem runCmd_attest (h : c.op = .attest) : runCmd c s = runAttest c s := by
  unfold runCmd
  rw [h]

theorem runCmd_keyExchange (h : c.op = .keyExchange) : runCmd c s = runKeyExchange c s := by
  unfold runCmd
  rw [h]

theorem runCmd_fwStage (h : c.op = .fwStage) : runCmd c s = runFwStage c s := by
  unfold runCmd
  rw [h]

theorem runCmd_fwActivate (h : c.op = .fwActivate) : runCmd c s = runFwActivate c s := by
  unfold runCmd
  rw [h]

theorem runCmd_fwQuery (h : c.op = .fwQuery) : runCmd c s = runFwQuery c s := by
  unfold runCmd
  rw [h]

/-- A command that its frame boundary let go starts again there. -/
theorem resumeCmd_fwActivate_of_let (h : c.op = .fwActivate) (hp : c.phase = .parked .policyHold) (hx : c.aux = 1) :
    resumeCmd c s = some (runFwActivate c s) := by
  unfold resumeCmd
  rw [h]
  exact (if_pos hp).trans (if_pos hx)

end

section
variable {p : Packet} {s w t : State} {c : Cmd}

theorem exec_attest_of_start (h : startOf .attest 0x04 p s = some (c, w)) (hrun : runAttest c w = t) :
    exec (.attest p) s = .next (ensuing t) :=
  exec_start rfl h (fun ho => (runCmd_attest ho).trans hrun)

theorem exec_keyExchange_of_start (h : startOf .keyExchange 0x05 p s = some (c, w)) (hrun : runKeyExchange c w = t) :
    exec (.keyExchange p) s = .next (ensuing t) :=
  exec_start rfl h (fun ho => (runCmd_keyExchange ho).trans hrun)

theorem exec_fwStage_of_start (h : startOf .fwStage 0x80 p s = some (c, w)) (hrun : runFwStage c w = t) :
    exec (.fwStage p) s = .next (ensuing t) :=
  exec_start rfl h (fun ho => (runCmd_fwStage ho).trans hrun)

theorem exec_fwActivate_of_start (h : startOf .fwActivate 0x81 p s = some (c, w)) (hrun : runFwActivate c w = t) :
    exec (.fwActivate p) s = .next (ensuing t) :=
  exec_start rfl h (fun ho => (runCmd_fwActivate ho).trans hrun)

theorem exec_fwQuery_of_start (h : startOf .fwQuery 0x82 p s = some (c, w)) (hrun : runFwQuery c w = t) :
    exec (.fwQuery p) s = .next (ensuing t) :=
  exec_start rfl h (fun ho => (runCmd_fwQuery ho).trans hrun)

end

/- ### ATTEST and KEY_EXCHANGE (13 R314, R316 to R318) -/

/-- The digest of the report that a later `KEY_EXCHANGE` names: only a PF1 report is kept. -/
def keepReport (fn : Fn) (report : List Byte) (x : State) : State :=
  match fn with
  | .pf1 => { x with root := { x.root with reportDigest := some (Config.sha3 report), reportKem := x.root.kemId } }
  | .pf0 => x

theorem runAttest_of_room {s x : State} {c : Cmd} {listed : List Model} {wantChain : Bool} {out : Nat} {body report chain : List Byte}
    (hlisted : listed = if blk c 44 1 = 1 then (installed s c.fn).take 256 else [])
    (hwant : wantChain = decide (blk c 45 1 = 1 ∧ s.fw.certOk)) (hout : out = 4052 + 72 * listed.length + (if wantChain then 7656 else 0))
    (hroom : destNeed c out ≤ blk c 40 4)
    (hbody : body = reportBody s c.fn (bytesAt c.pkt.block 0 32) listed (decide (blk c 44 1 = 1) && decide (256 < (installed s c.fn).length)))
    (hreport : report = body ++ Config.mldsaSign (identityKey s) body attestLabel s.freeCtr)
    (hchain : chain = if wantChain then Config.certificates.1 ++ Config.certificates.2 else [])
    (hx : x = writeDest (bumpFree s) c (blk c 32 8) (report ++ chain)) :
    runAttest c s = complete (keepReport c.fn report x) c .ok
      (natLe 4 (4052 + 72 * listed.length) ++ natLe 4 out ++ natLe 2 listed.length ++ zeroBytes 2) := by
  simp only [hwant, decide_eq_true_eq] at hout hchain
  unfold runAttest
  dsimp only
  rw [← hlisted, ← hbody, ← hreport, ← hchain, ← hout, ← hx, if_neg (Nat.not_lt.mpr hroom)]
  rfl

/-- The shared key of a `KEY_EXCHANGE`: what it encapsulates, bound to the report that it names. -/
theorem runKeyExchange_of_report {s x : State} {c : Cmd} (hsess : s.sess1.number = 0)
    (hdigest : s.root.reportDigest.map digestBytes = some (bytesAt c.pkt.block 8 32)) (hkem : s.root.reportKem = s.root.kemId)
    (hx : x = if s.root.k1.isSome then discardTenant1 s else s) :
    runKeyExchange c s = complete (bumpFree { x with root := { s.root with
      k1 := some (Config.kmac256 (Config.kemDecaps s.root.kemPair (bytesAt c.pkt.block 64 1088))
        (bytesAt c.pkt.block 8 32 ++ sha3Bytes (bytesAt c.pkt.block 64 1088)) (ascii "WYRUN TENANT KEY"))
      k1Gen := s.root.k1Gen + 1, kemId := s.root.kemId + 1, kemPair := x.freeCtr } })
      c .ok (natLe 4 s.root.kemId ++ natLe 4 (s.root.k1Gen + 1)) := by
  subst hx
  exact (if_neg (by simp [hsess])).trans (if_neg (by simp [hdigest, hkem]))

/- ### FW_STAGE (13 R323, R325) -/

section
variable {s : State} {c : Cmd} {img : List Byte} (himg : img = memReadN s.store.host (arg c 32 8) (arg c 40 4))
include himg

theorem runFwStage_of_good (hr : imageReason s (arg c 24 1) img = 0) :
    runFwStage c s = complete { s with fw := { s.fw with
      staged := s.fw.staged.filter (fun g => g.component != arg c 24 1) ++ [imageOf (arg c 24 1) img] } }
      c .ok (fwResult 0 (imageOf (arg c 24 1) img).version) := by
  subst himg
  exact if_neg (not_not_intro hr)

theorem runFwStage_of_bad (hr : imageReason s (arg c 24 1) img ≠ 0) :
    runFwStage c s = complete s c .fwReject (fwResult (imageReason s (arg c 24 1) img) 0) := by
  subst himg
  exact if_pos hr

end

/- ### FW_ACTIVATE (13 R326) -/

section
variable {s : State} {c : Cmd} {f : FwImage} (hf : stagedOf s (arg c 24 1) = some f) (hsvn : securityVersion s ≤ f.svn)
include hf hsvn

/-- An image that is staged and not too old is switched to in the command's turn, at the quiescent point. -/
theorem tryActivate_of_turn (hturn : activationTurn s c = true) (hq : quiescent s (arg c 24 1) = true) :
    tryActivate c s = some (complete (switchImage s f) c .ok (fwResult 0 f.version)) := by
  unfold tryActivate
  rw [hf]
  exact (if_neg (Nat.not_lt.mpr hsvn)).trans (if_pos (by simp [hturn, hq]))

theorem runFwActivate_of_boundary (hi : arg c 24 1 ≤ 2) (hx : c.aux = 0) : runFwActivate c s = park s c .policyHold := by
  unfold runFwActivate
  rw [hf]
  simp [Nat.not_lt.mpr hsvn, hi, hx]

/-- A component that no frame boundary holds, or one that a boundary let go, is switched in the command's turn. -/
theorem runFwActivate_of_turn (hi : arg c 24 1 ≤ 2 → c.aux ≠ 0) (hturn : activationTurn s c = true)
    (hq : quiescent s (arg c 24 1) = true) : runFwActivate c s = complete (switchImage s f) c .ok (fwResult 0 f.version) := by
  have htry := tryActivate_of_turn hf hsvn hturn hq
  unfold runFwActivate
  rw [hf]
  simp only [htry, Nat.not_lt.mpr hsvn, if_false, Option.getD_some]
  exact if_neg (by simpa using hi)

end

/-- Settles O10: each command is the equation of its case, and an `FW_ACTIVATE` that a frame boundary let go switches as one that needs none. -/
theorem trustCommandsComplete : Obligations.TrustCommandsComplete := by
  unfold Obligations.TrustCommandsComplete
  refine ⟨?attest, ?exchange, ?stage, ?reject, ?activate, ?hold, ?letGo, ?query⟩
  case attest =>
    rintro p s w c listed wantChain out body report chain x _ h hlisted hwant hout hroom hbody hreport hchain hx rfl
    exact exec_attest_of_start h (runAttest_of_room hlisted hwant hout hroom hbody hreport hchain hx)
  case exchange =>
    intro p s w c x h hsess hdigest hkem hx
    exact exec_keyExchange_of_start h (runKeyExchange_of_report hsess hdigest hkem hx)
  case stage =>
    intro p s w c img h himg hr
    exact exec_fwStage_of_start h (runFwStage_of_good himg hr)
  case reject =>
    intro p s w c h hr
    exact exec_fwStage_of_start h (runFwStage_of_bad rfl hr)
  case activate =>
    intro p s w c f h hi hf hsvn hturn hq
    exact exec_fwActivate_of_start h (runFwActivate_of_turn hf hsvn (by omega) hturn hq)
  case hold =>
    intro p s w c f h hi hx hf hsvn
    exact exec_fwActivate_of_start h (runFwActivate_of_boundary hf hsvn hi hx)
  case letGo =>
    intro s c f hop _ hp hx hf hsvn hturn hq
    exact (resumeCmd_fwActivate_of_let hop hp hx).trans (congrArg some (runFwActivate_of_turn hf hsvn (by omega) hturn hq))
  case query => exact fun _ _ _ _ h => exec_fwQuery_of_start h rfl

end Sys2Proof.Machine
end

section
/-! SUPPORT. The provisioning of the fuses over I3C (13 R310, R313, R329): one equation for each condition of an operation and for each end of one,
and the statement that these settle. -/

namespace Sys2Proof.Machine

/-- A row that nothing follows from answers what it does. -/
theorem exec_direct {i : Instr} {f : State → State} {s t : State} (hrow : directEffect i = some f) (hf : f s = t) : exec i s = .next t := by
  rw [exec_directEffect s hrow, hf]

theorem i3cUp_of_enabled {s : State} (he : s.i3c.enabled = true) (hr : s.boot.inReset = false) : i3cUp s = true := by
  simp [i3cUp, he, hr]

theorem i3cDirect_of_addressed {s : State} {b : BitVec 7} (he : s.i3c.enabled = true) (hr : s.boot.inReset = false)
    (ha : s.i3c.addr = some b) : i3cDirect s = true := by
  simp [i3cDirect, i3cUp_of_enabled he hr, ha]

/- ### The start of an operation (13 R313, R329) -/

/-- A fuse that an operation finds unblown where it is to be done: BLOW_DBG_OFF looks at DBG_OFF alone. -/
def alreadyBlown (op : Nat) (s : State) : Prop :=
  (op = 3 ∧ s.fuse.dbgOff = true) ∨ (op ≠ 3 ∧ s.fuse.oemLock = true) ∨ (op = 1 ∧ s.fuse.oemKeySet = true)

theorem alreadyBlown_one_iff (s : State) : alreadyBlown 1 s ↔ s.fuse.oemLock = true ∨ s.fuse.oemKeySet = true := by simp [alreadyBlown]
theorem alreadyBlown_two_iff (s : State) : alreadyBlown 2 s ↔ s.fuse.oemLock = true := by simp [alreadyBlown]
theorem alreadyBlown_three_iff (s : State) : alreadyBlown 3 s ↔ s.fuse.dbgOff = true := by simp [alreadyBlown]

/-- The target takes an operation: it is addressed, GORSE_MAIN runs and no operation is under way. -/
structure ProvisioningIdle (s : State) : Prop where
  direct : i3cDirect s = true
  up : sidebandUp s = true
  idle : s.root.provBusy = false

theorem provisioningIdle_of_addressed {s : State} {b : BitVec 7} (he : s.i3c.enabled = true) (hr : s.boot.inReset = false)
    (ha : s.i3c.addr = some b) (hst : 1 ≤ s.boot.stage) (hb : s.root.provBusy = false) : ProvisioningIdle s :=
  ⟨i3cDirect_of_addressed he hr ha, by simp [sidebandUp, hr, hst], hb⟩

section
variable {s : State} (op : Nat) (h : ProvisioningIdle s)
include h

theorem askProvision_of_idle : askProvision op s =
    if s.pins.vpp = false then provEnd s 2
    else if s.regs.admin0.enable = true then provEnd s 4
    else if (op = 3 ∧ s.fuse.dbgOff = true) ∨ (op ≠ 3 ∧ s.fuse.oemLock = true) ∨ (op = 1 ∧ s.fuse.oemKeySet = true) then provEnd s 1
    else { s with root := { s.root with provOp := op, provBusy := true } } := by
  unfold askProvision provision
  rw [if_pos h.direct, if_neg (by simp [h.up, h.idle])]
  simp only [Bool.not_eq_true']

theorem askProvision_of_vppLow (hv : s.pins.vpp = false) : askProvision op s = provEnd s 2 :=
  (askProvision_of_idle op h).trans (if_pos hv)

variable (hv : s.pins.vpp = true)
include hv

theorem askProvision_of_adminOn (ha : s.regs.admin0.enable = true) : askProvision op s = provEnd s 4 :=
  (askProvision_of_idle op h).trans ((if_neg (by simp [hv])).trans (if_pos ha))

variable (ha : s.regs.admin0.enable = false)
include ha

theorem askProvision_of_blown (hb : alreadyBlown op s) : askProvision op s = provEnd s 1 :=
  (askProvision_of_idle op h).trans ((if_neg (by simp [hv])).trans ((if_neg (by simp [ha])).trans (if_pos hb)))

theorem askProvision_of_unblown (hb : ¬ alreadyBlown op s) :
    askProvision op s = { s with root := { s.root with provOp := op, provBusy := true } } :=
  (askProvision_of_idle op h).trans ((if_neg (by simp [hv])).trans ((if_neg (by simp [ha])).trans (if_neg hb)))

end

/- ### The end of an operation (13 R313) -/

section
variable {s : State} (hb : s.root.provBusy = true) (hr : s.boot.inReset = false)
include hb hr

theorem provisioningDone_of_badReadBack : provisioningDone false s = provEnd s 3 :=
  if_neg (by simp [hb, hr])

theorem provisioningDone_of_goodReadBack : provisioningDone true s =
    if s.root.provOp = 3 then dropDebug (provEnd { s with fuse := blow s } 0) else provEnd { s with fuse := blow s } 0 :=
  if_neg (by simp [hb, hr])

end

theorem blow_of_key {s : State} (h : s.root.provOp = 1) :
    blow s = { s.fuse with oemKey := BitVec.ofNat 256 (leNat s.root.provData), oemKeySet := true } := by
  unfold blow
  rw [h]
  rfl

theorem blow_of_lock {s : State} (h : s.root.provOp = 2) : blow s = { s.fuse with oemLock := true } := by
  unfold blow
  rw [h]
  rfl

theorem blow_of_debug {s : State} (h : s.root.provOp = 3) : blow s = { s.fuse with dbgOff := true } := by
  unfold blow
  rw [h]
  rfl

/-- Settles O31: an operation is split on the first condition that fails, for each of the three alike, and its end on the read-back and on
the fuse that it blows. -/
theorem fuseProvisioning : Obligations.FuseProvisioning := by
  unfold Obligations.FuseProvisioning
  refine ⟨?key, ?lock, ?debug, ?keyVpp, ?lockVpp, ?debugVpp, ?keyAdmin, ?lockAdmin, ?debugAdmin, ?keyBlown, ?lockBlown, ?debugBlown,
    ?badReadBack, ?keyDone, ?lockDone, ?debugDone⟩
  case key =>
    intro s b he hr hd hst hb hv ha hlock hset
    have hopen : ¬ alreadyBlown 1 s := by simp [alreadyBlown_one_iff, hlock, hset]
    exact exec_direct rfl (askProvision_of_unblown 1 (provisioningIdle_of_addressed he hr hd hst hb) hv ha hopen)
  case lock =>
    intro s b he hr hd hst hb hv ha hlock
    have hopen : ¬ alreadyBlown 2 s := by simp [alreadyBlown_two_iff, hlock]
    exact exec_direct rfl (askProvision_of_unblown 2 (provisioningIdle_of_addressed he hr hd hst hb) hv ha hopen)
  case debug =>
    intro s b he hr hd hst hb hv ha hdbg
    have hopen : ¬ alreadyBlown 3 s := by simp [alreadyBlown_three_iff, hdbg]
    exact exec_direct rfl (askProvision_of_unblown 3 (provisioningIdle_of_addressed he hr hd hst hb) hv ha hopen)
  case keyVpp | lockVpp | debugVpp =>
    intro s b he hr hd hst hb hv
    exact exec_direct rfl (askProvision_of_vppLow _ (provisioningIdle_of_addressed he hr hd hst hb) hv)
  case keyAdmin | lockAdmin | debugAdmin =>
    intro s b he hr hd hst hb hv ha
    exact exec_direct rfl (askProvision_of_adminOn _ (provisioningIdle_of_addressed he hr hd hst hb) hv ha)
  case keyBlown =>
    intro s b he hr hd hst hb hv ha hblown
    exact exec_direct rfl
      (askProvision_of_blown 1 (provisioningIdle_of_addressed he hr hd hst hb) hv ha ((alreadyBlown_one_iff s).mpr hblown))
  case lockBlown =>
    intro s b he hr hd hst hb hv ha hblown
    exact exec_direct rfl
      (askProvision_of_blown 2 (provisioningIdle_of_addressed he hr hd hst hb) hv ha ((alreadyBlown_two_iff s).mpr hblown))
  case debugBlown =>
    intro s b he hr hd hst hb hv ha hblown
    exact exec_direct rfl
      (askProvision_of_blown 3 (provisioningIdle_of_addressed he hr hd hst hb) hv ha ((alreadyBlown_three_iff s).mpr hblown))
  case badReadBack =>
    rintro s _ rfl hb hr
    exact exec_event rfl (provisioningDone_of_badReadBack hb hr)
  case keyDone =>
    rintro s _ rfl hb hr hop
    rw [exec_event rfl (provisioningDone_of_goodReadBack hb hr), if_neg (by simp [hop]), blow_of_key hop]
    rfl
  case lockDone =>
    rintro s _ rfl hb hr hop
    rw [exec_event rfl (provisioningDone_of_goodReadBack hb hr), if_neg (by simp [hop]), blow_of_lock hop]
    rfl
  case debugDone =>
    rintro s _ rfl hb hr hop
    rw [exec_event rfl (provisioningDone_of_goodReadBack hb hr), if_pos hop, blow_of_debug hop]
    rfl

end Sys2Proof.Machine
end

section
/-! SUPPORT. `FAULT_READ`, `FAULT_CLEAR` and `FAULT_INJECT` (14 R344 to R348): what each does in the state in which it starts, which checkers fire
at once, and the statement that these settle. -/

namespace Sys2Proof.Machine

section
variable {s : State} {c : Cmd}

theorem runCmd_faultRead (h : c.op = .faultRead) : runCmd c s = runFaultRead c s := by
  unfold runCmd
  rw [h]

theorem runCmd_faultClear (h : c.op = .faultClear) : runCmd c s = runFaultClear c s := by
  unfold runCmd
  rw [h]

theorem runCmd_faultInject (h : c.op = .faultInject) : runCmd c s = runFaultInject c s := by
  unfold runCmd
  rw [h]

end

section
variable {p : Packet} {s w t : State} {c : Cmd}

theorem exec_faultRead_of_start (h : startOf .faultRead 0x90 p s = some (c, w)) (hrun : runFaultRead c w = t) :
    exec (.faultRead p) s = .next (ensuing t) :=
  exec_start rfl h (fun ho => (runCmd_faultRead ho).trans hrun)

theorem exec_faultClear_of_start (h : startOf .faultClear 0x91 p s = some (c, w)) (hrun : runFaultClear c w = t) :
    exec (.faultClear p) s = .next (ensuing t) :=
  exec_start rfl h (fun ho => (runCmd_faultClear ho).trans hrun)

theorem exec_faultInject_of_start (h : startOf .faultInject 0x92 p s = some (c, w)) (hrun : runFaultInject c w = t) :
    exec (.faultInject p) s = .next (ensuing t) :=
  exec_start rfl h (fun ho => (runCmd_faultInject ho).trans hrun)

end

/- ### FAULT_READ and FAULT_CLEAR (14 R344 to R346) -/

theorem runFaultRead_eq {s x : State} {c : Cmd} {l out : List Capture}
    (hl : l = s.fault.log.filter (fun x => readsRecord c.fn x && (arg c 30 1 == 0 || (arg c 30 1).testBit x.cls)
      && (BitVec.ofNat 32 (arg c 24 4) == (0xFFFFFFFF : U32) || decide (0 ≤ low32Diff x.fseq (BitVec.ofNat 32 (arg c 24 4))))))
    (hout : out = l.take (arg c 28 2))
    (hx : x = if out.isEmpty then s else writeDest s c (arg c 32 8) (out.flatMap (fun y => captureBytes y (c.fn == .pf1 && y.device)))) :
    runFaultRead c s = complete x c .ok (natLe 4 ((out.head?.map (·.fseq.toNat)).getD 0) ++ natLe 2 out.length
      ++ natLe 2 (l.length - out.length) ++ natLe 4 x.fault.lost) := by
  subst hx hout hl
  rfl

/-- The records that a `FAULT_CLEAR` names and its tenant may clear. -/
def namedRecord (c : Cmd) (x : Capture) : Bool :=
  clearsRecord c.fn x && (BitVec.ofNat 32 (arg c 24 4) == (0xFFFFFFFF : U32) || x.fseq == BitVec.ofNat 32 (arg c 24 4))

theorem runFaultClear_of_named {s : State} {c : Cmd}
    (h : BitVec.ofNat 32 (arg c 24 4) = (0xFFFFFFFF : U32) ∨ s.fault.log.filter (namedRecord c) ≠ []) :
    runFaultClear c s = complete { s with fault := { s.fault with log := s.fault.log.filter (fun x => !namedRecord c x) } } c .ok
      (natLe 4 (s.fault.log.filter (namedRecord c)).length) := by
  refine if_neg fun hnone => ?_
  rcases h with hall | hsome
  · exact hnone.1 hall
  · exact hsome (List.length_eq_zero_iff.mp hnone.2)

theorem runFaultClear_of_absent {s : State} {c : Cmd} (hn : BitVec.ofNat 32 (arg c 24 4) ≠ (0xFFFFFFFF : U32))
    (h : s.fault.log.filter (namedRecord c) = []) : runFaultClear c s = complete s c .badParam :=
  if_pos ⟨hn, List.length_eq_zero_iff.mpr h⟩

/- ### FAULT_INJECT (14 R347, R348) -/

/-- The injection that a `FAULT_INJECT` arms. -/
def askedInjection (c : Cmd) : Injection :=
  { target := arg c 24 1, unit := arg c 25 1, bits := arg c 26 1, address := BitVec.ofNat 64 (arg c 28 8), cmd := c.id }

theorem runFaultInject_of_allowed {s x : State} {c : Cmd} (hforeign : injectForeign s (arg c 24 1) (arg c 25 1) (arg c 28 8) = false)
    (hshared : (sharedTargets.contains (arg c 24 1) && bothActive s) = false)
    (hlocked : (integrityTargets.contains (arg c 24 1) && s.fuse.oemLock) = false) (hroom : s.fault.injections.length < 4)
    (hunit : injectPresent s (arg c 24 1) (arg c 25 1) (arg c 28 8) = true)
    (hx : x = setCmd s { c with phase := .parked .injection, misc := [] }) :
    runFaultInject c s = fireNow { x with fault := { x.fault with injections := x.fault.injections ++ [askedInjection c] } }
      (arg c 24 1) (arg c 25 1) (arg c 26 1) := by
  subst hx
  have hallowed : ¬ (injectForeign s (arg c 24 1) (arg c 25 1) (arg c 28 8) || (sharedTargets.contains (arg c 24 1) && bothActive s)
      || (integrityTargets.contains (arg c 24 1) && s.fuse.oemLock) || decide (4 ≤ s.fault.injections.length)) = true := by
    rw [hforeign, hshared, hlocked]
    simpa using hroom
  exact (if_neg hallowed).trans (if_neg (by simp [hunit]))

theorem unitAbsent_faultInject {s : State} {c : Cmd} (ho : c.op = .faultInject) :
    unitAbsent s c = (injectRange c && !injectPresent s (arg c 24 1) (arg c 25 1) (arg c 28 8)) := by
  unfold unitAbsent
  rw [ho]

/-- Whatever the later checks would say: a packet that names an absent unit completes NOT_PRESENT. -/
theorem fetchStatus_of_unitAbsent {s : State} {c : Cmd} (e : Option Status) (ho : c.op ≠ .badOpcode) (hu : unitAbsent s c = true) :
    fetchStatus s c e = some .notPresent :=
  (if_neg ho).trans (if_pos (by simp [hu]))

/- The checkers that work in each cycle -/

section
variable (s : State) {t : Nat} (u b : Nat)

theorem fireNow_lockstep : fireNow s 0x0B u b = react s (capture s 0x0B u 2) false := rfl

theorem fireNow_of_integrity (ht : t = 0x0D ∨ t = 0x22 ∨ t = 0x23) : fireNow s t u b = react s (capture s t u 3) true := by
  rcases ht with rfl | rfl | rfl <;> rfl

theorem fireNow_of_waiting (hmem : t ≠ 0x02 ∧ t ≠ 0x03) (hlock : t ≠ 0x0B) (hint : integrityTargets.contains t = false) :
    fireNow s t u b = s := by
  unfold fireNow
  rw [if_neg (by simp [hmem]), if_neg hlock, if_neg (by rw [hint]; exact Bool.false_ne_true)]

end

/-- Settles O24: the two commands on records are their equations, an injection is armed before its checker is asked, and the checkers are split
by their target. -/
theorem faultCommandsComplete : Obligations.FaultCommandsComplete := by
  unfold Obligations.FaultCommandsComplete
  refine ⟨?read, ?clear, ?clearAbsent, ?inject, ?absent, ?waiting, ?integrity, fun s u b => fireNow_lockstep s u b⟩
  case read =>
    intro p s w c l out x h hl hout hx
    exact exec_faultRead_of_start h (runFaultRead_eq hl hout hx)
  case clear =>
    rintro p s w c _ h rfl hnamed
    exact exec_faultClear_of_start h (runFaultClear_of_named hnamed)
  case clearAbsent =>
    rintro p s w c _ h rfl hn hnone
    exact exec_faultClear_of_start h (runFaultClear_of_absent hn hnone)
  case inject =>
    intro p s w c x h hforeign hshared hlocked hroom hunit hx
    exact exec_faultInject_of_start h (runFaultInject_of_allowed hforeign hshared hlocked hroom hunit hx)
  case absent =>
    intro s c e ho hrange hunit
    exact fetchStatus_of_unitAbsent e (by simp [ho]) (by simp [unitAbsent_faultInject ho, hrange, hunit])
  case waiting =>
    intro s t u b ht
    have hne : t ≠ 0x02 ∧ t ≠ 0x03 ∧ t ≠ 0x0B ∧ t ≠ 0x0D ∧ t ≠ 0x22 ∧ t ≠ 0x23 := by simpa using ht
    obtain ⟨h02, h03, h0B, hint⟩ := hne
    exact fireNow_of_waiting s u b ⟨h02, h03⟩ h0B (by simpa [integrityTargets] using hint)
  case integrity =>
    intro s t u b ht
    exact fireNow_of_integrity s u b (by simpa using ht)

end Sys2Proof.Machine
end

section
/-! SUPPORT. The reactions to FATAL and INTEGRITY faults (14 R332, R335, R336; 01 R20, R21): what the record of a fault leaves as it was, what each
reaction halts, revokes and closes, and the statement that these settle. -/

namespace Sys2Proof.Machine

/- ### What the record of a fault leaves as it was (14 R330, R342, R343) -/

/-- A state beside its fault records: the log, the captures that wait to be forwarded, the counts, the injections and the free values that
a record draws. -/
def withoutRecords (s : State) : State :=
  { s with
    freeCtr := 0
    fault := { s.fault with log := [], forward := [], fseq := 0, firstSource := 0, lost := 0, injections := [] } }

/-- The machine beside what packets move and beside the fault records: a record completes the injection that it comes from. -/
def besideRecords (s : State) : State := withoutRecords (besidePackets s)

theorem besideRecords_of_besidePackets {s t : State} (h : besidePackets t = besidePackets s) : besideRecords t = besideRecords s :=
  congrArg withoutRecords h

theorem besideRecords_logCapture (s : State) (c : Capture) : besideRecords (logCapture s c) = besideRecords s := by
  unfold logCapture
  dsimp only
  split
  · rfl
  · split <;> rfl

theorem besideRecords_raise (s : State) (c : Capture) : besideRecords (raise s c) = besideRecords s := by
  unfold raise
  split
  · rfl
  · split
    · rfl
    · dsimp only
      generalize (if detailOpen c = true then { c with detail := BitVec.ofNat 64 (Config.freeNat s.freeCtr) } else c) = d
      have hdraw : besideRecords (if detailOpen d = true then bumpFree s else s) = besideRecords s := by
        split <;> rfl
      split
      · exact hdraw
      · exact (besideRecords_logCapture _ d).trans hdraw

theorem besideRecords_finishInjections (s : State) (src inst : Nat) : besideRecords (finishInjections s src inst) = besideRecords s :=
  List.foldlRecOn (motive := fun t => besideRecords t = besideRecords s) _ _ rfl
    (fun t ht c _ => (besideRecords_of_besidePackets (besidePackets_complete t c .ok _)).trans ht)

theorem besideRecords_fireInjection (s : State) (i : Injection) (c : Capture) : besideRecords (fireInjection s i c) = besideRecords s := by
  have hlast (y : State) (hy : besideRecords y = besideRecords s) :
      besideRecords (if y.fault.forward.any (fun x => sameInst x c.source c.inst) then y else finishInjections y c.source c.inst)
        = besideRecords s := by
    split
    · exact hy
    · exact (besideRecords_finishInjections y _ _).trans hy
  unfold fireInjection
  dsimp only
  generalize hx : raise _ _ = x
  have hraise : besideRecords x = besideRecords s := by
    rw [← hx, besideRecords_raise]
    rfl
  split
  · exact hlast _ hraise
  · exact hlast _ hraise

theorem besideRecords_raiseAt (s : State) (t u : Nat) (c : Capture) : besideRecords (raiseAt s t u c) = besideRecords s := by
  unfold raiseAt
  split
  · exact besideRecords_fireInjection s _ c
  · exact besideRecords_raise s c

/-- A part of the machine that neither packets nor fault records move is the same after a fault is reported. -/
theorem part_raiseAt {α : Type} (part : State → α) (hpart : ∀ s, part (besideRecords s) = part s) (s : State) (t u : Nat) (c : Capture) :
    part (raiseAt s t u c) = part s := by
  rw [← hpart, besideRecords_raiseAt, hpart]

@[simp] theorem raiseAt_laurelFatal (s : State) (t u : Nat) (c : Capture) : (raiseAt s t u c).fault.laurelFatal = s.fault.laurelFatal :=
  part_raiseAt (fun s => s.fault.laurelFatal) (fun _ => rfl) s t u c

@[simp] theorem raiseAt_haltLaurel (s : State) (t u : Nat) (c : Capture) : (raiseAt s t u c).fault.haltLaurel = s.fault.haltLaurel :=
  part_raiseAt (fun s => s.fault.haltLaurel) (fun _ => rfl) s t u c

@[simp] theorem raiseAt_custody (s : State) (t u : Nat) (c : Capture) : (raiseAt s t u c).custody = s.custody :=
  part_raiseAt State.custody (fun _ => rfl) s t u c

@[simp] theorem raiseAt_link (s : State) (t u : Nat) (c : Capture) : (raiseAt s t u c).pcie.link = s.pcie.link :=
  part_raiseAt (fun s => s.pcie.link) (fun _ => rfl) s t u c

/- ### The revoke of a lease (01 R20, R21) -/

theorem revokeLease_of_notGranted {s : State} (cause : Nat) (h : s.custody.state ≠ .granted) : revokeLease s cause = s :=
  if_pos h

/-- A revoke touches the custody registers alone, and no lease stays granted. -/
theorem revokeLease_form (s : State) (cause : Nat) :
    ∃ cu, revokeLease s cause = { s with custody := cu } ∧ cu.state ≠ .granted ∧ cu.noReturn = s.custody.noReturn := by
  by_cases hg : s.custody.state = .granted
  · rw [revokeLease_of_granted cause hg]
    exact ⟨_, rfl, CustodyState.noConfusion, rfl⟩
  · rw [revokeLease_of_notGranted cause hg]
    exact ⟨s.custody, rfl, hg, rfl⟩

@[simp] theorem revokeLease_fault (s : State) (cause : Nat) : (revokeLease s cause).fault = s.fault := by
  obtain ⟨_, h, -, -⟩ := revokeLease_form s cause
  rw [h]

theorem revokeLease_state_ne_granted (s : State) (cause : Nat) : (revokeLease s cause).custody.state ≠ .granted := by
  obtain ⟨_, h, hs, -⟩ := revokeLease_form s cause
  rw [h]
  exact hs

@[simp] theorem revokeLease_noReturn (s : State) (cause : Nat) : (revokeLease s cause).custody.noReturn = s.custody.noReturn := by
  obtain ⟨_, h, -, hn⟩ := revokeLease_form s cause
  rw [h]
  exact hn

/- ### The reactions (14 R332, R335, R336) -/

/-- The state in which the record of a Laurel FATAL is made: its engines are halted and the counters latched. -/
def laurelHalted (s : State) (c : Capture) : State :=
  let x := markDead (discardUnit (suppressAlive s) c.source c.inst) c.source c.inst
  haltSnapshot { x with fault := { x.fault with laurelFatal := true, haltLaurel := true } }

theorem laurelFatalWith_eq (s : State) (c : Capture) :
    laurelFatalWith s c =
      if c.laurel then raiseAt (laurelHalted s c) c.source c.inst c else revokeLease (raiseAt (laurelHalted s c) c.source c.inst c) 4 := rfl

theorem laurelFatalWith_halts (s : State) (c : Capture) :
    (laurelFatalWith s c).fault.laurelFatal = true ∧ (laurelFatalWith s c).fault.haltLaurel = true := by
  rw [laurelFatalWith_eq]
  split
  · rw [raiseAt_laurelFatal, raiseAt_haltLaurel]
    exact ⟨rfl, rfl⟩
  · rw [revokeLease_fault, raiseAt_laurelFatal, raiseAt_haltLaurel]
    exact ⟨rfl, rfl⟩

/-- Of a fault that Gorse itself detected the revoke is at once. -/
theorem laurelFatalWith_revokes {s : State} {c : Capture} (h : c.laurel = false) : (laurelFatalWith s c).custody.state ≠ .granted := by
  rw [laurelFatalWith_eq, if_neg (by simp [h])]
  exact revokeLease_state_ne_granted _ 4

/-- The state in which a Gorse FATAL revokes: its record is made, Gorse is halted and Laurel gets no lease again. -/
def gorseHalted (s : State) (c : Capture) : State :=
  let x := raiseAt (suppressAlive s) c.source c.inst c
  { x with fault := { x.fault with gorseFatal := true, haltGorse := true }, custody := { x.custody with noReturn := true } }

theorem gorseFatalWith_eq (s : State) (c : Capture) : gorseFatalWith s c = revokeLease (gorseHalted s c) 5 := rfl

theorem gorseFatalWith_halts (s : State) (c : Capture) :
    (gorseFatalWith s c).fault.gorseFatal = true ∧ (gorseFatalWith s c).fault.haltGorse = true
      ∧ (gorseFatalWith s c).custody.noReturn = true ∧ (gorseFatalWith s c).custody.state ≠ .granted := by
  rw [gorseFatalWith_eq, revokeLease_fault, revokeLease_noReturn]
  exact ⟨rfl, rfl, rfl, revokeLease_state_ne_granted _ 5⟩

theorem integrityWith_eq {s x y : State} {c : Capture} (hx : x = raiseAt (suppressAlive s) c.source c.inst c)
    (hy : y = wipeCams (wipeAudio { x with fault := { x.fault with integrity := true } })) :
    integrityWith s c = { laurelReset y with
      pcie := y.pcie, custody := { (laurelReset y).custody with state := .none, line := false, heldWake := false } } := by
  unfold integrityWith
  dsimp only
  rw [← hx, ← hy]

/-- The frame stores lie in the memories of tier 2. -/
theorem zeroStores_pcie (s : State) : (zeroStores s).pcie = s.pcie := by
  have hstore (t : State) (port : Nat) (g : CamConfig) : (zeroStore t port g).pcie = t.pcie := by
    unfold zeroStore
    split <;> rfl
  rw [zeroStores, hstore, hstore]

theorem integrityWith_link (s : State) (c : Capture) : (integrityWith s c).pcie.link = s.pcie.link := by
  rw [integrityWith_eq rfl rfl]
  dsimp only [wipeCams]
  rw [zeroStores_pcie]
  exact raiseAt_link (suppressAlive s) c.source c.inst c

/-- Settles O41: a reaction is split on the die that found the fault, the record of a fault leaves halts, custody and link alone, and a revoke is
split on whether the lease is granted. -/
theorem fatalFaultsHaltTheirDie : Obligations.FatalFaultsHaltTheirDie := by
  unfold Obligations.FatalFaultsHaltTheirDie
  refine ⟨laurelFatalWith_halts, ?found, gorseFatalWith_halts, ?lease, ?integrity, ?wiped, ?revoked, ?kept⟩
  case found => exact fun _ _ => laurelFatalWith_revokes
  case lease =>
    intro s c
    rw [integrityWith_link]
    exact ⟨rfl, rfl, rfl⟩
  case integrity => exact fun _ _ _ _ => integrityWith_eq
  case wiped => exact fun _ => ⟨rfl, rfl, rfl, rfl, rfl, rfl, rfl⟩
  case revoked =>
    intro s cause hg
    rw [revokeLease_of_granted cause hg]
    exact ⟨rfl, rfl, rfl, rfl⟩
  case kept => exact fun _ cause => revokeLease_of_notGranted cause

end Sys2Proof.Machine
end

section
/-! SUPPORT. Health messages, watchdogs, forwarded captures, the faults that an event reports and the monitors (14 R330, R332, R335, R336, R350; 20
R421, R426): one equation for each case of each event, and the statement that these settle. -/

namespace Sys2Proof.Machine

/- ### Health messages and watchdogs (14 R350) -/

section
variable {s : State} (hr : s.boot.laurelReleased = true) (ht : s.dlink.trained = true) (hc : domOn s domCtrl = true)
include hr ht hc

theorem healthMessage_of_halted (hh : s.fault.haltLaurel = true) :
    healthMessage s = { s with fault := { s.fault with healthAt := s.stb } } := by
  simp [healthMessage, hr, ht, hc, hh]

/-- Of a Laurel that runs the message ends its FATAL; only a fault of Gorse keeps ALIVE suppressed. -/
theorem healthMessage_of_running (hh : s.fault.haltLaurel = false) (hg : s.fault.gorseFatal = false) (hi : s.fault.integrity = false) :
    healthMessage s = { s with fault := { s.fault with healthAt := s.stb, laurelFatal := false, suppressFrom := none } } := by
  simp [healthMessage, hr, ht, hc, hh, hg, hi]

end

theorem healthLost_of_late {s : State} (ho : healthOwed s = true) (hf : s.fault.laurelFatal = false) (hl : s.fault.healthAt + 3072 ≤ s.stb) :
    healthLost s = laurelFatalWith s (capture s 0x1E 0 2) :=
  if_pos (by simp [ho, hf, watchTicks, hl])

section
variable {s : State} (hr : laurelRuns s = true) (hs : s.custody.state ≠ .relinquished)
include hr hs

theorem watchdogExpiry_cp0 (hk : s.fault.kickCp0 + 3072 ≤ s.stb) :
    watchdogExpiry .cp0 s = laurelFatalWith s (capture s 0x1D 0 2) :=
  if_pos (by simp [hr, hs, watchTicks, hk])

theorem watchdogExpiry_cp1 (hk : s.fault.kickCp1 + 3072 ≤ s.stb) :
    watchdogExpiry .cp1 s = laurelFatalWith s (capture s 0x1D 1 2) :=
  if_pos (by simp [hr, hs, watchTicks, hk])

end

/- ### Captures that Laurel forwards (14 R330) -/

/-- The forwarded capture is logged, and its injection completes. -/
def forwardLogged (s : State) (c : Capture) (rest : List Capture) : State :=
  finishInjections (logCapture { s with fault := { s.fault with forward := rest } } c) c.source c.inst

theorem captureForward_of_first {s : State} {c : Capture} {rest : List Capture} (hf : s.fault.forward = c :: rest)
    (ht : s.dlink.trained = true) (hr : s.boot.inReset = false) :
    captureForward s = if c.cls = 2 then revokeLease (forwardLogged s c rest) 4 else forwardLogged s c rest := by
  unfold captureForward
  rw [hf]
  exact if_neg (by simp [ht, hr])

/- ### Faults that an event reports (14 R332, R335, R336) -/

section
variable {s : State} {src inst : Nat} (hi : inst < 256)
include hi

theorem laurelFatalEvent_of_source (hr : s.boot.laurelReleased = true) (hsrc : src ∈ laurelFatalSources) :
    laurelFatalEvent src inst s = laurelFatalWith s (capture s src inst 2) :=
  if_pos (by simp [hr, hsrc, hi])

theorem integrityEvent_of_source (hr : s.boot.inReset = false) (hsrc : src ∈ integritySources) :
    integrityEvent src inst s = integrityWith s (capture s src inst 3) :=
  if_pos (by simp [hr, hsrc, hi])

/-- A watchdog's expiry is noted before its record is made. -/
theorem gorseFatalEvent_of_source {x : State} (hr : gorseRuns s = true) (hsrc : src ∈ gorseFatalSources)
    (hx : x = if src = 0x1C then { s with fault := { s.fault with gorseWdt := true } } else s) :
    gorseFatalEvent src inst s = gorseFatalWith x (capture x src inst 2) := by
  subst hx
  exact if_pos (by simp [hr, hsrc, hi])

theorem gorseFatalEvent_of_memory (hr : gorseRuns s = true) (hsrc : src ∈ [0x03, 0x04]) :
    gorseFatalEvent src inst s = gorseFatalWith s (capture s src inst 2) := by
  have hmem : src = 0x03 ∨ src = 0x04 := by simpa using hsrc
  refine gorseFatalEvent_of_source hi hr ?_ (if_neg ?_).symm
  · rcases hmem with rfl | rfl <;> decide
  · omega

theorem gorseFatalEvent_of_watchdog {x : State} (hr : gorseRuns s = true) (hx : x = { s with fault := { s.fault with gorseWdt := true } }) :
    gorseFatalEvent 0x1C inst s = gorseFatalWith x (capture x 0x1C inst 2) :=
  gorseFatalEvent_of_source hi hr (by decide) hx

end

theorem watchdogExpiry_gorse {s x : State} (hr : gorseRuns s = true) (hk : s.fault.kickGorse + 3072 ≤ s.stb)
    (hx : x = { s with fault := { s.fault with gorseWdt := true } }) :
    watchdogExpiry .gorse s = gorseFatalWith x (capture x 0x1C 0 2) :=
  (if_pos (by simp [hr, watchTicks, hk])).trans (gorseFatalEvent_of_watchdog (by decide) hr hx)

/- ### The monitors (20 R421, R426) -/

section
variable {s : State} (hr : s.boot.inReset = false)
include hr

theorem voltageTrip_of_gorse {rail : Rail} (h : rail = .vddAon ∨ rail = .vddGorse ∨ rail = .vddSram) :
    voltageTrip rail s = integrityWith s (capture s 0x1B 0 3) := by
  unfold voltageTrip
  rw [if_neg (by simp [hr])]
  rcases h with rfl | rfl | rfl <;> rfl

theorem voltageTrip_of_laurel {rail : Rail} (ha : rail ≠ .vddAon) (hg : rail ≠ .vddGorse) (hs : rail ≠ .vddSram) :
    voltageTrip rail s = laurelFatalWith s (capture s 0x1A 0 2) := by
  unfold voltageTrip
  rw [if_neg (by simp [hr])]
  cases rail
  case vddAon => exact absurd rfl ha
  case vddGorse => exact absurd rfl hg
  case vddSram => exact absurd rfl hs
  all_goals rfl

theorem clockTrip_of_gorse {clk : ClockMon} (h : clk = .crystal ∨ clk = .gorse) :
    clockTrip clk s = integrityWith s (capture s 0x19 0 3) := by
  unfold clockTrip
  rw [if_neg (by simp [hr])]
  rcases h with rfl | rfl <;> rfl

theorem clockTrip_of_laurel (hl : s.boot.laurelReleased = true) : clockTrip .laurel s = laurelFatalWith s (capture s 0x18 0 2) :=
  (if_neg (by simp [hr])).trans (if_pos hl)

end

/-- Settles O40: each event is the equation of its case, with the watchdog of Gorse as the FATAL of its own source. -/
theorem faultReports : Obligations.FaultReports := by
  unfold Obligations.FaultReports
  refine ⟨?halted, ?running, ?lost, ?gorseWatchdog, ?cp0, ?cp1, ?forward, ?forwardFatal, ?laurelFatal, ?gorseFatal, ?gorseFatalWatchdog,
    ?integrity, ?gorseRail, ?laurelRail, ?gorseClock, ?laurelClock, fun _ _ _ _ => ⟨rfl, rfl, rfl⟩⟩
  case halted => exact fun _ hr ht hc hh => exec_direct rfl (healthMessage_of_halted hr ht hc hh)
  case running => exact fun _ hr ht hc hh hg hi => exec_direct rfl (healthMessage_of_running hr ht hc hh hg hi)
  case lost =>
    rintro s _ rfl ho hf hl
    exact exec_event rfl (healthLost_of_late ho hf hl)
  case gorseWatchdog =>
    rintro s _ x rfl hr hk hx
    exact exec_event rfl (watchdogExpiry_gorse hr hk hx)
  case cp0 =>
    rintro s _ rfl hr hs hk
    exact exec_event rfl (watchdogExpiry_cp0 hr hs hk)
  case cp1 =>
    rintro s _ rfl hr hs hk
    exact exec_event rfl (watchdogExpiry_cp1 hr hs hk)
  case forward =>
    rintro s _ c rest rfl hf ht hr hcls
    exact exec_event rfl ((captureForward_of_first hf ht hr).trans (if_neg hcls))
  case forwardFatal =>
    rintro s _ c rest rfl hf ht hr hcls
    exact exec_event rfl ((captureForward_of_first hf ht hr).trans (if_pos hcls))
  case laurelFatal =>
    rintro s _ src inst rfl hr hsrc hi
    exact exec_event rfl (laurelFatalEvent_of_source hi hr hsrc)
  case gorseFatal =>
    rintro s _ src inst rfl hr hsrc hi
    exact exec_event rfl (gorseFatalEvent_of_memory hi hr hsrc)
  case gorseFatalWatchdog =>
    rintro s _ x inst rfl hr hi hx
    exact exec_event rfl (gorseFatalEvent_of_watchdog hi hr hx)
  case integrity =>
    rintro s _ src inst rfl hr hsrc hi
    exact exec_event rfl (integrityEvent_of_source hi hr hsrc)
  case gorseRail =>
    rintro s _ rail rfl hr h
    exact exec_event rfl (voltageTrip_of_gorse hr h)
  case laurelRail =>
    rintro s _ rail rfl hr ha hg hs
    exact exec_event rfl (voltageTrip_of_laurel hr ha hg hs)
  case gorseClock =>
    rintro s _ clk rfl hr h
    exact exec_event rfl (clockTrip_of_gorse hr h)
  case laurelClock =>
    rintro s _ rfl hr hl
    exact exec_event rfl (clockTrip_of_laurel hr hl)

end Sys2Proof.Machine
end

section
/-! SUPPORT. ALIVE and TEST_STOP (14 R349, R350; 21 R437): one equation for each case of an edge and of the test, and the statements that these
settle. -/

namespace Sys2Proof.Machine

theorem aliveEdge_of_stopped {s : State} (h : s.fault.aliveRun = false) : aliveEdge s = s :=
  if_pos (by simp [h])

theorem aliveEdge_of_inside {s : State} (h : s.stb % 1536 ≠ 0) : aliveEdge s = s :=
  if_pos (by simp [h])

section
variable {s : State} (hr : s.fault.aliveRun = true) (hm : s.stb % 1536 = 0) (hl : s.fault.lastEdge ≠ s.stb)
include hr hm hl

theorem aliveEdge_of_free (hc : aliveCause s = 0) :
    aliveEdge s = { s with fault := { s.fault with
      level := !s.fault.level, suppressed := false, aliveCause := 0, edges := s.fault.edges + 1, lastEdge := s.stb } } :=
  (if_neg (by simp [hr, hm, hl])).trans (if_pos hc)

theorem aliveEdge_of_suppressed (hc : aliveCause s ≠ 0) :
    aliveEdge s = { s with fault := { s.fault with suppressed := true, aliveCause := aliveCause s, lastEdge := s.stb } } :=
  (if_neg (by simp [hr, hm, hl])).trans (if_neg hc)

end

/-- Settles O30: an edge is split on whether ALIVE runs, on the tick and on the cause of suppression. -/
theorem aliveEdges : Obligations.AliveEdges := by
  unfold Obligations.AliveEdges
  refine ⟨⟨rfl, rfl⟩, ?stopped, ?inside, ?free, ?suppressed⟩
  case stopped => exact fun _ h => exec_direct rfl (aliveEdge_of_stopped h)
  case inside => exact fun _ h => exec_direct rfl (aliveEdge_of_inside h)
  case free => exact fun _ hr hm hl hc => exec_direct rfl (aliveEdge_of_free hr hm hl hc)
  case suppressed => exact fun _ hr hm hl hc => exec_direct rfl (aliveEdge_of_suppressed hr hm hl hc)

/- ### TEST_STOP (21 R437) -/

section
variable {s : State} {b : BitVec 7} (he : s.i3c.enabled = true) (hr : s.boot.inReset = false) (ha : s.i3c.addr = some b)
  (hl : s.fuse.oemLock = false)
include he hr ha hl

theorem writeTestStop_of_start : writeTestStop true s = { s with fault := { s.fault with testStop := true, testAt := s.stb } } :=
  if_neg (by simp [i3cDirect_of_addressed he hr ha, hl])

theorem writeTestStop_of_end : writeTestStop false s = { s with fault := { s.fault with testStop := false } } :=
  if_neg (by simp [i3cDirect_of_addressed he hr ha, hl])

end

theorem writeTestStop_of_locked {s : State} (v : Bool) (hl : s.fuse.oemLock = true) : writeTestStop v s = s :=
  if_pos (by simp [hl])

/-- The test is a cause of suppression whatever else is. -/
theorem aliveCause_of_testStop {s : State} (h : s.fault.testStop = true) : aliveCause s ≠ 0 := by
  unfold aliveCause
  dsimp only
  rw [h, Bool.true_or, if_pos rfl]
  split_ifs <;> decide

/-- While the test stands, an edge changes neither the level nor the count, and nothing is logged. -/
theorem aliveEdge_of_testStop {s : State} (h : s.fault.testStop = true) :
    (aliveEdge s).fault.level = s.fault.level ∧ (aliveEdge s).fault.edges = s.fault.edges ∧ (aliveEdge s).fault.log = s.fault.log := by
  unfold aliveEdge
  dsimp only
  rw [if_neg (aliveCause_of_testStop h)]
  split <;> exact ⟨rfl, rfl, rfl⟩

theorem testStopExpiry_of_elapsed {s : State} (h : s.fault.testStop = true) (ht : s.fault.testAt + 12288 ≤ s.stb) :
    testStopExpiry s = { s with fault := { s.fault with testStop := false } } :=
  if_pos (by simp [h, testTicks, ht])

theorem testStopExpiry_of_early {s : State} (ht : s.stb < s.fault.testAt + 12288) : testStopExpiry s = s :=
  if_neg (by simp [testTicks, Nat.not_le.mpr ht])

/-- Settles O29: a write is split on OEM_LOCK and the bit, an expiry on the time since the write; the test is a cause of suppression. -/
theorem testStopSuppressesAlive : Obligations.TestStopSuppressesAlive := by
  unfold Obligations.TestStopSuppressesAlive
  refine ⟨?start, ?stop, ?locked, ?stands, ?elapsed, ?early, ?resumes⟩
  case start => exact fun _ _ he hr ha hl => exec_direct rfl (writeTestStop_of_start he hr ha hl)
  case stop => exact fun _ _ he hr ha hl => exec_direct rfl (writeTestStop_of_end he hr ha hl)
  case locked => exact fun _ v hl => exec_direct rfl (writeTestStop_of_locked v hl)
  case stands => exact fun s h => ⟨aliveEdge s, exec_direct rfl rfl, aliveEdge_of_testStop h⟩
  case elapsed => exact fun _ h ht => exec_direct rfl (testStopExpiry_of_elapsed h ht)
  case early => exact fun _ ht => exec_direct rfl (testStopExpiry_of_early ht)
  case resumes => exact fun _ hr hm hl hc => exec_direct rfl (aliveEdge_of_free hr hm hl hc)

end Sys2Proof.Machine
end

section
/-! SUPPORT. The I3C target (16 R370, R383; 21 R435, R436): one equation for each common command code and each wake register, and the statements
that these settle. -/

namespace Sys2Proof.Machine

section
variable {s : State} (hu : i3cUp s = true)
include hu

theorem entdaa_of_unaddressed (a : BitVec 7) (hn : s.i3c.addr = none) : entdaa a s = { s with i3c := { s.i3c with addr := some a } } :=
  if_pos (by simp [hu, hn])

theorem rstdaa_of_up : rstdaa s = { s with i3c := { s.i3c with addr := none } } :=
  if_pos hu

theorem syncMark_of_up (m : Byte) : syncMark m s = { s with i3c := { s.i3c with mark := m, markValid := true, latch := s.stb } } :=
  if_pos hu

end

section
variable {s : State} (hd : i3cDirect s = true)
include hd

theorem setnewda_of_direct (a : BitVec 7) : setnewda a s = { s with i3c := { s.i3c with addr := some a } } :=
  if_pos hd

theorem getpid_of_direct : getpid s = answer s (natLe 6 (provisionalId s)).reverse :=
  if_pos hd

theorem getbcr_of_direct : getbcr s = answer s [0x00] :=
  if_pos hd

theorem getdcr_of_direct : getdcr s = answer s [0x00] :=
  if_pos hd

theorem getstatus_of_direct :
    getstatus s = { answer s [0x00, BitVec.ofNat 8 (32 * b2n s.i3c.protoErr)] with i3c := { s.i3c with protoErr := false } } := by
  have hbyte : (natLe 1 (32 * b2n s.i3c.protoErr)).getD 0 0 = BitVec.ofNat 8 (32 * b2n s.i3c.protoErr) := by
    cases s.i3c.protoErr <;> rfl
  rw [← hbyte]
  exact if_pos hd

theorem clearWakePending_of_set {v : Byte} (hv : v.getLsbD 7 = true) :
    clearWakePending v s = { s with listen := { s.listen with wakePending := false } } :=
  if_pos (by simp [hd, hv])

theorem readWakeCounts_of_direct :
    readWakeCounts s = { answer s (natLe 4 (wakeCounts s)) with listen := { s.listen with extraWakes := 0, privPresses := 0 } } :=
  if_neg (by simp [hd])

end

theorem clearWakePending_of_clear {s : State} {v : Byte} (hv : v.getLsbD 7 = false) : clearWakePending v s = s :=
  if_neg (by rw [hv, Bool.and_false]; exact Bool.false_ne_true)

/-- Settles O27: each command code is its equation for a target that is up, with an address where the code asks for one. -/
theorem sidebandCccsAnswer : Obligations.SidebandCccsAnswer := by
  unfold Obligations.SidebandCccsAnswer
  refine ⟨?entdaa, ?rstdaa, ?setnewda, ?getpid, ?getbcr, ?getdcr, ?getstatus, ?mark⟩
  case entdaa => exact fun _ a he hr hn => exec_direct rfl (entdaa_of_unaddressed (i3cUp_of_enabled he hr) a hn)
  case rstdaa => exact fun _ he hr => exec_direct rfl (rstdaa_of_up (i3cUp_of_enabled he hr))
  case setnewda => exact fun _ a _ he hr ha => exec_direct rfl (setnewda_of_direct (i3cDirect_of_addressed he hr ha) a)
  case getpid => exact fun _ _ he hr ha => exec_direct rfl (getpid_of_direct (i3cDirect_of_addressed he hr ha))
  case getbcr => exact fun _ _ he hr ha => exec_direct rfl (getbcr_of_direct (i3cDirect_of_addressed he hr ha))
  case getdcr => exact fun _ _ he hr ha => exec_direct rfl (getdcr_of_direct (i3cDirect_of_addressed he hr ha))
  case getstatus => exact fun _ _ he hr ha => exec_direct rfl (getstatus_of_direct (i3cDirect_of_addressed he hr ha))
  case mark => exact fun _ m he hr => exec_direct rfl (syncMark_of_up (i3cUp_of_enabled he hr) m)

/-- Settles O28: a write is split on its bit, and a read answers before it clears. -/
theorem wakeStatusRegisters : Obligations.WakeStatusRegisters := by
  unfold Obligations.WakeStatusRegisters
  refine ⟨?clear, ?ignored, ?read⟩
  case clear => exact fun _ _ _ he hr ha hv => exec_direct rfl (clearWakePending_of_set (i3cDirect_of_addressed he hr ha) hv)
  case ignored => exact fun _ _ hv => exec_direct rfl (clearWakePending_of_clear hv)
  case read => exact fun _ _ he hr ha => exec_direct rfl (readWakeCounts_of_direct (i3cDirect_of_addressed he hr ha))

end Sys2Proof.Machine
end

section
/-! SUPPORT. The events of the power domains (01 R16, R24; 02 R36; 15 R353, R355, R358): one equation for each case of each event, and the statement
that these settle. -/

namespace Sys2Proof.Machine

/- ### Busy and idle edges and the idle timers (15 R353) -/

/-- An edge at or before the expiry of a timer undoes it. -/
def markBusy (stamp : Nat) (x : Dom) : Dom :=
  { x with busy := true, expiredAt := match x.expiredAt with | some e => if stamp ≤ e then none else some e | none => none }

section
variable {s : State} {d t : Nat}

section
variable (hr : gorseRuns s = true) (hp : domPresent s.fuse.part d = true) (ht : t ≤ s.stb) (hl : d < 0x10 ∨ s.dlink.trained = true)
include hr hp ht hl

/-- The edge of a present domain comes over a trained link, or from Gorse's own side of it. -/
theorem edge_heard :
    ¬ (!gorseRuns s || !domPresent s.fuse.part d || decide (s.stb < t) || (decide (0x10 ≤ d) && !s.dlink.trained)) = true := by
  rcases hl with hd | htr
  · simp [hr, hp, ht, hd]
  · simp [hr, hp, ht, htr]

theorem busyEdge_of_heard (k : Demand) :
    busyEdge d t k s = demandDom (updDom s d (markBusy t)) d (demandOf k).1 (demandOf k).2 :=
  if_neg (edge_heard hr hp ht hl)

theorem idleEdge_of_heard :
    idleEdge d t s = updDom s d (fun x => { x with busy := false, idleAt := t, expiredAt := none }) :=
  if_neg (edge_heard hr hp ht hl)

end

theorem busyEdge_of_future (k : Demand) (h : s.stb < t) : busyEdge d t k s = s :=
  if_pos (by simp [h])

theorem idleTimerExpiry_of_elapsed {n : Nat} (hr : gorseRuns s = true) (hp : domPresent s.fuse.part d = true)
    (hb : (domOf s d).busy = false) (he : (domOf s d).expiredAt = none) (ht : timerOf (domOf s d) = some (n, t)) (hs : t ≤ s.stb)
    (hc : n ≤ (domOf s d).ceiling) : idleTimerExpiry d s = updDom s d (fun x => { x with expiredAt := some t }) := by
  unfold idleTimerExpiry
  dsimp only
  rw [if_pos (by simp [hr, hp, hb, he]), ht]
  exact if_pos ⟨hs, hc⟩

theorem idleTimerExpiry_of_busy (hb : (domOf s d).busy = true) : idleTimerExpiry d s = s := by
  unfold idleTimerExpiry
  dsimp only
  rw [if_neg (by simp [hb])]

end

/- ### Entries (15 R355; 01 R24) -/

section
variable {s : State} {d e n t : Nat} (hx : (domOf s d).expiredAt = some e) (ht : timerOf (domOf s d) = some (n, t)) (he : e + 8 ≤ s.stb)
  (hr : gorseRuns s = true) (hh : s.fault.haltGorse = false)
include hx ht he hr hh

/-- 8 tk after the expiry the entry is tried; a Laurel domain needs the link for it. -/
theorem entryStart_of_window :
    entryStart d s = if 0x10 ≤ d ∧ s.dlink.trained = false then refuseEntry s d d 8 else startEntry s d n none false := by
  unfold entryStart
  dsimp only
  rw [hx, ht]
  exact if_neg (by simp [Nat.not_lt.mpr he, hr, hh])

theorem entryStart_of_linked (hl : d < 0x10 ∨ s.dlink.trained = true) : entryStart d s = startEntry s d n none false := by
  refine (entryStart_of_window hx ht he hr hh).trans (if_neg fun h => ?_)
  rcases hl with hd | htr
  · omega
  · simp [htr] at h

end

section
variable {s : State} {d : Nat} (he : (domOf s d).state = .entering)
include he

theorem clockStopPoint_of_due (hs : (domOf s d).stopped = false) (ht : (domOf s d).entryAt + 8 ≤ s.stb) :
    clockStopPoint d s =
      if d = domCtrl ∧ s.custody.state = .granted then
        relinquishLease (updDom s d (fun x => { x with stopped := true, frozenAt := s.stb }))
      else updDom s d (fun x => { x with stopped := true, frozenAt := s.stb }) :=
  if_neg (by simp [he, hs, Nat.not_lt.mpr ht])

variable (hs : (domOf s d).stopped = true)
include hs

/-- The domain once its entry has completed: RET or OFF, with the entry counted. -/
def entryDone (s : State) (x : Dom) : Dom :=
  { bookTime s x with
    state := if x.target = 2 then .off else .ret, entries := x.entries + 1, stopped := false, fromRet := false, byHost := none }

theorem entryComplete_of_timer {x : State} (hb : (domOf s d).byHost = none) (hx : x = traceDomain (updDom s d (entryDone s)) d) :
    entryComplete d s = pumpReturns (entered x d (domOf s d).target) := by
  subst hx
  unfold entryComplete
  dsimp only
  rw [if_neg (by simp [he, hs]), hb]
  rfl

/-- With an entry that a command asked for the command completes, but for a power-down that goes on. -/
theorem entryComplete_of_host {x y : State} {n : Nat} {c : Cmd} (hb : (domOf s d).byHost = some n)
    (hx : x = traceDomain (updDom s d (entryDone s)) d) (hy : y = entered x d (domOf s d).target) (hc : cmdOf y n = some c) :
    entryComplete d s = pumpReturns (if c.aux = 2 ∧ d ≠ domCtrl then y else policyDone y c 0 0xFF) := by
  subst hy hx
  unfold entryDone at hc
  unfold entryComplete
  dsimp only
  rw [if_neg (by simp [he, hs]), hb, Option.bind_some, hc]
  rfl

end

/- ### Returns (15 R358; 01 R16; 02 R36) -/

section
variable {s : State} {d : Nat} (hret : (domOf s d).state = .returning) (hr : gorseRuns s = true)
include hret hr

/-- Retained firmware that fails its check is reported, and the return goes on for the longer delay. -/
theorem returnComplete_of_badFirmware {x : State} (hbad : badRetained s (domOf s d) = true)
    (hx : x = { s with
      power := { s.power with fwRetained := false }
      store := { s.store with poison := s.store.poison.filter (fun l => !retainedLine l) } }) :
    returnComplete d s = updDom (raise x (capture s 0x27 0 0)) d (fun y => { y with entryAt := s.stb }) := by
  subst hx
  exact (if_neg (by simp [hret, hr])).trans (if_pos hbad)

variable (hgood : badRetained s (domOf s d) = false) {x : State}
  (hx : x = traceDomain (updDom s d (fun x => { bookTime s x with state := .on, target := 0, idleAt := s.stb, expiredAt := none })) d)
include hgood hx

theorem returnComplete_of_gorse (hd : d < 0x10) :
    returnComplete d s =
      pumpReturns (returned (if d = domListen && x.listen.stage1 then startLookBack x else x) d (domOf s d).target) := by
  subst hx
  unfold returnComplete
  dsimp only
  rw [if_neg (by simp [hret, hr]), if_neg (by simp [hgood]), if_neg (Nat.not_le.mpr hd)]

/-- A Laurel domain's mirror loads the tick at which its return was due, which is coarse. -/
theorem returnComplete_of_laurel (hd : 0x10 ≤ d) :
    returnComplete d s = pumpReturns (returned (setMirror x
      { dom := d, offset := (((domOf s d).entryAt + returnDelay s (domOf s d) : Nat) : Int) - x.stb, uncertain := true })
      d (domOf s d).target) := by
  have hlisten : d ≠ domListen := by
    rintro rfl
    exact absurd hd (by decide)
  subst hx
  unfold returnComplete
  dsimp only
  rw [if_neg (by simp [hret, hr]), if_neg (by simp [hgood]), if_pos hd, if_neg (by simp [hlisten])]

end

/-- Settles O47: each event is split on the state of its domain, and an entry or a return on the side of the link that the domain lies on. -/
theorem powerEvents : Obligations.PowerEvents := by
  unfold Obligations.PowerEvents
  refine ⟨?busy, ?future, ?idle, ?expiry, ?expiryBusy, ?start, ?unlinked, ?stop, ?stopCtrl, ?complete, ?completeHost, ?backGorse,
    ?backLaurel, ?badFirmware⟩
  case busy =>
    rintro s _ d t k rfl hr hp ht hl
    exact exec_event rfl (busyEdge_of_heard hr hp ht hl k)
  case future =>
    rintro s _ d t k rfl h
    exact exec_event rfl (busyEdge_of_future k h)
  case idle =>
    rintro s _ d t rfl hr hp ht hl
    exact exec_event rfl (idleEdge_of_heard hr hp ht hl)
  case expiry =>
    rintro s _ d n t rfl hr hp hb he ht hs hc
    exact exec_event rfl (idleTimerExpiry_of_elapsed hr hp hb he ht hs hc)
  case expiryBusy =>
    rintro s _ d rfl hb
    exact exec_event rfl (idleTimerExpiry_of_busy hb)
  case start =>
    rintro s _ d e n t rfl hx ht he hr hh hl
    exact exec_event rfl (entryStart_of_linked hx ht he hr hh hl)
  case unlinked =>
    rintro s _ d e n t rfl hx ht he hr hh hd hl
    exact exec_event rfl ((entryStart_of_window hx ht he hr hh).trans (if_pos ⟨hd, hl⟩))
  case stop =>
    rintro s _ d rfl he hs ht hd
    exact exec_event rfl ((clockStopPoint_of_due he hs ht).trans (if_neg fun h => hd h.1))
  case stopCtrl =>
    rintro s _ rfl he hs ht hg
    exact exec_event rfl ((clockStopPoint_of_due he hs ht).trans (if_pos ⟨rfl, hg⟩))
  case complete =>
    rintro s _ d x rfl he hs hb hx
    exact exec_event rfl (entryComplete_of_timer he hs hb hx)
  case completeHost =>
    rintro s _ x y d n c rfl he hs hb hx hy hc
    exact exec_event rfl (entryComplete_of_host he hs hb hx hy hc)
  case backGorse =>
    rintro s _ d x rfl hret hr hgood hd hx
    exact exec_event rfl (returnComplete_of_gorse hret hr hgood hx hd)
  case backLaurel =>
    rintro s _ d x rfl hret hr hgood hd hx
    exact exec_event rfl (returnComplete_of_laurel hret hr hgood hx hd)
  case badFirmware =>
    rintro s _ d x rfl hret hr hbad hx
    exact exec_event rfl (returnComplete_of_badFirmware hret hr hbad hx)

end Sys2Proof.Machine
end

section
/-! SUPPORT. `GROUP_JOIN`, `PEER_SEND`, `PEER_CREDIT` and `GROUP_LEAVE` (16 R374, R376 to R378, R381): what each does in the state in which it
starts and when it goes on, and the statement that these settle. -/

namespace Sys2Proof.Machine

section
variable {s : State} {c : Cmd}

theorem runCmd_groupJoin (h : c.op = .groupJoin) : runCmd c s = runGroupJoin c s := by
  unfold runCmd
  rw [h]

theorem runCmd_peerSend (h : c.op = .peerSend) : runCmd c s = runPeerSend c s := by
  unfold runCmd
  rw [h]

theorem runCmd_peerCredit (h : c.op = .peerCredit) : runCmd c s = runPeerCredit c s := by
  unfold runCmd
  rw [h]

theorem runCmd_groupLeave (h : c.op = .groupLeave) : runCmd c s = runGroupLeave c s := by
  unfold runCmd
  rw [h]

theorem resumeCmd_peerSend (h : c.op = .peerSend) : resumeCmd c s = resumePeerSend c s := by
  unfold resumeCmd
  rw [h]

theorem resumeCmd_groupLeave (h : c.op = .groupLeave) : resumeCmd c s = resumeGroupLeave c s := by
  unfold resumeCmd
  rw [h]

end

section
variable {p : Packet} {s w t : State} {c : Cmd}

theorem exec_groupJoin_of_start (h : startOf .groupJoin 0xB0 p s = some (c, w)) (hrun : runGroupJoin c w = t) :
    exec (.groupJoin p) s = .next (ensuing t) :=
  exec_start rfl h (fun ho => (runCmd_groupJoin ho).trans hrun)

theorem exec_peerSend_of_start (h : startOf .peerSend 0xB1 p s = some (c, w)) (hrun : runPeerSend c w = t) :
    exec (.peerSend p) s = .next (ensuing t) :=
  exec_start rfl h (fun ho => (runCmd_peerSend ho).trans hrun)

theorem exec_peerCredit_of_start (h : startOf .peerCredit 0xB2 p s = some (c, w)) (hrun : runPeerCredit c w = t) :
    exec (.peerCredit p) s = .next (ensuing t) :=
  exec_start rfl h (fun ho => (runCmd_peerCredit ho).trans hrun)

theorem exec_groupLeave_of_start (h : startOf .groupLeave 0xB3 p s = some (c, w)) (hrun : runGroupLeave c w = t) :
    exec (.groupLeave p) s = .next (ensuing t) :=
  exec_start rfl h (fun ho => (runCmd_groupLeave ho).trans hrun)

end

/- ### GROUP_JOIN (16 R374, R375) -/

theorem runGroupJoin_of_allowed {s x : State} {c : Cmd} (hg : s.group.state = 0)
    (ho : areasOverlap ((joinUnits c).map (joinPeer c)) = false) (hj : joinObjects s ((joinUnits c).map (joinPeer c)) = true)
    (hx : x = { s with group := { s.group with
      state := 1, groupId := BitVec.ofNat 32 (blk c 4 4), self := blk c 2 1, units := blk c 3 1, joinGen := s.group.joinGen + 1
      joinAt := ctrlStamp s, joinCmd := some c.id, peers := (joinUnits c).map (joinPeer c) } }) :
    runGroupJoin c s = writeBlocks (setCmd x { c with phase := .parked .join, res := natLe 2 (s.group.joinGen + 1).toNat }) := by
  subst hx
  exact if_neg (by simp [hg, ho, hj])

/- ### PEER_SEND (16 R377, R378, R380) -/

/-- A `PEER_SEND` passes the checks of its start: its source is the session's, and the peer takes units and has the room. -/
structure SendAllowed (s : State) (c : Cmd) (q : Peer) : Prop where
  source : ownsRange s .pf0 (tierOf (arg c 28 8)) (offOf (arg c 28 8)) (arg c 36 4) = true
  joined : s.group.state = 2
  peer : peerOf s (arg c 24 1) = some q
  present : q.present = true
  whole : q.broken = false
  room : arg c 40 4 + dstBytes c (arg c 36 4) ≤ q.advLen

theorem runPeerSend_of_allowed {s : State} {c : Cmd} {q : Peer} (h : SendAllowed s c q) :
    runPeerSend c s = setCmd s { c with phase := .parked .turn } := by
  unfold runPeerSend
  dsimp only
  rw [if_neg (by simp [h.source]), if_neg (by simp [h.joined]), h.peer]
  exact (if_neg (by simp [h.present, h.whole])).trans (if_neg (Nat.not_lt.mpr h.room))

/-- At its turn the send takes its first unit. -/
theorem resumePeerSend_of_turn {s : State} {c : Cmd} {q : Peer} (hp : c.phase = .parked .turn) (hq : livePeer s (arg c 24 1) = some q)
    (ha : sendAhead s c = false) (hw : hostWritable s .pf0 false = true) : resumePeerSend c s = some (sendUnit c s) := by
  unfold resumePeerSend
  rw [if_neg (by simp [hp]), hq]
  exact if_neg (by simp [ha, hw, hp])

section
variable {s : State} {c : Cmd} {q : Peer} (hq : livePeer s (arg c 24 1) = some q)
include hq

theorem sendUnit_of_noCredit (hc : creditsOf q = 0) : sendUnit c s = leaveLink (setCmd s { c with phase := .parked .credit }) .pf0 := by
  unfold sendUnit
  rw [hq]
  exact if_pos (.inr hc)

/-- The send ends with its last unit, and waits for the next tick with another. -/
theorem sendUnit_of_credit {x y : State} {d : Cmd} {n off : Nat} (hw : hostWritable s .pf0 false = true) (hc : creditsOf q ≠ 0)
    (hoff : off = offOf (arg c 28 8) + 4096 * c.cnt) (hn : n = min 4096 (arg c 36 4 - 4096 * c.cnt))
    (hread : checkedRead s c (dmaMaster c.fn) (tierOf (arg c 28 8)) off n = (x, none))
    (hcommit : commitUnit c q (tierRead x (tierOf (arg c 28 8)) off n) x = (y, d)) :
    sendUnit c s = if d.cnt = ceilDiv (arg c 36 4) 4096 then complete (dropWork y d) d .ok d.res
      else setCmd y { d with phase := .parked .units } := by
  subst hoff hn
  unfold sendUnit
  rw [hq]
  dsimp only
  rw [if_neg (by simpa [hw] using hc), hread]
  dsimp only
  rw [if_neg (by simp), hcommit]

end

/-- A tick commits a unit of the `PEER_SEND` whose path is open, whose deadline stands and whose domains are on. -/
theorem workUnit_of_peerSend {s : State} {c : Cmd} (hop : c.op = .peerSend) (hc : cmdOf s c.id = some c) (hph : c.phase = .parked .units)
    (hpath : pathOpen s c = true) (hdue : overdue s c = false) (hon : allOn s (cmdDoms s c) = true) :
    workUnit s c.id = sendUnit c s := by
  unfold workUnit
  rw [hc]
  dsimp only
  rw [if_neg (by simp [hph, hpath, hdue, hon]), if_neg (by simp [hop]), if_neg (by simp [hop]), if_pos hop]

/- ### PEER_CREDIT (16 R381) -/

theorem runPeerCredit_of_received {s : State} {c : Cmd} {q : Peer} (hg : s.group.state = 2) (hp : peerOf s (arg c 24 1) = some q)
    (hq : livePeer s (arg c 24 1) = some q) (hn : arg c 28 4 ≤ (q.rxNext - q.returned).toNat) :
    runPeerCredit c s = complete (writeBlocks (setPeer s { q with returned := q.returned + BitVec.ofNat 32 (arg c 28 4) })) c .ok
      (natLe 4 (q.returned + BitVec.ofNat 32 (arg c 28 4)).toNat) := by
  unfold runPeerCredit
  dsimp only
  rw [if_neg (by simp [hg]), if_neg (by simp [hp]), hq]
  exact if_neg (Nat.not_lt.mpr hn)

/- ### GROUP_LEAVE (16 R376) -/

section
variable {s : State} {c : Cmd}

theorem runGroupLeave_of_abort (h : arg c 24 1 = 1) :
    runGroupLeave c s = complete (resetGroup (endAll s (sendsBefore s c) .cancelled) true) c .ok :=
  if_pos h

theorem runGroupLeave_of_waiting (h : arg c 24 1 ≠ 1) :
    runGroupLeave c s = setCmd s { c with phase := .parked .others, awaited := sendsBefore s c } :=
  if_neg h

theorem resumeGroupLeave_of_ended (h : stillOpen s c.awaited = false) : resumeGroupLeave c s = some (complete (resetGroup s true) c .ok) :=
  if_neg (by simp [h])

end

/-- Settles O26: each command is the equation of its start, and a send and a leave that can go on do so as parked commands do. -/
theorem groupCommandsComplete : Obligations.GroupCommandsComplete := by
  unfold Obligations.GroupCommandsComplete
  refine ⟨?join, ?joined, ?send, ?sendTurn, ?unit, ?noCredit, ?tick, ?credit, ?abort, ?leave, ?leaveEnds⟩
  case join =>
    intro p s w c x h hg ho hj hx
    exact exec_groupJoin_of_start h (runGroupJoin_of_allowed hg ho hj hx)
  case joined =>
    intro s c ho hj hall
    rw [resumeCmd_groupJoin ho, resumeGroupJoin_of_joining hj, if_pos hall]
  case send =>
    intro p s w c q h hs hg hp hpr hb hroom
    exact exec_peerSend_of_start h (runPeerSend_of_allowed ⟨hs, hg, hp, hpr, hb, hroom⟩)
  case sendTurn =>
    intro p s w u c d q r h hs hg hp hpr hb hroom hgo hop hph hr ha hw
    rw [← ensuing_goesOn hgo ((resumeCmd_peerSend hop).trans (resumePeerSend_of_turn hph hr ha hw))]
    exact exec_peerSend_of_start h (runPeerSend_of_allowed ⟨hs, hg, hp, hpr, hb, hroom⟩)
  case unit => exact fun _ _ _ _ _ _ _ _ hq hw hc hoff hn hread => sendUnit_of_credit hq hw hc hoff hn hread
  case noCredit => exact fun _ _ _ hq _ hc => sendUnit_of_noCredit hq hc
  case tick => exact fun _ _ => workUnit_of_peerSend
  case credit =>
    intro p s w c q h hg hp hq hn
    exact exec_peerCredit_of_start h (runPeerCredit_of_received hg hp hq hn)
  case abort =>
    intro p s w c h ha
    exact exec_groupLeave_of_start h (runGroupLeave_of_abort ha)
  case leave =>
    intro p s w c h ha
    exact exec_groupLeave_of_start h (runGroupLeave_of_waiting ha)
  case leaveEnds =>
    intro p s w c d v h ha hgo hop hended
    rw [← ensuing_goesOn hgo ((resumeCmd_groupLeave hop).trans (resumeGroupLeave_of_ended hended))]
    exact exec_groupLeave_of_start h (runGroupLeave_of_waiting ha)

end Sys2Proof.Machine
end

section
/-! SUPPORT. Control blocks, slot headers, absent peers and the limit of a join (16 R372 to R374, R379, R380): one equation for each case of each
event, and the statement that these settle. -/

namespace Sys2Proof.Machine

/-- An event whose ends rank before the deadlines of its tick acts on the state that `sweepOld` leaves. -/
theorem exec_eventEnd {i : Instr} {f : State → State} {s t : State} (hrow : exec i s = .next (duringEnd f s)) (hf : f (sweepOld s) = t) :
    exec i s = .next (settleLate t) := by
  rw [hrow, duringEnd, hf]

/- ### Control blocks (16 R372, R373) -/

theorem controlBlockWrite_of_group {s : State} (hg : s.group.state ≠ 0) (hr : laurelRuns s = true) : controlBlockWrite s = writeBlocks s :=
  if_neg (by simp [hg, hr])

theorem controlBlockWrite_of_none {s : State} (hg : s.group.state = 0) : controlBlockWrite s = s :=
  if_pos (.inl hg)

section
variable {s : State} {w : Nat} (hr : laurelRuns s = true)
include hr

theorem controlBlock_of_peer {b : ControlBlock} {p q : Peer} (hp : peerOf s w = some p) (hq : q = takeBlock s p b) :
    controlBlock w b s = endAbsent
      (if p.broken ≠ q.broken ∨ p.rxNext ≠ q.rxNext ∨ p.returned ≠ q.returned then writeBlocks (setPeer s q) else setPeer s q) w := by
  subst hq
  unfold controlBlock
  rw [if_neg (by simp [hr]), hp]

theorem controlBlock_of_stranger (b : ControlBlock) (hp : peerOf s w = none) : controlBlock w b s = ignoreWrite s := by
  unfold controlBlock
  rw [if_neg (by simp [hr]), hp]

/- ### Slot headers (16 R371, R379) -/

theorem slotHeader_of_stranger (h : SlotHeader) (d : List Byte) (hp : (peerOf s w).filter (·.present) = none) :
    slotHeader w h d s = ignoreWrite s := by
  unfold slotHeader
  rw [if_neg (by simp [hr]), hp]

variable {p : Peer} (hp : peerOf s w = some p) (hpr : p.present = true)
include hp hpr

theorem slotHeader_of_peer (h : SlotHeader) (d : List Byte) :
    slotHeader w h d s =
      if p.broken then s
      else if h.pseq ≠ p.rxNext ∨ (crc32c d = h.ucrc ∧ p.rxLen < h.dstOff + unitSpan h.dstFmt d) then breakPair s p
      else receiveUnit s p h d := by
  unfold slotHeader
  rw [if_neg (by simp [hr]), hp, Option.filter_some, if_pos hpr]

theorem slotHeader_of_broken (h : SlotHeader) (d : List Byte) (hb : p.broken = true) : slotHeader w h d s = s :=
  (slotHeader_of_peer hr hp hpr h d).trans (if_pos hb)

variable (hb : p.broken = false) {h : SlotHeader} {d : List Byte}
include hb

theorem slotHeader_of_bad (hbad : h.pseq ≠ p.rxNext ∨ (crc32c d = h.ucrc ∧ p.rxLen < h.dstOff + unitSpan h.dstFmt d)) :
    slotHeader w h d s = breakPair s p :=
  (slotHeader_of_peer hr hp hpr h d).trans ((if_neg (by simp [hb])).trans (if_pos hbad))

theorem slotHeader_of_good (hseq : h.pseq = p.rxNext) (hfits : crc32c d = h.ucrc → h.dstOff + unitSpan h.dstFmt d ≤ p.rxLen) :
    slotHeader w h d s = receiveUnit s p h d := by
  refine (slotHeader_of_peer hr hp hpr h d).trans ((if_neg (by simp [hb])).trans (if_neg ?_))
  rintro (hother | ⟨hcrc, hlong⟩)
  · exact hother hseq
  · exact Nat.not_lt.mpr (hfits hcrc) hlong

end

/-- What follows once a unit lies in the receive area, or its range is poisoned: the pair moves on, and the semaphore is signalled. -/
def unitTaken (x : State) (p : Peer) (h : SlotHeader) : State :=
  tracePeer (writeBlocks (signalSem (setPeer x { p with
    rxNext := p.rxNext + 1, stamp := (peerStamp x.group p.unit h.stamp).1, foreign := (peerStamp x.group p.unit h.stamp).2 }) p.rxSem))
    0x0A h.layerId h.opId h.xseq h.pseq p.unit

section
variable {s : State} (p : Peer) {h : SlotHeader} {d : List Byte}

theorem receiveUnit_of_decoded {bs : List Byte} (hcrc : crc32c d = h.ucrc) (hd : decodeUnit h.dstFmt d = some bs) :
    receiveUnit s p h d = unitTaken (tierWrite s 2 (offOf p.rxBase.toNat + h.dstOff) bs) p h := by
  unfold receiveUnit
  dsimp only
  rw [if_pos hcrc, hd]
  rfl

theorem receiveUnit_of_badPayload (hcrc : crc32c d ≠ h.ucrc) :
    receiveUnit s p h d =
      unitTaken (poisonRange s (offOf p.rxBase.toNat + h.dstOff) (min (unitSpan h.dstFmt d) (p.rxLen - h.dstOff))) p h := by
  unfold receiveUnit
  dsimp only
  rw [if_neg hcrc]
  rfl

end

/- ### Absent peers and the limit of a join (16 R373, R374) -/

theorem peerAbsent_of_silent {s : State} {w : Nat} {p : Peer} (hp : peerOf s w = some p) (hpr : p.present = true)
    (ht : p.lastBlock + 9216 ≤ ctrlStamp s) : peerAbsent w s = endAbsent (setPeer s { p with present := false }) w := by
  unfold peerAbsent
  rw [hp, Option.filter_some, if_pos hpr]
  exact if_neg (Nat.not_lt.mpr ht)

/-- A peer heard of lately stays; one that is absent already does too. -/
theorem peerAbsent_of_heard {s : State} {w : Nat} {p : Peer} (hp : peerOf s w = some p) (ht : ctrlStamp s < p.lastBlock + 9216) :
    peerAbsent w s = s := by
  unfold peerAbsent
  rw [hp, Option.filter_some]
  cases p.present with
  | true => exact if_pos ht
  | false => rfl

theorem groupJoinTimeout_of_late {s : State} {n : Nat} {c : Cmd} (hj : s.group.joinCmd = some n) (hc : cmdOf s n = some c)
    (hd : c.dl = none) (ht : s.group.joinAt + 3072000 ≤ ctrlStamp s) : groupJoinTimeout s = endCmd s c .groupAbsent := by
  unfold groupJoinTimeout
  rw [hj, Option.bind_some, hc]
  exact if_pos ⟨hd, ht⟩

/-- Settles O51: an event of a peer is split on whether the unit is one, a slot header on the pair, the sequence and the range, and its unit on
the check sum of the payload. -/
theorem controlBlocksJoinAndRepair : Obligations.ControlBlocksJoinAndRepair := by
  unfold Obligations.ControlBlocksJoinAndRepair
  refine ⟨?write, ?noGroup, ?block, ?blockStranger, ?good, ?bad, ?broken, ?slotStranger, ?decoded, ?badPayload, ?silent, ?heard, ?limit⟩
  case write =>
    rintro s _ rfl hg hr
    exact exec_event rfl (controlBlockWrite_of_group hg hr)
  case noGroup =>
    rintro s _ rfl hg
    exact exec_event rfl (controlBlockWrite_of_none hg)
  case block =>
    rintro s _ w b p q rfl hr hp hq
    exact exec_eventEnd rfl (controlBlock_of_peer hr hp hq)
  case blockStranger =>
    rintro s _ w b rfl hr hp
    exact exec_eventEnd rfl (controlBlock_of_stranger hr b hp)
  case good =>
    rintro s _ w h d p rfl hr hp hpr hb hseq hfits
    exact exec_eventEnd rfl (slotHeader_of_good hr hp hpr hb hseq hfits)
  case bad =>
    rintro s _ w h d p rfl hr hp hpr hb hbad
    exact exec_eventEnd rfl (slotHeader_of_bad hr hp hpr hb hbad)
  case broken =>
    rintro s _ w h d p rfl hr hp hpr hb
    exact exec_eventEnd rfl (slotHeader_of_broken hr hp hpr h d hb)
  case slotStranger =>
    rintro s _ w h d rfl hr hp
    exact exec_eventEnd rfl (slotHeader_of_stranger hr h d hp)
  case decoded =>
    rintro s _ p h d bs hcrc hd rfl
    exact receiveUnit_of_decoded p hcrc hd
  case badPayload =>
    rintro s _ p h d hcrc rfl
    exact receiveUnit_of_badPayload p hcrc
  case silent =>
    rintro s _ w p rfl hp hpr ht
    exact exec_eventEnd rfl (peerAbsent_of_silent hp hpr ht)
  case heard =>
    rintro s _ w p rfl hp ht
    exact exec_eventEnd rfl (peerAbsent_of_heard hp ht)
  case limit =>
    rintro s _ n c rfl hj hc hd ht
    exact exec_event rfl (groupJoinTimeout_of_late hj hc hd ht)

end Sys2Proof.Machine
end

section
/-! SUPPORT. `COUNTER_READ`, `TRACE_CONFIG`, `WATCH_SET` and `TIME_SYNC` (16 R384; 17 R388 to R390, R395, R396): what each does in the state in which
it starts, and the statement that these settle. -/

namespace Sys2Proof.Machine

section
variable {s : State} {c : Cmd}

theorem runCmd_counterRead (h : c.op = .counterRead) : runCmd c s = runCounterRead c s := by
  unfold runCmd
  rw [h]

theorem runCmd_traceConfig (h : c.op = .traceConfig) : runCmd c s = runTraceConfig c s := by
  unfold runCmd
  rw [h]

theorem runCmd_watchSet (h : c.op = .watchSet) : runCmd c s = runWatchSet c s := by
  unfold runCmd
  rw [h]

theorem runCmd_timeSync (h : c.op = .timeSync) : runCmd c s = runTimeSync c s := by
  unfold runCmd
  rw [h]

end

section
variable {p : Packet} {s w t : State} {c : Cmd}

theorem exec_counterRead_of_start (h : startOf .counterRead 0xA0 p s = some (c, w)) (hrun : runCounterRead c w = t) :
    exec (.counterRead p) s = .next (ensuing t) :=
  exec_start rfl h (fun ho => (runCmd_counterRead ho).trans hrun)

theorem exec_traceConfig_of_start (h : startOf .traceConfig 0xA1 p s = some (c, w)) (hrun : runTraceConfig c w = t) :
    exec (.traceConfig p) s = .next (ensuing t) :=
  exec_start rfl h (fun ho => (runCmd_traceConfig ho).trans hrun)

theorem exec_watchSet_of_start (h : startOf .watchSet 0xA2 p s = some (c, w)) (hrun : runWatchSet c w = t) :
    exec (.watchSet p) s = .next (ensuing t) :=
  exec_start rfl h (fun ho => (runCmd_watchSet ho).trans hrun)

theorem exec_timeSync_of_start (h : startOf .timeSync 0xA3 p s = some (c, w)) (hrun : runTimeSync c w = t) :
    exec (.timeSync p) s = .next (ensuing t) :=
  exec_start rfl h (fun ho => (runCmd_timeSync ho).trans hrun)

end

/- ### COUNTER_READ (17 R388 to R390) -/

section
variable {s : State} {c : Cmd}

theorem runCounterRead_of_new (ha : arg c 24 1 = 0) :
    runCounterRead c s =
      setCmd { s with obs := { s.obs with snapWaiting := s.obs.snapWaiting ++ [c.id] } } { c with phase := .parked .snapshot } :=
  if_pos ha

theorem runCounterRead_of_halt (ha : arg c 24 1 = 1) (hh : s.obs.haltHeld = true) :
    runCounterRead c s = counterRecords s c s.obs.haltAt 0 s.obs.halt :=
  (if_neg (by omega)).trans (if_pos hh)

theorem counterDone_eq {x : State} (snap smear : Nat) {n : Nat} (frozen : Bool) {recs : List (List Byte)}
    (hn : n = recordsThatFit c ((recs.headD []).length) recs.length)
    (hx : x = if n = 0 then s else writeDest s c (arg c 32 8) (recs.take n).flatten) :
    counterDone s c snap smear frozen recs = complete x c .ok (natLe 8 snap ++ natLe 2 n ++ natLe 1 smear ++
      natLe 1 (b2n frozen + 2 * b2n x.obs.restarted + 4 * b2n x.obs.overflow.isSome + 8 * b2n (decide (n < recs.length)))) := by
  subst hx hn
  rfl

end

/- ### TRACE_CONFIG (17 R395) -/

/-- The settings that a `TRACE_CONFIG` gives a destination. -/
def askedTrace (c : Cmd) (t : TraceDest) : TraceDest :=
  { t with events := BitVec.ofNat 16 (arg c 26 2), filterLayer := BitVec.ofNat 16 (arg c 28 2), filterOp := BitVec.ofNat 16 (arg c 30 2) }

/-- A new host ring, with nothing staged and its numbering begun again. -/
def askedRing (c : Cmd) : TraceDest := { log2 := arg c 25 1, base := BitVec.ofNat 64 (arg c 32 8), countAddr := BitVec.ofNat 64 (arg c 40 8) }

/-- The port's part of a `TRACE_CONFIG`: what is staged goes out under the old settings. -/
def configurePort (c : Cmd) (y : State) : State :=
  { portDrain y with
    obs := { (portDrain y).obs with trace1 := askedTrace c (portDrain y).obs.trace1 }
    pins := { (portDrain y).pins with traceClk := decide (arg c 26 2 ≠ 0) } }

theorem runTraceConfig_eq {s x y : State} {c : Cmd} (hx : x = hostOut (flushTrace s) .pf0 (arg c 40 8) (zeroBytes 8))
    (hy : y = if bit (arg c 24 1) 0 then { x with obs := { x.obs with trace0 := askedTrace c (askedRing c) } } else s) :
    runTraceConfig c s = complete (if bit (arg c 24 1) 1 then configurePort c y else y) c .ok
      (natLe 4 (if bit (arg c 24 1) 0 then 0 else
        (if bit (arg c 24 1) 1 then (askedTrace c (portDrain y).obs.trace1).tseq.toNat else y.obs.trace1.tseq.toNat))) := by
  subst hx hy
  unfold runTraceConfig
  dsimp only
  cases bit (arg c 24 1) 1 <;> rfl

/- ### WATCH_SET (17 R396) -/

/-- The watch that a `WATCH_SET` arms. -/
def askedWatch (c : Cmd) : Watch :=
  { slot := arg c 25 1, kind := arg c 26 1, layerId := BitVec.ofNat 16 (arg c 28 2), opId := BitVec.ofNat 16 (arg c 30 2)
    left := arg c 32 4, written := 0, dest := BitVec.ofNat 64 (arg c 40 8) }

section
variable {s : State} {c : Cmd}

theorem runWatchSet_of_badField (hf : watchFields c = false) : runWatchSet c s = complete (endWatch s (arg c 25 1)) c .badParam :=
  if_pos (by simp [hf])

theorem runWatchSet_of_arm {x : State} (hf : watchFields c = true) (ha : arg c 24 1 = 0) (hx : x = endWatch s (arg c 25 1)) :
    runWatchSet c s = complete { x with obs := { x.obs with watches := x.obs.watches ++ [askedWatch c] } } c .ok (natLe 4 (ctrlStamp x)) := by
  subst hx
  unfold runWatchSet
  dsimp only
  rw [if_neg (by simp [hf]), if_pos ha]
  rfl

theorem runWatchSet_of_end (hf : watchFields c = true) (ha : arg c 24 1 ≠ 0) :
    runWatchSet c s = complete (endWatch s (arg c 25 1)) c .ok (natLe 4 (ctrlStamp (endWatch s (arg c 25 1)))) := by
  unfold runWatchSet
  dsimp only
  rw [if_neg (by simp [hf]), if_neg ha]

end

/- ### TIME_SYNC (16 R384) -/

theorem runTimeSync_of_joined {s : State} {c : Cmd} (hg : s.group.state = 2) (hself : argS c (28 + 8 * s.group.self) 8 = 0)
    (hmark : arg c 24 1 = 1 → s.i3c.markValid = true ∧ arg c 25 1 = s.i3c.mark.toNat) :
    runTimeSync c s = complete
      { s with group := { s.group with mode := arg c 24 1, offsets := (List.range 4).map (fun u => argS c (28 + 8 * u) 8) } } c .ok
      (natLe 8 s.i3c.latch) := by
  refine (if_neg (not_not_intro hg)).trans (if_neg ?_)
  rintro (hother | ⟨hm, hstale⟩)
  · exact hother hself
  · obtain ⟨hvalid, hsame⟩ := hmark hm
    simp [hvalid, hsame] at hstale

/-- Settles O25: each command is the equation of its case; a `TRACE_CONFIG` is one for both of its destinations. -/
theorem observationCommandsComplete : Obligations.ObservationCommandsComplete := by
  unfold Obligations.ObservationCommandsComplete
  refine ⟨?new, ?halt, ?records, ?trace, ?arm, ?endOnly, ?badField, ?sync⟩
  case new =>
    intro p s w c h ha
    exact exec_counterRead_of_start h (runCounterRead_of_new ha)
  case halt =>
    intro p s w c h ha hh
    exact exec_counterRead_of_start h (runCounterRead_of_halt ha hh)
  case records => exact fun _ _ snap smear _ frozen _ _ => counterDone_eq snap smear frozen
  case trace =>
    rintro p s w x y c _ h rfl hx hy
    exact exec_traceConfig_of_start h (runTraceConfig_eq hx hy)
  case arm =>
    intro p s w c x h hf ha hx
    exact exec_watchSet_of_start h (runWatchSet_of_arm hf ha hx)
  case endOnly =>
    intro p s w c h hf ha
    exact exec_watchSet_of_start h (runWatchSet_of_end hf ha)
  case badField =>
    intro p s w c h hf
    exact exec_watchSet_of_start h (runWatchSet_of_badField hf)
  case sync =>
    intro p s w c h hg hself hmark
    exact exec_timeSync_of_start h (runTimeSync_of_joined hg hself hmark)

/- ### The snapshot broadcast (17 R388, R389) -/

/-- Ticks that a broadcast takes to a domain. -/
def arrivalDelay (arrivals : List (Nat × Nat)) (d : Nat) : Nat := min 2 (((arrivals.find? (fun a => a.1 == d)).map (·.2)).getD 0)

section
variable {s : State} (arrivals : List (Nat × Nat))

theorem snapshotBroadcast_of_waiting {l : List CounterRec} {n : Nat} (hr : laurelRuns s = true) (ho : domOn s domObs = true)
    (hw : s.obs.snapWaiting ≠ []) (ha : s.obs.snapAt = none)
    (hl : l = (catalogue s).map (latchCounter s (fun d => s.stb + arrivalDelay arrivals d)))
    (hn : n = (l.map (fun r => if r.frozen then 0 else arrivalDelay arrivals r.dom)).foldl max 0) :
    snapshotBroadcast arrivals s = s.obs.snapWaiting.foldl (serveSnapshot s.stb n l)
      { s with freeCtr := s.freeCtr + counterDraws, obs := { s.obs with snapAt := some (s.stb + n), snapWaiting := [] } } := by
  subst hn hl
  unfold snapshotBroadcast
  dsimp only
  rw [ha, if_neg (by simp [hr, ho, hw])]
  rfl

theorem snapshotBroadcast_of_none (hw : s.obs.snapWaiting = []) : snapshotBroadcast arrivals s = s :=
  if_pos (by simp [hw])

end

section
variable {s : State} {f : Nat → Nat} {id i : Nat}

theorem latchCounter_of_on (h : domOn s (counterDom id i) = true) :
    (latchCounter s f (id, i)).arrival = f (counterDom id i) ∧ (latchCounter s f (id, i)).frozen = false :=
  ⟨if_pos h, by simp [latchCounter, h]⟩

theorem latchCounter_of_stopped (h : domOn s (counterDom id i) = false) :
    (latchCounter s f (id, i)).arrival = (domOf s (counterDom id i)).frozenAt ∧ (latchCounter s f (id, i)).frozen = true :=
  ⟨if_neg (by simp [h]), by simp [latchCounter, h]⟩

theorem latchCounter_value {c : Counter} (hopen : ¬ (0x10 ≤ id ∧ id ≤ 0x15))
    (hc : s.obs.counters.find? (fun c => c.id == id && c.inst == i) = some c) : (latchCounter s f (id, i)).value = c.value := by
  unfold latchCounter
  dsimp only
  rw [if_neg hopen, hc]
  rfl

end

/-- Settles O52: a broadcast is split on whether a read waits, and a latched counter on whether its domain is on. -/
theorem snapshotServesRequests : Obligations.SnapshotServesRequests := by
  unfold Obligations.SnapshotServesRequests
  refine ⟨?serve, ?none, fun _ _ _ _ => latchCounter_of_on, fun _ _ _ _ => latchCounter_of_stopped, fun _ _ _ _ _ => latchCounter_value⟩
  case serve =>
    rintro s _ ar _ l n rfl hr ho hw ha rfl hl hn
    exact exec_event rfl (snapshotBroadcast_of_waiting ar hr ho hw ha hl hn)
  case none =>
    rintro s _ ar rfl hw
    exact exec_event rfl (snapshotBroadcast_of_none ar hw)

end Sys2Proof.Machine
end

section
/-! SUPPORT. The start-up (19 R403 to R409, R413, R414): the writes before CAPS_VALID, the stages of the boot chain, the recovery loader and
the reset state, and the statements that these settle. -/

namespace Sys2Proof.Machine

/- ### Writes while CAPS_VALID is clear (19 R409) -/

section
variable {s : State} (fn : Fn) (hc : s.boot.capsValid = false)
include hc

theorem ringSplitWrite_of_notCapsValid (v : U32) : ringSplitWrite fn v s = s := by
  have h : writeRingSplit s fn v = s := if_neg (by simp [hc])
  rw [ringSplitWrite, h, ite_self]

theorem partitionWrite_of_notCapsValid (v : U32) : partitionWrite fn v s = s := by
  have h : writePartition s fn v = s := if_pos (by simp [hc])
  rw [partitionWrite, h, ite_self]

theorem memConfigWrite_of_notCapsValid (v : U64) : memConfigWrite fn v s = s := by
  have h : writeMemConfig s fn v = s := if_pos (by simp [hc])
  rw [memConfigWrite, h, ite_self]

theorem mayEnable_of_notCapsValid : mayEnable s fn = false := by
  simp [mayEnable, hc]

theorem adminEnableWrite_one_of_notCapsValid {v : U32} (hb : barReached s = true) (hr : s.boot.recovery = false)
    (hv : v.getLsbD 0 = true) (he : (admin s fn).enable = false) :
    adminEnableWrite fn v s = setAdmin s fn { admin s fn with error := true } := by
  rw [adminEnableWrite, if_pos (by simp [hb, hr]), writeAdminEnable, if_pos hv]
  dsimp only
  rw [if_neg (by simp [he]), if_neg (by simp [mayEnable_of_notCapsValid fn hc])]

theorem adminEnableWrite_zero_of_notCapsValid {v : U32} (hv : v.getLsbD 0 = false) : adminEnableWrite fn v s = s := by
  have h : writeAdminEnable s fn v = s := by
    rw [writeAdminEnable, if_neg (by rw [hv]; exact Bool.false_ne_true), if_pos (by simp [hc])]
  rw [adminEnableWrite, h, ite_self]

end

/-- Settles O33: each write stops at its test of CAPS_VALID. -/
theorem writesBeforeCapsValid : Obligations.WritesBeforeCapsValid := by
  unfold Obligations.WritesBeforeCapsValid
  refine ⟨?ringSplit, ?partition, ?memConfig, ?enable, ?disable⟩
  case ringSplit =>
    rintro s _ fn v rfl hc
    exact exec_event rfl (ringSplitWrite_of_notCapsValid fn hc v)
  case partition =>
    rintro s _ fn v rfl hc
    exact exec_event rfl (partitionWrite_of_notCapsValid fn hc v)
  case memConfig =>
    rintro s _ fn v rfl hc
    exact exec_event rfl (memConfigWrite_of_notCapsValid fn hc v)
  case enable =>
    rintro s _ fn v rfl hc hb hr hv he
    exact exec_event rfl (adminEnableWrite_one_of_notCapsValid fn hc hb hr hv he)
  case disable =>
    rintro s _ fn v rfl hc hv
    exact exec_event rfl (adminEnableWrite_zero_of_notCapsValid fn hc hv)

/- ### The release from reset and the checks of the ROM (19 R403, R405) -/

theorem gorseResetRelease_of_inReset {s x : State} (h : s.boot.inReset = true)
    (hx : x = { s with stb := 0, boot := { s.boot with inReset := false }, pins := { s.pins with grstN := true, clkreqLow := true }
                       root := { s.root with kemId := 1, kemPair := s.freeCtr } }) :
    gorseResetRelease s = if s.pins.privN then bumpFree x else privNLow (bumpFree x) := by
  subst hx
  exact if_neg (by simp [h])

section
variable {s : State} (hr : s.boot.inReset = false) (hs : s.boot.stage = 0)
include hr hs

theorem romChecksDone_of_stage0 (dirOk : Bool) : romChecksDone dirOk s =
    (let failed := if dirOk then failedImages s else 63
     if failed ≠ 0 then enterRecovery failed s
     else demandDom (raiseSvn
       { s with boot := { s.boot with stage := 1 }, fw := { s.fw with running := s.fw.nor, norState := [0, 0, 0, 0, 0, 0] }
                i3c := { s.i3c with enabled := true }, fault := { s.fault with aliveRun := true, kickGorse := s.stb } }) domCtrl 0x00 0x06) :=
  if_neg (by simp [hr, hs])

theorem romChecksDone_of_goodImages {x : State} (hf : failedImages s = 0)
    (hx : x = { s with boot := { s.boot with stage := 1 }, fw := { s.fw with running := s.fw.nor, norState := [0, 0, 0, 0, 0, 0] }
                       i3c := { s.i3c with enabled := true }, fault := { s.fault with aliveRun := true, kickGorse := s.stb } }) :
    romChecksDone true s = demandDom (raiseSvn x) domCtrl 0x00 0x06 := by
  rw [romChecksDone_of_stage0 hr hs, hx]
  exact if_neg (not_not_intro hf)

theorem romChecksDone_of_failedImages (hf : failedImages s ≠ 0) : romChecksDone true s = enterRecovery (failedImages s) s :=
  (romChecksDone_of_stage0 hr hs true).trans (if_pos hf)

theorem romChecksDone_of_noDirectory : romChecksDone false s = enterRecovery 63 s :=
  (romChecksDone_of_stage0 hr hs false).trans (if_pos (Nat.succ_ne_zero 62))

end

/- ### The release of Laurel (01 R17) -/

/-- What a release sets on Laurel's side of the die link, before the domains of the first one start. -/
def releasedLaurel (s : State) : State :=
  { s with boot := { s.boot with laurelReleased := true, stage := if s.boot.capsValid then 4 else 2 }
           dlink := { s.dlink with trained := false, limitAt := some (s.stb + 8192), limitDir := 0, replaysGL := 0, replaysLG := 0 }
           custody := { s.custody with grantAsked := true }
           sess0 := { s.sess0 with opened := 0 }
           sess1 := { s.sess1 with opened := 0 }
           fault := { s.fault with healthAt := s.stb, kickCp0 := s.stb, kickCp1 := s.stb } }

/-- The digest of the running LAUREL_CP is the one that Laurel's memory keeps. -/
def keepDigest (s : State) : State :=
  { s with power := { s.power with fwRetained := true, fwKept := (runningOf s 3).digest, fwDigest := (runningOf s 3).digest } }

/-- LINK and the MEM domains return, and the counters start, at the first release. -/
def startFirst (s : State) : State :=
  demandDom (demandDom (demandDom { s with obs := { s.obs with restarted := false } } domLink 0x00 0x06) domMema 0x00 0x06) domMemb 0x00 0x06

/-- Laurel may be released: GORSE_MAIN runs, nothing holds Laurel, and CTRL is ON. -/
structure Releasable (s : State) : Prop where
  runs : gorseRuns s = true
  notReleased : s.boot.laurelReleased = false
  notHeld : s.boot.laurelHeld = false
  mayReturn : s.custody.noReturn = false
  notHalted : s.fault.haltGorse = false
  ctrlOn : domOn s domCtrl = true

theorem laurelRelease_of_verified {s : State} (h : Releasable s) (hv : laurelVerified s = true) :
    laurelRelease s = keepDigest (if s.boot.capsValid then releasedLaurel s else startFirst (releasedLaurel s)) := by
  unfold laurelRelease
  rw [if_neg (by simp [h.runs, h.notReleased, h.notHeld, h.mayReturn, h.notHalted, h.ctrlOn, hv])]
  cases hc : s.boot.capsValid with
  | true =>
    unfold releasedLaurel
    simp only [hc]
    rfl
  | false =>
    unfold releasedLaurel
    simp only [hc]
    rfl

theorem laurelRelease_of_notVerified {s : State} (hv : laurelVerified s = false) : laurelRelease s = s :=
  if_pos (by simp [hv])

/- ### The end of training (19 R406, R407) -/

/-- The channels of this part that did not train and have no spare yet. -/
def untrainedChannels (s : State) (failed : List Nat) : List Nat :=
  (failed.filter (fun ch => decide (ch / 8 < unitsOf s.fuse.part) && !s.dram.moved.any (fun m => m.1 == ch))).dedup

theorem trainingDone_of_memOn {s x y : State} {full : Bool} {failed : List Nat} (hs : s.boot.stage = 2) (hr : s.boot.inReset = false)
    (ha : domOn s domMema = true) (hb : domPresent s.fuse.part domMemb = false ∨ domOn s domMemb = true)
    (hx : x = (untrainedChannels s failed).foldl untrained s)
    (hy : y = { x with boot := { x.boot with trainFull := full || !x.fw.trainValid }, fw := { x.fw with trainValid := true } }) :
    trainingDone full failed s =
      if x.dram.outGroups.toNat.testBit 0 then { y with boot := { y.boot with stage := 15 } }
      else demandDom
        { y with boot := { y.boot with stage := 3 }
                 dram := { y.dram with groupsUp := BitVec.ofNat 4 (maskOf ((List.range 4).filter (groupPresent y))) } } domNand 0x00 0x06 := by
  have hmem : (domOn s domMema && (!domPresent s.fuse.part domMemb || domOn s domMemb)) = true := by simp [ha, hb]
  subst hy
  rw [hx]
  unfold trainingDone
  dsimp only
  rw [if_neg (by simp [hs, hr, hmem])]
  rfl

/- ### The mount of the flash (12 R301; 19 R408) -/

theorem ftlMountDone_of_nandOn {s x : State} {failed : List Nat} (hs : s.boot.stage = 3) (hr : s.boot.inReset = false)
    (hn : domOn s domNand = true) (hx : x = discardKeyless ((unitList (nandPresent s)).foldl (mountChannel failed) s)) :
    ftlMountDone failed s =
      { x with boot := { x.boot with stage := 4, capsValid := true, mountReplay := !x.boot.orderly, mapGen := 0 } } := by
  rw [hx]
  exact if_neg (by simp [hs, hr, hn])

theorem nandCh_updNand_same (s : State) {n : Nat} (f : NandCh → NandCh) (h : n < s.nand.length) :
    nandCh (updNand s n f) n = f (nandCh s n) := by
  simp [nandCh, updNand, h]

theorem mountChannel_of_failed {failed : List Nat} {n : Nat} (s : State) (h : failed.contains n = true) :
    mountChannel failed s n = raise s (capture s 0x14 n 1) :=
  if_pos h

theorem mountChannel_inService {failed : List Nat} {s : State} {n : Nat} (h : failed.contains n = false) (hn : n < s.nand.length) :
    (nandCh (mountChannel failed s n) n).inService = true := by
  unfold mountChannel
  rw [if_neg (by rw [h]; exact Bool.false_ne_true)]
  dsimp only
  rw [nandCh_updNand_same (bumpFree s) _ hn]

/-- Settles O35: one equation for each stage, split on what the stage depends on. -/
theorem bootChain : Obligations.BootChain := by
  unfold Obligations.BootChain
  refine ⟨?release, ?goodImages, ?failedImages, ?noDirectory, ?laurel, ?notVerified, ?training, ?mount, ?channel, ?reset, ?resetFields⟩
  case release =>
    rintro s _ x rfl hr hx
    exact exec_event rfl (gorseResetRelease_of_inReset hr hx)
  case goodImages =>
    rintro s _ x rfl hr hs hf hx
    exact exec_event rfl (romChecksDone_of_goodImages hr hs hf hx)
  case failedImages =>
    rintro s _ rfl hr hs hf
    exact exec_event rfl (romChecksDone_of_failedImages hr hs hf)
  case noDirectory =>
    rintro s _ rfl hr hs
    exact exec_event rfl (romChecksDone_of_noDirectory hr hs)
  case laurel =>
    rintro s _ x y z rfl hg hl hh hn hhalt hc hv hx hy hz
    have hrel : Releasable (sweep s) := ⟨hg, hl, hh, hn, hhalt, hc⟩
    subst hy
    rw [hz, hx]
    exact exec_event rfl (laurelRelease_of_verified hrel hv)
  case notVerified =>
    rintro s _ rfl hv
    exact exec_event rfl (laurelRelease_of_notVerified hv)
  case training =>
    rintro s _ x y full failed rfl hs hr ha hb hx hy
    exact exec_event rfl (trainingDone_of_memOn hs hr ha hb hx hy)
  case mount =>
    rintro s _ failed x rfl hs hr hn hx
    exact exec_event rfl (ftlMountDone_of_nandOn hs hr hn hx)
  case channel =>
    exact fun s n failed => ⟨mountChannel_of_failed s, mountChannel_inService⟩
  case reset =>
    rintro s _ cause rfl
    exact exec_event rfl rfl
  case resetFields =>
    exact fun s n => ⟨rfl, rfl, rfl, rfl, rfl, rfl, rfl, rfl, rfl, rfl, rfl⟩

/- ### The recovery loader (19 R413, R414) -/

theorem rcvCtrlWrite_of_idle {s : State} (v : U64) (hb : barReached s = true) (hr : s.boot.recovery = true) (hbusy : s.boot.rcvBusy = false) :
    rcvCtrlWrite v s =
      { s with boot := { s.boot with rcvComponent := v.toNat % 8, rcvLen := bits v.toNat 54 32, rcvBusy := bit v.toNat 3 } } := by
  rw [rcvCtrlWrite, if_pos hb]
  exact if_neg (by simp [hr, hbusy])

section
variable {s : State} {hostOk norOk : Bool} (hr : s.boot.recovery = true) (hbusy : s.boot.rcvBusy = true)
include hr hbusy

theorem recoveryLoadDone_of_refused (h : loadReason s hostOk norOk ≠ 0) :
    recoveryLoadDone hostOk norOk s = { s with boot := { s.boot with rcvBusy := false, rcvReason := loadReason s hostOk norOk } } := by
  unfold recoveryLoadDone
  dsimp only
  rw [if_neg (by simp [hr, hbusy]), if_pos h]

theorem recoveryLoadDone_of_accepted {failed : BitVec 6} (h : loadReason s hostOk norOk = 0)
    (hf : failed = s.boot.failed &&& ~~~(BitVec.ofNat 6 (2 ^ (s.boot.rcvComponent - 1)))) :
    recoveryLoadDone hostOk norOk s =
      { s with fw := { s.fw with nor := s.fw.nor.filter (fun g => g.component != s.boot.rcvComponent)
                                   ++ [imageOf s.boot.rcvComponent (memReadN s.store.host s.boot.rcvSrc.toNat s.boot.rcvLen)] }
               boot := { s.boot with rcvBusy := false, rcvReason := 0, failed := failed
                                     resetAt := if failed = 0 then some (s.stb + 3072) else none } } := by
  subst hf
  unfold recoveryLoadDone
  dsimp only
  rw [if_neg (by simp [hr, hbusy]), if_neg (not_not_intro h)]

end

theorem recoveryReset_of_due {s : State} {n : Nat} (hr : s.boot.recovery = true) (ha : s.boot.resetAt = some n) (hn : n ≤ s.stb) :
    recoveryReset s = powerOnReset 2 s := by
  simp [recoveryReset, ha, hr, hn]

/-- Settles O36: the end of a load is split on its reason, and the reset waits for its tick. -/
theorem recoveryLoader : Obligations.RecoveryLoader := by
  unfold Obligations.RecoveryLoader
  refine ⟨?go, ?refused, ?accepted, ?reset⟩
  case go =>
    intro s v hb hr hbusy
    exact exec_direct rfl (rcvCtrlWrite_of_idle v hb hr hbusy)
  case refused =>
    rintro s _ hostOk norOk rfl hr hbusy h
    exact exec_event rfl (recoveryLoadDone_of_refused hr hbusy h)
  case accepted =>
    rintro s _ hostOk norOk failed rfl hr hbusy h hf
    exact exec_event rfl (recoveryLoadDone_of_accepted hr hbusy h hf)
  case reset =>
    rintro s _ n rfl hr ha hn
    exact exec_event rfl (recoveryReset_of_due hr ha hn)

/- ### The reset state (19 R403) -/

theorem memoriesWf_reset : memoriesWf State.reset = true := by decide

theorem boostsSettled_reset : BoostsSettled State.reset :=
  congrArg State.rings (boostAll_of_idle (s := State.reset) rfl (fun _ h => absurd h List.not_mem_nil))

/-- Settles O59: every clause is a field of the reset state, but for the form of its memories and its boosts, which have lemmas. -/
theorem resetState : Obligations.ResetState := by
  unfold Obligations.ResetState
  exact ⟨rfl, rfl, rfl, rfl, rfl, rfl, rfl, rfl, rfl, rfl, rfl, rfl, rfl, rfl, rfl, rfl, rfl, rfl, rfl, rfl, rfl, rfl, rfl, rfl, rfl,
    memoriesWf_reset, boostsSettled_reset⟩

end Sys2Proof.Machine
end

section
/-! SUPPORT. The completion record (05 Table 5.8): little-endian bytes read back, the fields of a list of bytes that stand after others, and the
statement that these settle. -/

namespace Sys2Proof.Machine

/- ### Little-endian bytes (00 Notation) -/

@[simp] theorem natLe_length (len : Nat) : ∀ n, (natLe len n).length = len := by
  induction len with
  | zero => exact fun _ => rfl
  | succ k ih => exact fun n => congrArg Nat.succ (ih (n / 256))

@[simp] theorem leNat_natLe (len : Nat) : ∀ n, leNat (natLe len n) = n % 256 ^ len := by
  induction len with
  | zero => exact fun n => (Nat.mod_one n).symm
  | succ k ih =>
    intro n
    have hbyte : (BitVec.ofNat 8 n).toNat = n % 256 := BitVec.toNat_ofNat n 8
    rw [natLe, leNat, ih, hbyte, Nat.pow_succ', Nat.mod_mul]

/- ### A field after other bytes -/

theorem field_append_left (a b : List Byte) {len : Nat} (h : a.length = len) : field (a ++ b) 0 len = leNat a := by
  simp [field, bytesAt, ← h]

theorem field_append_right (a b : List Byte) {off n len : Nat} (h : a.length = n) : field (a ++ b) (n + off) len = field b off len := by
  simp only [field, bytesAt, ← h, List.drop_length_add_append]

@[simp] theorem result12_length (r : List Byte) : (result12 r).length = 12 := by
  simp [result12, zeroBytes]

/- ### The fields of the record (05 Table 5.8) -/

section
variable (seq : U32) (st : Nat) (warn cf : BitVec 8) (stamp slow : Nat) (r : List Byte)

/-- The record with its parts nested to the right, so that each field is met after those before it. -/
theorem recordBytes_eq : recordBytes seq st warn cf stamp slow r =
    natLe 4 seq.toNat ++ (natLe 2 st ++ ([warn, cf] ++ (natLe 8 stamp ++ (natLe 4 slow ++ result12 r)))) := by
  simp [recordBytes]

theorem recordBytes_length : (recordBytes seq st warn cf stamp slow r).length = 32 := by
  simp [recordBytes_eq]

theorem recordBytes_seq : field (recordBytes seq st warn cf stamp slow r) 0 4 = seq.toNat := by
  rw [recordBytes_eq, field_append_left _ _ (natLe_length _ _), leNat_natLe]
  exact Nat.mod_eq_of_lt seq.isLt

theorem recordBytes_status : field (recordBytes seq st warn cf stamp slow r) 4 2 = st % 65536 := by
  rw [recordBytes_eq, field_append_right (off := 0) _ _ (natLe_length 4 _), field_append_left _ _ (natLe_length _ _), leNat_natLe]
  rfl

theorem recordBytes_warn : (recordBytes seq st warn cf stamp slow r)[6]? = some warn := by
  simp [recordBytes_eq]

theorem recordBytes_cflags : (recordBytes seq st warn cf stamp slow r)[7]? = some cf := by
  simp [recordBytes_eq]

theorem recordBytes_stamp : field (recordBytes seq st warn cf stamp slow r) 8 8 = stamp % 18446744073709551616 := by
  rw [recordBytes_eq, field_append_right (off := 4) _ _ (natLe_length 4 _), field_append_right (off := 2) _ _ (natLe_length 2 _),
    field_append_right (off := 0) _ _ (n := 2) rfl, field_append_left _ _ (natLe_length _ _), leNat_natLe]
  rfl

theorem recordBytes_slowdown : field (recordBytes seq st warn cf stamp slow r) 16 4 = slow % 4294967296 := by
  rw [recordBytes_eq, field_append_right (off := 12) _ _ (natLe_length 4 _), field_append_right (off := 10) _ _ (natLe_length 2 _),
    field_append_right (off := 8) _ _ (n := 2) rfl, field_append_right (off := 0) _ _ (natLe_length 8 _),
    field_append_left _ _ (natLe_length _ _), leNat_natLe]
  rfl

theorem recordBytes_result : (recordBytes seq st warn cf stamp slow r).drop 20 = result12 r :=
  List.drop_left' (by simp)

end

/-- Settles O56: each field is read after the bytes before it. -/
theorem completionRecordLayout : Obligations.CompletionRecordLayout := by
  unfold Obligations.CompletionRecordLayout
  intro seq st warn cf stamp slow r
  exact ⟨recordBytes_length .., recordBytes_seq .., recordBytes_status .., recordBytes_warn .., recordBytes_cflags ..,
    recordBytes_stamp .., recordBytes_slowdown .., recordBytes_result ..⟩

end Sys2Proof.Machine
end
